-- ==== Sys2Proof/Word.lean ====
section
/-! DEFINITION. The word types of the Tarn and the shape of a sparse table: a list of keyed entries in one canonical
form (keys strictly rising, no entry equal to the default that an unlisted key reads as). -/

namespace Sys2Proof

/-- A 32-bit register or instruction word (R44, R139). -/
abbrev Word := BitVec 32

/-- A 64-bit uniform register (R44). -/
abbrev Word64 := BitVec 64

/-- One byte of memory (R5). -/
abbrev Byte := BitVec 8

/-- A program counter or virtual address of 57 bits (R88, R139). -/
abbrev VAddr := BitVec 57

/-- A sparse table: keys strictly rising, no entry equal to the default. Every unlisted key reads as the default. -/
abbrev FMap (α : Type) := List (Nat × α)

end Sys2Proof
end

