-- ==== Sys2Proof/Config.lean ====
section
/-! DEFINITION. What the spec leaves open: the free values of R10, and the functions that the spec names and does not define
(digests, signatures, ciphers). None has a body, so no proof can rest on a value of one. -/

namespace Sys2Proof.Config

/-- A free 32-bit value: the latch of a thread that was not active (R50, R10). Read at a counter that the step advances. -/
opaque freeWord : Nat → Word

/-- A free byte: the activation buffer and exchange window at crew creation (R39), bytes that TCPY leaves open (R260). -/
opaque freeByte : Nat → Byte

/-- A free 17-byte cistern record: the records of a claim that G2C has not written (R39, R331). -/
opaque freeRecord : Nat → BitVec 136

/-- XRANK of a crew of a launch that is not an exchange launch, by launch id, stage and crew index (R58, R320 give it no value). -/
opaque freeRank : Nat → Nat → Nat → BitVec 16

/-- SHA-512 of a byte string (R382, R386): named by the spec, defined outside it. -/
opaque sha512 : List Byte → BitVec 512

/-- ECDSA P-521 signature by the device identity key, r then s, 66 bytes each (R385, R386). -/
opaque identitySign : List Byte → BitVec 1056

/-- Whether the ECDSA P-521 signature of an image header and body verifies under the fused key (R382). -/
opaque imageVerifies : List Byte → Bool

/-- This device's identity digest, as HKDF takes it (R368). -/
opaque ownIdentity : List Byte

/-- Whether a peer's signed key message is good: the identity digest of the session's entry, both sides' nonces, this side's first, and the message
(R368). -/
opaque keyMessageGood : List Byte → Bool

/-- This device's nonces for exchanges of keys (R368): random. -/
opaque ownNonce : Nat → List Byte

/-- This device's signed ephemeral key messages (R368): a random key, at a counter, signed over both sides' nonces, this side's first. -/
opaque ownKeyMessage : Nat → List Byte → List Byte

/-- The keys and salts of both directions that HKDF-SHA-512 derives from one exchange: both sides' messages, with their public keys,
both nonces and both identity digests (R368). -/
opaque sessionKeys : List Byte → BitVec 576

/-- Whether a sealed packet authenticates under the session's keys (R369). -/
opaque packetAuthentic : BitVec 576 → List Byte → Bool

/-- The energy that a block's own activity counts estimate for a window, by block and activity (R380). -/
opaque energyOf : Nat → Nat → Nat

/-- The save area that the firmware gives a crew, as a 2 MiB page number (SAVEBASE comes from the bind, R284). -/
opaque savePage : Nat → BitVec 36

/-- Bytes that a save of a crew writes outside its claims, by their offsets in the save area (R285 leaves them unspecified). -/
opaque saveNoise : Nat → List (Nat × Byte)

end Sys2Proof.Config
end

