-- ==== Sys2Proof/Syntax.lean ====
section
/-! DEFINITION. The instructions and steps of the Tarn: one constructor for every row of spec/opcode_table.json. The first
237 are the words of ZIS (R142..R156); the other 88 are steps that no word encodes, each naming by numbers the request,
crew, operation, core or input it acts on. -/

namespace Sys2Proof

/-- A 7-bit operand field (R46): V, O, L or S register, or one of the twenty reserved values 0x4C..0x5F. -/
inductive Opnd where
  | v (n : Fin 64)
  | o (n : Fin 8)
  | l (n : Fin 4)
  | s (n : Fin 32)
  | rsv (n : Fin 20)
  deriving DecidableEq, Repr

/-- Format F-R with a destination and two sources; `n` sends the result to L0 only (R142, R143). -/
structure FR3 where
  n : Bool
  d : Opnd
  a : Opnd
  b : Opnd
  deriving DecidableEq, Repr

/-- Format F-R with a destination and one source (R143, R155). -/
structure FR2 where
  n : Bool
  d : Opnd
  a : Opnd
  deriving DecidableEq, Repr

/-- Format F-R whose D is read and written: MAD, DOT4, DOT2, BFI, CRC, FMA, FMS (R155). -/
structure FRA where
  d : Opnd
  a : Opnd
  b : Opnd
  deriving DecidableEq, Repr

/-- Format F-R of ICMP and FCMP: D holds a predicate number (R155). -/
structure FCmp where
  p : Fin 8
  a : Opnd
  b : Opnd
  deriving DecidableEq, Repr

/-- Format F-R of CVT, PACK and UNPK: B holds an element-type code (R155). -/
structure FCvt where
  n : Bool
  d : Opnd
  a : Opnd
  e : Fin 16
  deriving DecidableEq, Repr

/-- Format F-R of QNT, DQNT and NEST: B holds a slot number (R155). -/
structure FSlot where
  n : Bool
  d : Opnd
  a : Opnd
  s : Fin 8
  deriving DecidableEq, Repr

/-- Format F-I of ADDI and ANDI (R144). -/
structure FImm where
  n : Bool
  d : Opnd
  a : Opnd
  i : BitVec 11
  deriving DecidableEq, Repr

/-- Format F-I of ISHI: the shift amount 0..31 (R144). -/
structure FShi where
  n : Bool
  d : Opnd
  a : Opnd
  c : Fin 32
  deriving DecidableEq, Repr

/-- Format F-M of LD, ST and STP: data register, base, index, size, order and hint (R146, R147). -/
structure FM where
  x : Opnd
  b : Fin 32
  i : Opnd
  z : Fin 8
  o : Fin 4
  h : Fin 4
  deriving DecidableEq, Repr

/-- Format F-M without a hint: LDA, STA, STX, MST and PUTA (R147). -/
structure FMz where
  x : Opnd
  b : Fin 32
  i : Opnd
  z : Fin 8
  o : Fin 4
  deriving DecidableEq, Repr

/-- Format F-MA of ATOM and ATOMW; `q` asks for the sequence tag (R146). -/
structure FMA where
  x : Opnd
  b : Fin 32
  i : Opnd
  o : Fin 4
  q : Bool
  deriving DecidableEq, Repr

/-- Format F-MA of ATOMA, whose Q is 0 (R146). -/
structure FMo where
  x : Opnd
  b : Fin 32
  i : Opnd
  o : Fin 4
  deriving DecidableEq, Repr

/-- Format F-X of MMA (R149): accumulator, tile, record register, slots, future register, Z, K and W. -/
structure FX where
  acc : Fin 4
  tile : Fin 16
  b : Fin 32
  slotA : Fin 8
  slotB : Fin 8
  sf : Fin 32
  z : Bool
  k : Bool
  w : Bool
  deriving DecidableEq, Repr

/-- Format F-T of AMOV and AMOVW: destination, accumulator, row or column, slice register and addend (R150). -/
structure FAcc where
  d : Opnd
  k : Fin 4
  rc : Bool
  x : Fin 32
  n : Fin 16
  deriving DecidableEq, Repr

/-- Format F-T of TMOV and TMOVW (R150). -/
structure FTile where
  d : Opnd
  k : Fin 16
  rc : Bool
  x : Fin 32
  n : Fin 16
  deriving DecidableEq, Repr

/-- One instruction word or one step of the machine. -/
inductive Instr where
  /-- NOP (R178). Does nothing for one issue period. -/
  | nop
  /-- SPR (R179). Reads a special register into a V, O or S destination. -/
  | spr (d : Opnd) (a : Fin 128)
  /-- BRK (R180). Raises the exact trap BREAK with a 7-bit code; the return address is the BRK itself. -/
  | brk (a : Fin 128)
  /-- TRAP (R180). Raises the exact trap SOFTWARE with a 7-bit code; the return address is the next instruction. -/
  | trap (a : Fin 128)
  /-- TFENCE (R181). Waits until earlier instructions have retired, then raises ARITH if an enabled flag is set. -/
  | tfence
  /-- DRAIN (R182). Waits until every write of the strand is acknowledged, then raises a store-fault record if one is present. -/
  | drain
  /-- YIELD (R183). Makes the strand not ready for the next 4 issue periods and invalidates its latches. -/
  | yield
  /-- SEED (R185). Sets the stochastic state of every thread of the strand from a source value. -/
  | seed (a : Opnd)
  /-- CLOCK (R186). Waits for earlier results, then writes the core cycle count to an S register. -/
  | clock (d : Opnd)
  /-- EXIT (R187). Ends the threads of the active mask; the strand retires when no live thread remains. -/
  | exit
  /-- WAIT (R184). Makes the strand not ready until LTIME reaches the deadline of issue time plus a tick count. -/
  | wait (a : Opnd)
  /-- MODE_GP (R177). Writes the guard predicate and guard sense fields of MR. -/
  | modeGp (g : Bool) (p : Fin 8)
  /-- MODE_ET (R177). Writes the element type field of MR. -/
  | modeEt (e : Fin 16)
  /-- MODE_RM (R177). Writes the rounding mode field of MR. -/
  | modeRm (m : Fin 8)
  /-- MODE_SATFZ (R177). Writes the SAT and FZ fields of MR. -/
  | modeSatfz (z : Bool) (a : Bool)
  /-- MODE_SCOPE (R177). Writes the SCOPE field of MR. -/
  | modeScope (c : Fin 8)
  /-- MODE_TE (R177). Writes the trap-enable field of MR. -/
  | modeTe (t : Fin 16)
  /-- MODE_DH (R177). Writes the home-domain hint field of MR. -/
  | modeDh (h : Fin 4)
  /-- MODE_ALL (R177). Writes the whole MR from bits [31:0] of an S register, raising ILLEGAL_MODE if bits [31:22] are set. -/
  | modeAll (r : Fin 32)
  /-- BR (R166). Branches where the predicate is true, pushing reconvergence and pending entries. -/
  | br (h : Bool) (p : Fin 8) (o : BitVec 21)
  /-- BRN (R166). Branches where the predicate is false, pushing reconvergence and pending entries. -/
  | brn (h : Bool) (p : Fin 8) (o : BitVec 21)
  /-- BRU (R167). Branches the strand on a condition of a signed 64-bit S register, pushing nothing. -/
  | bru (r : Fin 32) (c : Fin 4) (o : BitVec 18)
  /-- JMP (R168). Jumps to a word offset from the next instruction. -/
  | jmp (o : BitVec 26)
  /-- CALL (R168). Writes the return address to S31 and jumps. -/
  | call (o : BitVec 26)
  /-- LOOP (R172). Starts a hardware loop over the following body words with a count from an S register, or skips the body for a count of 0. -/
  | loop (len : Fin 256) (c : Opnd)
  /-- RET (R169). Jumps to the address held in S31. -/
  | ret
  /-- JR (R169). Jumps to the address held in an S register. -/
  | jr (a : Opnd)
  /-- CALLR (R169). Jumps to the address in an S register and writes the return address to S31. -/
  | callr (a : Opnd)
  /-- JOIN (R170). Pops the top reconvergence-stack entry and restores its mask, continuing at a pending entry's PC. -/
  | join
  /-- WCONV (R171). Holds the sub-gang until every sub-gang of the weave arrives, then regangs them or raises ILLEGAL_CONVERGENCE. -/
  | wconv
  /-- LBRK (R176). Pops the innermost hardware loop and continues at its end. -/
  | lbrk
  /-- ADD (R197). Adds integer elements with fit. -/
  | add (f : FR3)
  /-- SUB (R197). Subtracts integer elements with fit. -/
  | sub (f : FR3)
  /-- MUL (R197). Multiplies integer elements with fit. -/
  | mul (f : FR3)
  /-- MULHI (R197). Gives the high half of the integer product. -/
  | mulhi (f : FR3)
  /-- MAD (R197). Multiplies and adds the destination with fit. -/
  | mad (f : FRA)
  /-- DIV (R198). Divides integer elements, truncating, with defined zero-divisor results and DZ. -/
  | div (f : FR3)
  /-- REM (R198). Gives the integer remainder with defined zero-divisor results. -/
  | rem (f : FR3)
  /-- MIN (R197). Gives the smaller integer element by ET. -/
  | min (f : FR3)
  /-- MAX (R197). Gives the larger integer element by ET. -/
  | max (f : FR3)
  /-- ABS (R197). Gives the absolute value of integer elements. -/
  | abs (f : FR2)
  /-- NEG (R197). Negates integer elements with fit. -/
  | neg (f : FR2)
  /-- DOT4 (R199). Accumulates four 8-bit products into the 32-bit destination. -/
  | dot4 (f : FRA)
  /-- DOT2 (R199). Accumulates two 16-bit products into the 32-bit destination. -/
  | dot2 (f : FRA)
  /-- AVG (R197). Gives the rounded-up average of integer elements. -/
  | avg (f : FR3)
  /-- AND (R200). Bitwise AND of 32-bit registers. -/
  | and (f : FR3)
  /-- OR (R200). Bitwise OR of 32-bit registers. -/
  | or (f : FR3)
  /-- XOR (R200). Bitwise XOR of 32-bit registers. -/
  | xor (f : FR3)
  /-- ANDN (R200). Bitwise A AND NOT B. -/
  | andn (f : FR3)
  /-- NOT (R200). Bitwise complement. -/
  | not (f : FR2)
  /-- SHL (R201). Shifts integer elements left. -/
  | shl (f : FR3)
  /-- SHR (R201). Shifts integer elements right logically. -/
  | shr (f : FR3)
  /-- SAR (R201). Shifts integer elements right arithmetically. -/
  | sar (f : FR3)
  /-- ROL (R201). Rotates integer elements left. -/
  | rol (f : FR3)
  /-- POPC (R200). Counts the 1 bits of a register. -/
  | popc (f : FR2)
  /-- CLZ (R200). Counts the leading zero bits of a register. -/
  | clz (f : FR2)
  /-- BREV (R200). Reverses the bits of a register. -/
  | brev (f : FR2)
  /-- BFX (R202). Extracts a zero-extended bit field. -/
  | bfx (f : FR3)
  /-- BFI (R202). Inserts a bit field into the destination. -/
  | bfi (f : FRA)
  /-- CRC (R203). Updates a CRC32C remainder with up to four bytes. -/
  | crc (f : FRA)
  /-- ICMP_EQ (R204). Sets a predicate where every element pair is equal. -/
  | icmpEq (f : FCmp)
  /-- ICMP_NE (R204). Sets a predicate where EQ does not hold. -/
  | icmpNe (f : FCmp)
  /-- ICMP_LT (R204). Sets a predicate where every element is less. -/
  | icmpLt (f : FCmp)
  /-- ICMP_LE (R204). Sets a predicate where every element is less or equal. -/
  | icmpLe (f : FCmp)
  /-- ICMP_GT (R204). Sets a predicate where every element is greater. -/
  | icmpGt (f : FCmp)
  /-- ICMP_GE (R204). Sets a predicate where every element is greater or equal. -/
  | icmpGe (f : FCmp)
  /-- ICMP_TST (R204). Sets a predicate where A AND B is nonzero. -/
  | icmpTst (f : FCmp)
  /-- FADD (R205). Floating-point addition rounded by MR.RM. -/
  | fadd (f : FR3)
  /-- FSUB (R205). Floating-point subtraction rounded by MR.RM. -/
  | fsub (f : FR3)
  /-- FMUL (R205). Floating-point multiplication rounded by MR.RM. -/
  | fmul (f : FR3)
  /-- FMA (R206). Fused a times b plus d with one rounding. -/
  | fma (f : FRA)
  /-- FMS (R206). Fused a times b minus d with one rounding. -/
  | fms (f : FRA)
  /-- FMIN (R207). Returns the smaller floating source with NaN handling. -/
  | fmin (f : FR3)
  /-- FMAX (R207). Returns the larger floating source with NaN handling. -/
  | fmax (f : FR3)
  /-- FABS (R205). Clears the sign of a floating element. -/
  | fabs (f : FR2)
  /-- FNEG (R205). Inverts the sign of a floating element. -/
  | fneg (f : FR2)
  /-- FRCP (R208). Correctly rounded reciprocal by RNE. -/
  | frcp (f : FR2)
  /-- FRSQ (R208). Correctly rounded reciprocal square root by RNE. -/
  | frsq (f : FR2)
  /-- FSQRT (R205). Correctly rounded square root by MR.RM. -/
  | fsqrt (f : FR2)
  /-- FDIV (R205). Correctly rounded division by MR.RM. -/
  | fdiv (f : FR3)
  /-- FEX2 (R208). Correctly rounded power of two by RNE. -/
  | fex2 (f : FR2)
  /-- FLG2 (R208). Correctly rounded base-2 logarithm by RNE. -/
  | flg2 (f : FR2)
  /-- FSCL (R210). Scales a floating element by a clamped power of two. -/
  | fscl (f : FR3)
  /-- FCMP_EQ (R211). Sets a predicate where every floating pair is equal. -/
  | fcmpEq (f : FCmp)
  /-- FCMP_NE (R211). Sets a predicate where floating EQ does not hold. -/
  | fcmpNe (f : FCmp)
  /-- FCMP_LT (R211). Sets a predicate where every floating pair is less. -/
  | fcmpLt (f : FCmp)
  /-- FCMP_LE (R211). Sets a predicate where every floating pair is less or equal. -/
  | fcmpLe (f : FCmp)
  /-- FCMP_GT (R211). Sets a predicate where every floating pair is greater. -/
  | fcmpGt (f : FCmp)
  /-- FCMP_GE (R211). Sets a predicate where every floating pair is greater or equal. -/
  | fcmpGe (f : FCmp)
  /-- FCMP_UN (R211). Sets a predicate where some pair holds a NaN. -/
  | fcmpUn (f : FCmp)
  /-- CVT (R212). Converts elements from MR.ET to a target type. -/
  | cvt (f : FCvt)
  /-- QNT (R214). Quantises two 16-thread blocks of FP32 to 8-bit values and writes each block's scale to O6. -/
  | qnt (f : FSlot)
  /-- DQNT (R215). Restores FP32 from an 8-bit value and the scale byte in O6. -/
  | dqnt (f : FSlot)
  /-- PACK (R213). Converts a group of registers into one register of narrower elements. -/
  | pack (f : FCvt)
  /-- UNPK (R213). Converts one register into a group of registers of wider elements. -/
  | unpk (f : FCvt)
  /-- NEST (R216). Transposes a block of weights into bit-plane record bytes. -/
  | nest (f : FSlot)
  /-- MOV (R217). Copies a 32-bit value per thread. -/
  | mov (f : FR2)
  /-- SHFI (R217). Reads A from an indexed thread of the strand. -/
  | shfi (f : FR3)
  /-- SHUP (R217). Reads A from the thread c below. -/
  | shup (f : FR3)
  /-- SHDN (R217). Reads A from the thread c above. -/
  | shdn (f : FR3)
  /-- SHXR (R217). Reads A from the thread t xor c. -/
  | shxr (f : FR3)
  /-- RDS (R218). Sums A over the active threads in a fixed tree. -/
  | rds (f : FR2)
  /-- RDMIN (R218). Reduces A to its minimum over the active threads. -/
  | rdmin (f : FR2)
  /-- RDMAX (R218). Reduces A to its maximum over the active threads. -/
  | rdmax (f : FR2)
  /-- SCAN (R219). Writes inclusive prefix sums over the active threads. -/
  | scan (f : FR2)
  /-- BALLOT (R220). Counts active threads of the sub-gang with the predicate set into an S register of every strand. -/
  | ballot (d : Opnd) (p : Fin 8)
  /-- ANY (R220). Writes 1 to an S register if any active thread of the sub-gang has the predicate set. -/
  | any (d : Opnd) (p : Fin 8)
  /-- ALL (R220). Writes 1 to an S register if every active thread of the sub-gang has the predicate set. -/
  | all (d : Opnd) (p : Fin 8)
  /-- WRDS (R221). Sums A over every active thread of the sub-gang into an S register of every strand. -/
  | wrds (d : Opnd) (a : Opnd)
  /-- PAND (R188). Predicate AND. -/
  | pand (d : Fin 8) (a : Fin 8) (b : Fin 8)
  /-- POR (R188). Predicate OR. -/
  | por (d : Fin 8) (a : Fin 8) (b : Fin 8)
  /-- PXOR (R188). Predicate XOR. -/
  | pxor (d : Fin 8) (a : Fin 8) (b : Fin 8)
  /-- PNOT (R188). Predicate complement. -/
  | pnot (d : Fin 8) (a : Fin 8)
  /-- P2S (R188). Packs a predicate of the active threads into an S register. -/
  | p2s (d : Opnd) (a : Fin 8)
  /-- S2P (R188). Sets a predicate per thread from the bits of an S register. -/
  | s2p (d : Fin 8) (a : Opnd)
  /-- SEL (R189). Selects A or B per thread by predicate Pk. -/
  | sel (k : Fin 8) (f : FR3)
  /-- ADDI (R222). Adds a sign-extended 11-bit immediate to integer elements. -/
  | addi (f : FImm)
  /-- MOVI (R223). Writes a sign-extended 18-bit immediate to a V, O or S register. -/
  | movi (n : Bool) (d : Opnd) (i : BitVec 18)
  /-- MOVH (R223). Places a 16-bit value in a chosen halfword of the destination, keeping other bits. -/
  | movh (d : Opnd) (j : Fin 4) (v : BitVec 16)
  /-- UADD (R225). Uniform 64-bit addition. -/
  | uadd (d : Fin 32) (a : Fin 32) (b : Fin 32)
  /-- USUB (R225). Uniform 64-bit subtraction. -/
  | usub (d : Fin 32) (a : Fin 32) (b : Fin 32)
  /-- UMUL (R225). Low 64 bits of a uniform product. -/
  | umul (d : Fin 32) (a : Fin 32) (b : Fin 32)
  /-- UMULHI (R225). High 64 bits of the signed uniform product. -/
  | umulhi (d : Fin 32) (a : Fin 32) (b : Fin 32)
  /-- UAND (R225). Uniform bitwise AND. -/
  | uand (d : Fin 32) (a : Fin 32) (b : Fin 32)
  /-- UOR (R225). Uniform bitwise OR. -/
  | uor (d : Fin 32) (a : Fin 32) (b : Fin 32)
  /-- UXOR (R225). Uniform bitwise XOR. -/
  | uxor (d : Fin 32) (a : Fin 32) (b : Fin 32)
  /-- USHL (R225). Uniform shift left. -/
  | ushl (d : Fin 32) (a : Fin 32) (b : Fin 32)
  /-- USHR (R225). Uniform logical shift right. -/
  | ushr (d : Fin 32) (a : Fin 32) (b : Fin 32)
  /-- USAR (R225). Uniform arithmetic shift right. -/
  | usar (d : Fin 32) (a : Fin 32) (b : Fin 32)
  /-- UMIN (R225). Uniform signed minimum. -/
  | umin (d : Fin 32) (a : Fin 32) (b : Fin 32)
  /-- UMAX (R225). Uniform signed maximum. -/
  | umax (d : Fin 32) (a : Fin 32) (b : Fin 32)
  /-- UCMPLT (R225). Uniform signed less-than comparison. -/
  | ucmplt (d : Fin 32) (a : Fin 32) (b : Fin 32)
  /-- UCMPEQ (R225). Uniform equality comparison. -/
  | ucmpeq (d : Fin 32) (a : Fin 32) (b : Fin 32)
  /-- UCMPLTN (R225). Uniform unsigned less-than comparison. -/
  | ucmpltn (d : Fin 32) (a : Fin 32) (b : Fin 32)
  /-- UADDI (R224). Adds a sign-extended immediate to an S register. -/
  | uaddi (d : Opnd) (a : Opnd) (i : BitVec 11)
  /-- ISHI_SHL (R222). Shifts integer elements left by an immediate count. -/
  | ishiShl (f : FShi)
  /-- ISHI_SHR (R222). Shifts integer elements right logically by an immediate count. -/
  | ishiShr (f : FShi)
  /-- ISHI_SAR (R222). Shifts integer elements right arithmetically by an immediate count. -/
  | ishiSar (f : FShi)
  /-- ISHI_ROL (R222). Rotates integer elements left by an immediate count. -/
  | ishiRol (f : FShi)
  /-- ANDI (R222). ANDs a register with a sign-extended immediate. -/
  | andi (f : FImm)
  /-- LD (R232). Loads global memory per active thread with a lease hint and order code. -/
  | ld (f : FM)
  /-- ST (R232). Stores to global memory per active thread, translated before it retires. -/
  | st (f : FM)
  /-- STP (R232). Posted store to global memory that retires when it leaves the core. -/
  | stp (f : FM)
  /-- ATOM_ADD (R233). 32-bit atomic add at the home slice. -/
  | atomAdd (f : FMA)
  /-- ATOM_MIN (R233). 32-bit atomic signed minimum. -/
  | atomMin (f : FMA)
  /-- ATOM_MAX (R233). 32-bit atomic signed maximum. -/
  | atomMax (f : FMA)
  /-- ATOM_MINU (R233). 32-bit atomic unsigned minimum. -/
  | atomMinu (f : FMA)
  /-- ATOM_MAXU (R233). 32-bit atomic unsigned maximum. -/
  | atomMaxu (f : FMA)
  /-- ATOM_AND (R233). 32-bit atomic AND. -/
  | atomAnd (f : FMA)
  /-- ATOM_OR (R233). 32-bit atomic OR. -/
  | atomOr (f : FMA)
  /-- ATOM_XOR (R233). 32-bit atomic XOR. -/
  | atomXor (f : FMA)
  /-- ATOM_XCHG (R233). 32-bit atomic exchange. -/
  | atomXchg (f : FMA)
  /-- ATOM_CAS (R233). 32-bit atomic compare-and-swap. -/
  | atomCas (f : FMA)
  /-- ATOM_INCB (R233). 32-bit atomic increment below an unsigned bound. -/
  | atomIncb (f : FMA)
  /-- ATOM_FADD (R233). Atomic FP32 add rounded by RNE. -/
  | atomFadd (f : FMA)
  /-- ATOM_FADDBF (R233). Atomic add of two BF16 halves. -/
  | atomFaddbf (f : FMA)
  /-- ATOM_FMAX (R233). Atomic FP32 maximum. -/
  | atomFmax (f : FMA)
  /-- ATOM_DECZ (R233). Atomic decrement stopping at zero. -/
  | atomDecz (f : FMA)
  /-- ATOMW_ADD (R233). 64-bit atomic add. -/
  | atomwAdd (f : FMA)
  /-- ATOMW_MIN (R233). 64-bit atomic signed minimum. -/
  | atomwMin (f : FMA)
  /-- ATOMW_MAX (R233). 64-bit atomic signed maximum. -/
  | atomwMax (f : FMA)
  /-- ATOMW_XCHG (R233). 64-bit atomic exchange. -/
  | atomwXchg (f : FMA)
  /-- ATOMW_CAS (R233). 64-bit atomic compare-and-swap. -/
  | atomwCas (f : FMA)
  /-- ATOMW_CAS128 (R233). 128-bit atomic compare-and-swap. -/
  | atomwCas128 (f : FMA)
  /-- ATOMW_MAXP (R234). Atomic replacement of a score-index pair by an offered pair that orders before it. -/
  | atomwMaxp (f : FMA)
  /-- ATOMW_INCB (R233). 64-bit atomic increment below an unsigned bound. -/
  | atomwIncb (f : FMA)
  /-- LDA (R236). Loads from the crew's view of the activation buffer. -/
  | lda (f : FMz)
  /-- STA (R236). Stores to the crew's view of the activation buffer. -/
  | sta (f : FMz)
  /-- ATOMA_ADD (R238). AB atomic add. -/
  | atomaAdd (f : FMo)
  /-- ATOMA_MIN (R238). AB atomic signed minimum. -/
  | atomaMin (f : FMo)
  /-- ATOMA_MAX (R238). AB atomic signed maximum. -/
  | atomaMax (f : FMo)
  /-- ATOMA_AND (R238). AB atomic AND. -/
  | atomaAnd (f : FMo)
  /-- ATOMA_OR (R238). AB atomic OR. -/
  | atomaOr (f : FMo)
  /-- ATOMA_XOR (R238). AB atomic XOR. -/
  | atomaXor (f : FMo)
  /-- ATOMA_XCHG (R238). AB atomic exchange. -/
  | atomaXchg (f : FMo)
  /-- ATOMA_CAS (R238). AB atomic compare-and-swap. -/
  | atomaCas (f : FMo)
  /-- ATOMA_INCB (R238). AB atomic increment below a bound. -/
  | atomaIncb (f : FMo)
  /-- ATOMA_FADD (R238). AB atomic FP32 add. -/
  | atomaFadd (f : FMo)
  /-- ATOMA_MAXP (R238). AB atomic BF16-score pair maximum. -/
  | atomaMaxp (f : FMo)
  /-- STX (R239). Posted store into the shadow bank of a target rank's exchange window. -/
  | stx (f : FMz)
  /-- PUTA (R241). Posted put of a token's bytes into an expert buffer, handled at the descriptor's device. -/
  | puta (f : FMz) (h : Bool)
  /-- MST (R243). Posted store replicated to every member device of a multicast group. -/
  | mst (f : FMz)
  /-- PREF (R244). Brings a line into its home slice's L2. -/
  | pref (b : Fin 32) (i : Opnd)
  /-- PHINT (R244). Sets the reuse estimate RE of the 2 MiB leaf mapping the address. -/
  | phint (x : Opnd) (b : Fin 32) (i : Opnd)
  /-- LDROP (R244). Removes a line from the issuing core's L1. -/
  | ldrop (b : Fin 32) (i : Opnd)
  /-- FENCE_ACQ (R245). Acquire fence at the encoded scope. -/
  | fenceAcq (c : Fin 8)
  /-- FENCE_REL (R245). Release fence at the encoded scope. -/
  | fenceRel (c : Fin 8)
  /-- FENCE_AR (R245). Acquire-release fence at the encoded scope. -/
  | fenceAr (c : Fin 8)
  /-- FENCE_SC (R245). Sequentially consistent fence at the encoded scope. -/
  | fenceSc (c : Fin 8)
  /-- FENCE_ACKS (R245). Waits until every write of the strand has been acknowledged. -/
  | fenceAcks (c : Fin 8)
  /-- WINIT (R253). Creates or updates a weir entry's expected arrivals and bytes. -/
  | winit (a : Fin 32) (b : Fin 32) (c : Fin 32)
  /-- WARR (R253). Returns the phase and adds arrivals to a weir, as a release. -/
  | warr (d : Fin 32) (a : Fin 32) (b : Fin 32)
  /-- WWAIT (R253). Waits until a weir has passed the given phase, then acquires. -/
  | wwait (a : Fin 32) (b : Fin 32)
  /-- WTEST (R253). Reports without waiting whether a weir has passed the given phase. -/
  | wtest (d : Fin 32) (a : Fin 32) (b : Fin 32)
  /-- CBAR (R255). Crew barrier over all live strands, acting as FENCE.AR at crew scope. -/
  | cbar
  /-- XSWAP (R256). Crew barrier that waits for the expected exchange bytes and swaps the front and shadow banks. -/
  | xswap (a : Fin 32)
  /-- WDROP (R253). Removes a weir entry. -/
  | wdrop (a : Fin 32)
  /-- FWAIT (R250). Waits for a future to resolve and delivers its result value. -/
  | fwait (d : Fin 32) (a : Fin 32)
  /-- FTEST (R250). Reports without waiting whether a future has resolved. -/
  | ftest (d : Fin 32) (a : Fin 32)
  /-- FCANCEL (R250). Requests cancellation of a future's operation. -/
  | fcancel (a : Fin 32)
  /-- TLREAD (R250). Reads a timeline or issue count chosen by a selector. -/
  | tlread (d : Fin 32) (a : Fin 32)
  /-- TLWAIT (R250). Waits until a timeline reaches a value, then acquires those operations. -/
  | tlwait (a : Fin 32) (b : Fin 32)
  /-- FJOIN (R250). Makes a join future that resolves when both source futures resolve. -/
  | fjoin (d : Fin 32) (a : Fin 32) (b : Fin 32)
  /-- CPY_G2A (R260). Copies global memory into the AB on the copy context. -/
  | cpyG2a (d : Fin 32) (a : Fin 32) (b : Fin 32) (c : Fin 32)
  /-- CPY_A2G (R260). Copies the AB into global memory. -/
  | cpyA2g (d : Fin 32) (a : Fin 32) (b : Fin 32) (c : Fin 32)
  /-- CPY_G2C (R260). Planifies global weight rows into cistern records. -/
  | cpyG2c (d : Fin 32) (a : Fin 32) (b : Fin 32) (c : Fin 32)
  /-- CPY_TCPY (R260). Copies global memory to global memory. -/
  | cpyTcpy (d : Fin 32) (a : Fin 32) (b : Fin 32) (c : Fin 32)
  /-- CPY_GATH (R260). Gathers indexed global rows into the AB. -/
  | cpyGath (d : Fin 32) (a : Fin 32) (b : Fin 32) (c : Fin 32)
  /-- CPY_C2G (R260). Writes cistern records back to global memory in G2C's source layout. -/
  | cpyC2g (d : Fin 32) (a : Fin 32) (b : Fin 32) (c : Fin 32)
  /-- MMA (R264). Puts a tile-by-cistern-records matrix product into an accumulator on the matrix context. -/
  | mma (f : FX)
  /-- AZERO (R267). Makes an accumulator plain with every element +0. -/
  | azero (k : Fin 4)
  /-- ACOMMIT (R270). Reads out an accumulator and commits it to its home tile by accumulate or replace. -/
  | acommit (d : Opnd) (k : Fin 4) (x : Fin 32)
  /-- ARANK (R268). Makes an accumulator ranked with list length L and index base. -/
  | arank (k : Fin 4) (x : Fin 32)
  /-- ARFOLD (R268). Offers every element of a plain accumulator to a ranked one. -/
  | arfold (j : Fin 4) (k : Fin 4)
  /-- AMOV (R269). Delivers accumulator elements of a row or column slice to weave threads. -/
  | amov (f : FAcc)
  /-- AMOVW (R269). Delivers four accumulator elements per weave thread into a V quad. -/
  | amovw (f : FAcc)
  /-- ATHR (R269). Delivers each row's ranked-list threshold. -/
  | athr (d : Opnd) (k : Fin 4)
  /-- ARREAD (R269). Delivers a ranked list's value and index at a rank. -/
  | arread (d : Opnd) (k : Fin 4) (x : Fin 32)
  /-- ALOAD (R271). Fills an accumulator from a home tile on the matrix context. -/
  | aload (d : Opnd) (k : Fin 4) (x : Fin 32)
  /-- TZERO (R261). Zeroes a tile's data and sets every scale byte to 0x7F. -/
  | tzero (k : Fin 16)
  /-- TLD (R262). Loads a whole tile and its scales from the AB. -/
  | tld (k : Fin 16) (x : Fin 32)
  /-- TST (R262). Stores a whole tile and its scales to the AB. -/
  | tst (k : Fin 16) (x : Fin 32)
  /-- TMOV (R263). Writes tile words of a row or column slice from each weave thread. -/
  | tmov (f : FTile)
  /-- TMOVW (R263). Writes four tile words per weave thread from a V quad. -/
  | tmovw (f : FTile)
  /-- TSCL (R263). Writes a tile row's side-band scale word from each weave thread. -/
  | tscl (d : Opnd) (k : Fin 16) (x : Fin 32) (n : Fin 16)
  /-- CLRUN (R272). Starts a collective command list on the domain's collective context. -/
  | clrun (d : Fin 32) (a : Fin 32) (b : Fin 32)
  /-- CLSIG (R272). Adds a value to a signal counter of the domain, as a release. -/
  | clsig (a : Fin 32) (b : Fin 32)
  /-- LAUNCH (R273). Pushes a launch record into the domain's DLQ and returns a future. -/
  | launch (d : Fin 32) (a : Fin 32)
  /-- LQTRY (R273). Returns the number of free DLQ entries. -/
  | lqtry (d : Fin 32)
  /-- ERET (R289). Restores the trap frame and returns to TEPC at level 0, replaying for TMASK if REPLAY is set. -/
  | eret
  /-- SPW (R290). Writes a privileged register from an S register, field by field. -/
  | spw (d : Fin 128) (a : Opnd)
  /-- SPRP (R290). Reads a privileged register into an S register. -/
  | sprp (d : Opnd) (a : Fin 128)
  /-- TERM (R291). Ends the strand, weave or crew, discarding its store-fault records. -/
  | term (d : Fin 128) (a : Fin 128)
  /-- TLBINV (R292). Invalidates a page's or the whole partition's translations on this device. -/
  | tlbinv (a : Opnd) (b : Opnd)
  /-- SFRQPOP (R293). Removes the strand's oldest store-fault record into an S pair. -/
  | sfrqpop (d : Opnd)
  /-- WSPILL (R294). Moves a weir entry to a memory record and marks its id spilled. -/
  | wspill (d : Opnd) (a : Opnd) (b : Opnd)
  /-- WFILL (R294). Reinstates a spilled weir entry from its record, adding the deltas. -/
  | wfill (d : Opnd) (a : Opnd)
  /-- END (R362). Collective command that resolves the list with DONE. -/
  | cEnd (k : Nat)
  /-- SEND (R362). Collective command that sends bytes to a member rank and credits its weir. -/
  | send (k : Nat)
  /-- RECV (R362). Collective command that fetches bytes from a member rank. -/
  | recv (k : Nat)
  /-- REDUCE (R363). Collective reduction of FP32 or BF16 elements over a group in a fixed tree. -/
  | reduce (k : Nat)
  /-- MCAST (R363). Collective multicast of the root's bytes to every member. -/
  | mcast (k : Nat)
  /-- WAITTL (R362). Collective command that waits until a timeline reaches a value. -/
  | waittl (k : Nat)
  /-- WAITWEIR (R362). Collective command that waits on a weir phase. -/
  | waitweir (k : Nat)
  /-- SIGNAL (R362). Collective command that adds to a signal counter. -/
  | signal (k : Nat)
  /-- COMPRESS (R365). Encodes elements into block-int8 or nested-4 groups with an optional residual. -/
  | compress (k : Nat)
  /-- DECOMPRESS (R365). Decodes compressed groups into elements, optionally accumulating. -/
  | decompress (k : Nat)
  /-- BARRIER (R362). Collective command that completes when every member reaches its matching BARRIER. -/
  | barrier (k : Nat)
  /-- ISSUE_PERIOD (R25). At each 8-cycle issue period each weave chooses a ready sub-gang and issues it on free slices. -/
  | issuePeriod
  /-- RESULT_AVAILABLE (R194). A long-latency result arrives and makes waiting strands ready. -/
  | resultAvailable (u : Nat) (k : Nat)
  /-- YIELD_EXPIRY (R183). After 4 issue periods a yielded strand becomes ready again. -/
  | yieldExpiry (u : Nat) (k : Nat)
  /-- WAIT_DEADLINE (R184). LTIME reaches a waiting strand's deadline and the strand becomes ready. -/
  | waitDeadline (u : Nat) (k : Nat)
  /-- LOAD_AT_HOME (R96). A load request reaches its home slice and is served, with a lease or behind a waiting write. -/
  | loadAtHome (k : Nat)
  /-- WRITE_AT_HOME (R95). A write reaches its home slice and performs or waits for the line's lease. -/
  | writeAtHome (k : Nat)
  /-- ATOMIC_AT_HOME (R235). An atomic reaches its home slice's atomic ALU and performs or waits for the lease. -/
  | atomicAtHome (k : Nat)
  /-- LEASE_EXPIRY (R95). LTIME reaches a line's expiry; waiting writes perform and L1 stops serving the line. -/
  | leaseExpiry (k : Nat)
  /-- LOAD_REPLY (R232). A load or atomic reply arrives at the core and writes the destination. -/
  | loadReply (k : Nat)
  /-- ACKNOWLEDGEMENT (R127). A write's acknowledgement returns and decrements the strand's unacknowledged count. -/
  | acknowledgement (k : Nat)
  /-- PUT_AT_DESCRIPTOR (R241). A put reaches the descriptor's device and is admitted, refused, dropped or faulted. -/
  | putAtDescriptor (k : Nat)
  /-- STX_AT_TARGET (R102). An exchange store is written into the target crew's shadow bank and counted on its exchange weir. -/
  | stxAtTarget (k : Nat)
  /-- SEGMENT_ARRIVAL (R21). A commit segment reaches the merge unit and is held until all segments are present. -/
  | segmentArrival (k : Nat) (seg : Nat)
  /-- COPY_COMPLETION (R260). A copy's writes have performed; it credits its weir and resolves. -/
  | copyCompletion (k : Nat) (unit : Nat)
  /-- MMA_COMPLETION (R265). An MMA finishes on the array, sets flags and counters and resolves. -/
  | mmaCompletion (k : Nat)
  /-- ACOMMIT_COMPLETION (R270). Every segment of a commit has been applied and its future resolves. -/
  | acommitCompletion (k : Nat)
  /-- ALOAD_COMPLETION (R271). An accumulator is filled from its home tile and the future resolves. -/
  | aloadCompletion (k : Nat)
  /-- TRAP_ENTRY (R301). Writes the trap registers and frame, sets level 1 and continues at TVEC. -/
  | trapEntry (u : Nat) (k : Nat)
  /-- CREW_RETIRE (R40). After the last EXIT's waits the core releases the crew's resources. -/
  | crewRetire (k : Nat)
  /-- CREW_PLACEMENT (R329). Dispatch places the next crew under the first eligible valid slot of a core with free resources. -/
  | crewPlacement (k : Nat)
  /-- PREEMPTION_REQUEST (R312). Firmware requests pre-emption; the named strands stop issuing and reach a stable point. -/
  | preemptionRequest (k : Nat)
  /-- CREW_SAVE (R312). A crew's state is written to its save area and its core resources released. -/
  | crewSave (k : Nat)
  /-- CREW_RESTORE (R313). A pre-empted crew's state is read back on a fitting core before any strand issues. -/
  | crewRestore (k : Nat)
  /-- CHIPLET_RESET (R315). A chiplet's ports close, its resident crews are lost and their operations resolve LOST. -/
  | chipletReset (k : Nat)
  /-- HOST_QUEUE_ACCEPT (R323). The firmware copies a host-queue record and increments GET. -/
  | hostQueueAccept (k : Nat)
  /-- DLQ_TAKE (R324). The firmware takes and validates a DLQ record, assigning a launch id and weir group. -/
  | dlqTake (k : Nat)
  /-- STEAL_REQUEST (R326). A distributor with room and no crew to supply sends a steal message. -/
  | stealRequest (dom : Nat) (l : Nat)
  /-- STEAL_REQUEST_ARRIVAL (R326). The other distributor answers with its highest untouched chunk or none. -/
  | stealRequestArrival (k : Nat)
  /-- STEAL_ANSWER_ARRIVAL (R326). The stealing distributor takes the given chunk or records none. -/
  | stealAnswerArrival (k : Nat)
  /-- CHIPCTL_FENCE (R348). Writing FENCE := 1 resets the chiplet and takes it out of service. -/
  | chipctlFence (k : Nat)
  /-- CHIPCTL_UNFENCE (R348). Writing FENCE := 0 clears the chiplet's state and returns it to service. -/
  | chipctlUnfence (k : Nat)
  /-- MMIO_WRITE (R297). An aligned 8-byte MMIO store to a register without behaviour of its own. -/
  | mmioWrite (k : Nat)
  /-- ERRCNT_CLEAR (R376). Writing 1 to any bit of a count field clears that whole field. -/
  | errcntClear (k : Nat)
  /-- PAIR_MODE_WRITE (R91). The firmware changes an HBM pair's mode, zeroing the whole pair. -/
  | pairModeWrite (k : Nat)
  /-- REPORT_REQUEST (R386). A mailbox request with a nonce returns a signed attestation report. -/
  | reportRequest (k : Nat)
  /-- HOST_ACCESS (R130). A host CXL.mem access performs at its line's home slice. -/
  | hostAccess (k : Nat)
  /-- PAGE_WALK (R337). A shared-TLB miss walks the page tables and installs a translation or faults. -/
  | pageWalk (k : Nat)
  /-- PUMP_EVALUATION (R343). Every 4,096 ticks each enabled pump chooses a promotion and victim. -/
  | pumpEvaluation
  /-- PAGE_MOVE_COPY (R344). After earlier accesses perform, copies the page, rewrites the leaf and the list. -/
  | pageMoveCopy (k : Nat)
  /-- RE_DECAY (R343). Every 2^20 ticks the pump halves RE of each page entry. -/
  | reDecay
  /-- PACKET_ARRIVAL (R355). A packet reaches a switch and is forwarded, replicated, combined or delivered. -/
  | packetArrival (k : Nat)
  /-- COLLECTIVE_FAILURE_NOTICE (R363). A failing member informs the others and the operation resolves with its status. -/
  | collectiveFailureNotice (k : Nat)
  /-- PACKET_RETURN (R389). A packet that cannot go on returns to its source, which chooses again. -/
  | packetReturn (k : Nat)
  /-- REACH_TIMEOUT (R352). A request held at its source past the reach timeout fails. -/
  | reachTimeout (k : Nat)
  /-- ORDERED_FLAG_QUERY (R356). The other domain's switch is asked for its counters of a strand and destination. -/
  | orderedFlagQuery (k : Nat)
  /-- ORDERED_FLAG_ANSWER (R356). The answer that the other switch's counters are zero lets the flag leave. -/
  | orderedFlagAnswer (k : Nat)
  /-- DEMAND (R357). A bulk source's demand message reaches the receiver. -/
  | demand (k : Nat)
  /-- GRANT_ISSUE (R357). Each 256 base cycles a receiver issues up to PACE grants round-robin. -/
  | grantIssue
  /-- GRANT_ARRIVAL (R357). A 4 KiB grant reaches the source, which sends that data. -/
  | grantArrival (k : Nat)
  /-- LINK_REPLAY (R353). A CRC error on a UALink port makes the data-link layer replay the packet. -/
  | linkReplay (k : Nat)
  /-- LINK_DOWN (R389). A link goes down and packets that cannot be forwarded are returned. -/
  | linkDown (k : Nat)
  /-- BRIDGE_RETRAIN (R370). A CRC error or loss of lock retrains the bridge and resends unacknowledged packets. -/
  | bridgeRetrain
  /-- ELASTIC_TIMEOUT (R366). A member's elastic timeout expires and it is dropped from the generation. -/
  | elasticTimeout (k : Nat)
  /-- KEY_EXCHANGE (R368). A signed ephemeral key message is checked and session keys derived. -/
  | keyExchange (k : Nat)
  /-- REKEY (R369). A session's packet counter nears 2^31 and a new exchange replaces the keys. -/
  | rekey (k : Nat)
  /-- SLICE_GATE (R378). A slice with no live strand for 64 core cycles is clock-gated. -/
  | sliceGate (core : Nat) (slice : Nat)
  /-- ARRAY_GATE (R378). A matrix array idle for 256 core cycles is clock-gated. -/
  | arrayGate (k : Nat)
  /-- CISTERN_RETENTION (R378). A cistern bank idle for 4,096 core cycles enters retention. -/
  | cisternRetention (k : Nat)
  /-- ROUTER_PORT_DOWN (R379). A router port with no flit for 8,192 base cycles powers down. -/
  | routerPortDown (k : Nat)
  /-- WAKE_SIGNAL (R379). A wake signal powers a router port back up. -/
  | wakeSignal (k : Nat)
  /-- LINK_LOW_POWER (R378). A UALink or Ethernet port idle for 2^20 base cycles enters its low-power state. -/
  | linkLowPower (k : Nat)
  /-- SELF_REFRESH (R378). An HBM pseudo-channel idle for 2^16 base cycles enters self-refresh. -/
  | selfRefresh (k : Nat)
  /-- BUDGET_WINDOW (R380). Each 1,024 base cycles a block throttles itself by its estimated energy excess. -/
  | budgetWindow
  /-- THERMAL_THROTTLE (R381). A chiplet sensor at 105 deg C halves its slices' issue. -/
  | thermalThrottle (k : Nat)
  /-- THERMAL_TRIP (R381). A chiplet sensor at 120 deg C sets ERR and resets and fences the chiplet. -/
  | thermalTrip (k : Nat)
  /-- SCRUB (R376). Memory controllers read every line once per 2^30 ticks and write back corrections. -/
  | scrub
  /-- UNCORRECTABLE_ERROR (R374). An uncorrectable error poisons a line, resets a chiplet or discards a packet. -/
  | uncorrectableError (k : Nat)
  /-- POWER_ON (R382). The boot ROM checks the signed firmware image and brings up the device. -/
  | powerOn
  /-- CXL_PORT_DOWN (R388). A CXL port going down loses host accesses in flight and stops queue acceptance. -/
  | cxlPortDown (k : Nat)
  /-- TLD_TST_AB_CYCLES_DONE (R262). A TLD or TST finishes its 34 AB cycles, completing the tile or AB write and releasing the interlocks of R266. -/
  | tldTstAbCyclesDone (u : Nat) (k : Nat)
  /-- ARFOLD_DONE (R268). An ARFOLD finishes its 256 core cycles and later ACC instructions on Ak may proceed. -/
  | arfoldDone (u : Nat) (k : Nat)
  /-- READ_OUT_DONE (R270). An ACOMMIT's read-out of Ak into the commit buffer ends, releasing Ak for AZERO, ARANK, ARFOLD, AMOV and AMOVW. -/
  | readOutDone (k : Nat)
  /-- LINK_UP (R389). A UALink port or optical circuit comes back up after retraining or reconfiguration, so held and returned packets can be forwarded again. -/
  | linkUp (k : Nat)
  /-- CXL_PORT_RETRAINED (R388). A CXL port that went down finishes retraining, and its host queues accept records again. -/
  | cxlPortRetrained (k : Nat)
  /-- BRIDGE_RETRAIN_DONE (R370). The domain bridge regains lock at the end of a retrain, and the ingress side resends every unacknowledged packet in order. -/
  | bridgeRetrainDone
  /-- THERMAL_THROTTLE_END (R381). Every temperature sensor of a throttled chiplet falls below 105 deg C, and its slices issue in every period again. -/
  | thermalThrottleEnd (k : Nat)
  /-- RETRANSMISSION_TIMEOUT (R367). The Ultra Ethernet transport resends a lost or rejected packet of a session. -/
  | retransmissionTimeout (k : Nat)
  deriving DecidableEq, Repr

end Sys2Proof
end

