-- ==== Sys2Proof/WellFormed.lean ====
section
/-! DEFINITION. Well-formed instructions: the checks of R156 that remain once the fields are typed. A step that no word
encodes is well formed but encodes nothing. -/

namespace Sys2Proof

/-- N = 1 needs D = 0 (R143). -/
def latchForm (n : Bool) (d : Opnd) : Bool := !n || decide (d = .v 0)

/-- A half-word index of 2 or 3 exists only for an S destination of MOVH; an L or reserved destination is left to the operand
check of R157 step 3 (R223). -/
def movhForm (d : Opnd) (j : Fin 4) : Bool :=
  match d with
  | .v _ => decide (j.val ≤ 1)
  | .o _ => decide (j.val ≤ 1)
  | _ => true

/-- The instruction is one that a word can hold (R141, R143, R147, R155, R156). -/
def Instr.wellFormed (i : Instr) : Bool :=
  match i with
  | .nop => true
  | .spr _ _ => true
  | .brk _ => true
  | .trap _ => true
  | .tfence => true
  | .drain => true
  | .yield => true
  | .seed _ => true
  | .clock _ => true
  | .exit => true
  | .wait _ => true
  | .modeGp _ _ => true
  | .modeEt _ => true
  | .modeRm _ => true
  | .modeSatfz _ _ => true
  | .modeScope _ => true
  | .modeTe _ => true
  | .modeDh _ => true
  | .modeAll _ => true
  | .br _ _ _ => true
  | .brn _ _ _ => true
  | .bru _ _ _ => true
  | .jmp _ => true
  | .call _ => true
  | .loop len _ => decide (len.val ≠ 0)
  | .ret => true
  | .jr _ => true
  | .callr _ => true
  | .join => true
  | .wconv => true
  | .lbrk => true
  | .add f => latchForm f.n f.d
  | .sub f => latchForm f.n f.d
  | .mul f => latchForm f.n f.d
  | .mulhi f => latchForm f.n f.d
  | .mad _ => true
  | .div f => latchForm f.n f.d
  | .rem f => latchForm f.n f.d
  | .min f => latchForm f.n f.d
  | .max f => latchForm f.n f.d
  | .abs f => latchForm f.n f.d
  | .neg f => latchForm f.n f.d
  | .dot4 _ => true
  | .dot2 _ => true
  | .avg f => latchForm f.n f.d
  | .and f => latchForm f.n f.d
  | .or f => latchForm f.n f.d
  | .xor f => latchForm f.n f.d
  | .andn f => latchForm f.n f.d
  | .not f => latchForm f.n f.d
  | .shl f => latchForm f.n f.d
  | .shr f => latchForm f.n f.d
  | .sar f => latchForm f.n f.d
  | .rol f => latchForm f.n f.d
  | .popc f => latchForm f.n f.d
  | .clz f => latchForm f.n f.d
  | .brev f => latchForm f.n f.d
  | .bfx f => latchForm f.n f.d
  | .bfi _ => true
  | .crc _ => true
  | .icmpEq _ => true
  | .icmpNe _ => true
  | .icmpLt _ => true
  | .icmpLe _ => true
  | .icmpGt _ => true
  | .icmpGe _ => true
  | .icmpTst _ => true
  | .fadd f => latchForm f.n f.d
  | .fsub f => latchForm f.n f.d
  | .fmul f => latchForm f.n f.d
  | .fma _ => true
  | .fms _ => true
  | .fmin f => latchForm f.n f.d
  | .fmax f => latchForm f.n f.d
  | .fabs f => latchForm f.n f.d
  | .fneg f => latchForm f.n f.d
  | .frcp f => latchForm f.n f.d
  | .frsq f => latchForm f.n f.d
  | .fsqrt f => latchForm f.n f.d
  | .fdiv f => latchForm f.n f.d
  | .fex2 f => latchForm f.n f.d
  | .flg2 f => latchForm f.n f.d
  | .fscl f => latchForm f.n f.d
  | .fcmpEq _ => true
  | .fcmpNe _ => true
  | .fcmpLt _ => true
  | .fcmpLe _ => true
  | .fcmpGt _ => true
  | .fcmpGe _ => true
  | .fcmpUn _ => true
  | .cvt f => latchForm f.n f.d && decide (f.e.val ≤ 8)
  | .qnt f => latchForm f.n f.d
  | .dqnt f => latchForm f.n f.d
  | .pack f => latchForm f.n f.d && decide (f.e.val ≤ 8)
  | .unpk f => latchForm f.n f.d && decide (f.e.val ≤ 8)
  | .nest f => latchForm f.n f.d
  | .mov f => latchForm f.n f.d
  | .shfi f => latchForm f.n f.d
  | .shup f => latchForm f.n f.d
  | .shdn f => latchForm f.n f.d
  | .shxr f => latchForm f.n f.d
  | .rds f => latchForm f.n f.d
  | .rdmin f => latchForm f.n f.d
  | .rdmax f => latchForm f.n f.d
  | .scan f => latchForm f.n f.d
  | .ballot _ _ => true
  | .any _ _ => true
  | .all _ _ => true
  | .wrds _ _ => true
  | .pand _ _ _ => true
  | .por _ _ _ => true
  | .pxor _ _ _ => true
  | .pnot _ _ => true
  | .p2s _ _ => true
  | .s2p _ _ => true
  | .sel _ f => latchForm f.n f.d
  | .addi f => latchForm f.n f.d
  | .movi n d _ => latchForm n d
  | .movh d j _ => movhForm d j
  | .uadd _ _ _ => true
  | .usub _ _ _ => true
  | .umul _ _ _ => true
  | .umulhi _ _ _ => true
  | .uand _ _ _ => true
  | .uor _ _ _ => true
  | .uxor _ _ _ => true
  | .ushl _ _ _ => true
  | .ushr _ _ _ => true
  | .usar _ _ _ => true
  | .umin _ _ _ => true
  | .umax _ _ _ => true
  | .ucmplt _ _ _ => true
  | .ucmpeq _ _ _ => true
  | .ucmpltn _ _ _ => true
  | .uaddi _ _ _ => true
  | .ishiShl f => latchForm f.n f.d
  | .ishiShr f => latchForm f.n f.d
  | .ishiSar f => latchForm f.n f.d
  | .ishiRol f => latchForm f.n f.d
  | .andi f => latchForm f.n f.d
  | .ld f => decide (f.z.val ≤ 6) && decide (f.o.val ≠ 2)
  | .st f => decide (f.z.val ≤ 4) && decide (f.o.val ≠ 1)
  | .stp f => decide (f.z.val ≤ 4) && decide (f.o.val ≠ 1)
  | .atomAdd _ => true
  | .atomMin _ => true
  | .atomMax _ => true
  | .atomMinu _ => true
  | .atomMaxu _ => true
  | .atomAnd _ => true
  | .atomOr _ => true
  | .atomXor _ => true
  | .atomXchg _ => true
  | .atomCas _ => true
  | .atomIncb _ => true
  | .atomFadd _ => true
  | .atomFaddbf _ => true
  | .atomFmax _ => true
  | .atomDecz _ => true
  | .atomwAdd _ => true
  | .atomwMin _ => true
  | .atomwMax _ => true
  | .atomwXchg _ => true
  | .atomwCas _ => true
  | .atomwCas128 _ => true
  | .atomwMaxp _ => true
  | .atomwIncb _ => true
  | .lda f => decide (f.z.val ≤ 6) && decide (f.o.val ≠ 2)
  | .sta f => decide (f.z.val ≤ 4) && decide (f.o.val ≠ 1)
  | .atomaAdd _ => true
  | .atomaMin _ => true
  | .atomaMax _ => true
  | .atomaAnd _ => true
  | .atomaOr _ => true
  | .atomaXor _ => true
  | .atomaXchg _ => true
  | .atomaCas _ => true
  | .atomaIncb _ => true
  | .atomaFadd _ => true
  | .atomaMaxp _ => true
  | .stx f => decide (f.z.val ≤ 4) && decide (f.o.val ≠ 1)
  | .puta f _ => decide (f.z.val ≤ 4) && decide (f.o.val ≠ 1)
  | .mst f => decide (f.z.val ≤ 4) && decide (f.o.val ≠ 1)
  | .pref _ _ => true
  | .phint _ _ _ => true
  | .ldrop _ _ => true
  | .fenceAcq c => decide (c.val ≠ 7)
  | .fenceRel c => decide (c.val ≠ 7)
  | .fenceAr c => decide (c.val ≠ 7)
  | .fenceSc c => decide (c.val ≠ 7)
  | .fenceAcks c => decide (c.val ≠ 7)
  | .winit _ _ _ => true
  | .warr _ _ _ => true
  | .wwait _ _ => true
  | .wtest _ _ _ => true
  | .cbar => true
  | .xswap _ => true
  | .wdrop _ => true
  | .fwait _ _ => true
  | .ftest _ _ => true
  | .fcancel _ => true
  | .tlread _ _ => true
  | .tlwait _ _ => true
  | .fjoin _ _ _ => true
  | .cpyG2a _ _ _ _ => true
  | .cpyA2g _ _ _ _ => true
  | .cpyG2c _ _ _ _ => true
  | .cpyTcpy _ _ _ _ => true
  | .cpyGath _ _ _ _ => true
  | .cpyC2g _ _ _ _ => true
  | .mma _ => true
  | .azero _ => true
  | .acommit _ _ _ => true
  | .arank _ _ => true
  | .arfold _ _ => true
  | .amov _ => true
  | .amovw _ => true
  | .athr _ _ => true
  | .arread _ _ _ => true
  | .aload _ _ _ => true
  | .tzero _ => true
  | .tld _ _ => true
  | .tst _ _ => true
  | .tmov _ => true
  | .tmovw _ => true
  | .tscl _ _ _ _ => true
  | .clrun _ _ _ => true
  | .clsig _ _ => true
  | .launch _ _ => true
  | .lqtry _ => true
  | .eret => true
  | .spw _ _ => true
  | .sprp _ _ => true
  | .term d _ => decide (d.val ≤ 2)
  | .tlbinv _ _ => true
  | .sfrqpop _ => true
  | .wspill _ _ _ => true
  | .wfill _ _ => true
  | .cEnd _ => true
  | .send _ => true
  | .recv _ => true
  | .reduce _ => true
  | .mcast _ => true
  | .waittl _ => true
  | .waitweir _ => true
  | .signal _ => true
  | .compress _ => true
  | .decompress _ => true
  | .barrier _ => true
  | .issuePeriod => true
  | .resultAvailable _ _ => true
  | .yieldExpiry _ _ => true
  | .waitDeadline _ _ => true
  | .loadAtHome _ => true
  | .writeAtHome _ => true
  | .atomicAtHome _ => true
  | .leaseExpiry _ => true
  | .loadReply _ => true
  | .acknowledgement _ => true
  | .putAtDescriptor _ => true
  | .stxAtTarget _ => true
  | .segmentArrival _ _ => true
  | .copyCompletion _ _ => true
  | .mmaCompletion _ => true
  | .acommitCompletion _ => true
  | .aloadCompletion _ => true
  | .trapEntry _ _ => true
  | .crewRetire _ => true
  | .crewPlacement _ => true
  | .preemptionRequest _ => true
  | .crewSave _ => true
  | .crewRestore _ => true
  | .chipletReset _ => true
  | .hostQueueAccept _ => true
  | .dlqTake _ => true
  | .stealRequest _ _ => true
  | .stealRequestArrival _ => true
  | .stealAnswerArrival _ => true
  | .chipctlFence _ => true
  | .chipctlUnfence _ => true
  | .mmioWrite _ => true
  | .errcntClear _ => true
  | .pairModeWrite _ => true
  | .reportRequest _ => true
  | .hostAccess _ => true
  | .pageWalk _ => true
  | .pumpEvaluation => true
  | .pageMoveCopy _ => true
  | .reDecay => true
  | .packetArrival _ => true
  | .collectiveFailureNotice _ => true
  | .packetReturn _ => true
  | .reachTimeout _ => true
  | .orderedFlagQuery _ => true
  | .orderedFlagAnswer _ => true
  | .demand _ => true
  | .grantIssue => true
  | .grantArrival _ => true
  | .linkReplay _ => true
  | .linkDown _ => true
  | .bridgeRetrain => true
  | .elasticTimeout _ => true
  | .keyExchange _ => true
  | .rekey _ => true
  | .sliceGate _ _ => true
  | .arrayGate _ => true
  | .cisternRetention _ => true
  | .routerPortDown _ => true
  | .wakeSignal _ => true
  | .linkLowPower _ => true
  | .selfRefresh _ => true
  | .budgetWindow => true
  | .thermalThrottle _ => true
  | .thermalTrip _ => true
  | .scrub => true
  | .uncorrectableError _ => true
  | .powerOn => true
  | .cxlPortDown _ => true
  | .tldTstAbCyclesDone _ _ => true
  | .arfoldDone _ _ => true
  | .readOutDone _ => true
  | .linkUp _ => true
  | .cxlPortRetrained _ => true
  | .bridgeRetrainDone => true
  | .thermalThrottleEnd _ => true
  | .retransmissionTimeout _ => true

end Sys2Proof
end

