-- ==== Sys2Proof/Decode.lean ====
section
/-! DEFINITION. The decoder, total on every 32-bit word and rejecting by name, and the encoder, both written from the formats
of R142 and the function values of R154. Fields are read and placed by exact arithmetic on the word's number. -/

namespace Sys2Proof

/-- Why a word is not an instruction; each raises ILLEGAL_INSTRUCTION (R156). -/
inductive DecodeError where
  /-- A reserved major opcode (R153). -/
  | reservedMajor
  /-- A function value that R154 does not assign. -/
  | unassignedFunction
  /-- A nonzero reserved or unused field (R143, R148, R150, R155). -/
  | reservedField
  /-- N = 1 with D nonzero, or where R143 forbids it. -/
  | latchForm
  /-- An order code that R120 marks reserved. -/
  | reservedOrder
  /-- A reserved value of an encoded field: a size, hint, scope, length, element type or half-word index. -/
  | reservedValue
  deriving DecidableEq, Repr

/-- The result of decoding. -/
abbrev Dec := Except DecodeError Instr

/-- The field of `k` values that begins at bit `lo` of the word `w` (R5). -/
def fld (w lo k : Nat) [NeZero k] : Fin k := Fin.ofNat k (w / 2 ^ lo)

/-- One bit of the word. -/
def flag (w lo : Nat) : Bool := w / 2 ^ lo % 2 == 1

/-- The number of `n` bits that begins at bit `lo`. -/
def bits (w lo n : Nat) : Nat := w / 2 ^ lo % 2 ^ n

/-- The register that a 7-bit operand value names (R46). -/
def Opnd.ofCode (c : Nat) : Opnd :=
  if c < 64 then .v (Fin.ofNat 64 c)
  else if c < 72 then .o (Fin.ofNat 8 (c - 64))
  else if c < 76 then .l (Fin.ofNat 4 (c - 72))
  else if c < 96 then .rsv (Fin.ofNat 20 (c - 76))
  else .s (Fin.ofNat 32 (c - 96))

/-- The 7-bit operand value of a register (R46). -/
def Opnd.code : Opnd → Nat
  | .v n => n.val
  | .o n => 64 + n.val
  | .l n => 72 + n.val
  | .rsv n => 76 + n.val
  | .s n => 96 + n.val

/-- The register number of an operand. -/
def Opnd.num : Opnd → Nat
  | .v n => n.val
  | .o n => n.val
  | .l n => n.val
  | .s n => n.val
  | .rsv _ => 0

/-- The S register that an operand names. -/
def Opnd.sNum : Opnd → Option Nat
  | .s n => some n.val
  | _ => none

/-- The operand field that begins at bit `lo`. -/
def opnd (w lo : Nat) : Opnd := Opnd.ofCode (bits w lo 7)

/-- The instruction, or the reason it is refused. -/
def need (c : Bool) (e : DecodeError) (r : Dec) : Dec := if c then r else .error e

/-- N, D, A and B of format F-R at their places (R142). -/
def decR3 (w : Nat) (c : FR3 → Instr) : Dec :=
  need (latchForm (flag w 25) (opnd w 18)) .latchForm (.ok (c ⟨flag w 25, opnd w 18, opnd w 11, opnd w 4⟩))

/-- Format F-R with B unused. -/
def decR2 (w : Nat) (c : FR2 → Instr) : Dec :=
  need (bits w 4 7 == 0) .reservedField
    (need (latchForm (flag w 25) (opnd w 18)) .latchForm (.ok (c ⟨flag w 25, opnd w 18, opnd w 11⟩)))

/-- Format F-R without N whose D is read as well. -/
def decRA (w : Nat) (c : FRA → Instr) : Dec :=
  need (!flag w 25) .latchForm (.ok (c ⟨opnd w 18, opnd w 11, opnd w 4⟩))

/-- Format F-R of a comparison: D is a predicate number. -/
def decCmp (w : Nat) (c : FCmp → Instr) : Dec :=
  need (!flag w 25) .latchForm (need (bits w 21 4 == 0) .reservedField (.ok (c ⟨fld w 18 8, opnd w 11, opnd w 4⟩)))

/-- Format F-R of CVT, PACK and UNPK: B is an element type 0..8. -/
def decCvt (w : Nat) (c : FCvt → Instr) : Dec :=
  need (bits w 8 3 == 0) .reservedField
    (need (latchForm (flag w 25) (opnd w 18)) .latchForm
      (need (decide ((fld w 4 16).val ≤ 8)) .reservedValue (.ok (c ⟨flag w 25, opnd w 18, opnd w 11, fld w 4 16⟩))))

/-- Format F-R of QNT, DQNT and NEST: B is a slot number. -/
def decSlot (w : Nat) (c : FSlot → Instr) : Dec :=
  need (bits w 7 4 == 0) .reservedField
    (need (latchForm (flag w 25) (opnd w 18)) .latchForm (.ok (c ⟨flag w 25, opnd w 18, opnd w 11, fld w 4 8⟩)))

/-- Format F-I of ADDI and ANDI. -/
def decImm (w : Nat) (c : FImm → Instr) : Dec :=
  need (latchForm (flag w 25) (opnd w 18)) .latchForm
    (.ok (c ⟨flag w 25, opnd w 18, opnd w 11, BitVec.ofNat 11 (bits w 0 11)⟩))

/-- Format F-I of ISHI, after its operation was read. -/
def decShi (w : Nat) (c : FShi → Instr) : Dec :=
  need (latchForm (flag w 25) (opnd w 18)) .latchForm (.ok (c ⟨flag w 25, opnd w 18, opnd w 11, fld w 0 32⟩))

/-- Loads: size 0..6, orders 0, 1, 3 (R120, R147). -/
def decLoad (w : Nat) (i : Instr) : Dec :=
  need (decide ((fld w 4 8).val ≤ 6)) .reservedValue (need (decide ((fld w 2 4).val ≠ 2)) .reservedOrder (.ok i))

/-- Stores: size 0..4, orders 0, 2, 3 (R120, R147). -/
def decStore (w : Nat) (i : Instr) : Dec :=
  need (decide ((fld w 4 8).val ≤ 4)) .reservedValue (need (decide ((fld w 2 4).val ≠ 1)) .reservedOrder (.ok i))

/-- Format F-M with all its fields. -/
def fM (w : Nat) : FM := ⟨opnd w 19, fld w 14 32, opnd w 7, fld w 4 8, fld w 2 4, fld w 0 4⟩

/-- Format F-M whose hint field is not used. -/
def fMz (w : Nat) : FMz := ⟨opnd w 19, fld w 14 32, opnd w 7, fld w 4 8, fld w 2 4⟩

/-- Format F-MA of ATOM and ATOMW. -/
def decMA (w : Nat) (c : FMA → Instr) : Dec := .ok (c ⟨opnd w 19, fld w 14 32, opnd w 7, fld w 1 4, flag w 0⟩)

/-- Format F-MA of ATOMA: Q is 0 (R146). -/
def decMo (w : Nat) (c : FMo → Instr) : Dec :=
  need (!flag w 0) .reservedField (.ok (c ⟨opnd w 19, fld w 14 32, opnd w 7, fld w 1 4⟩))

/-- Format F-E with its register fields; a register field that is not used must be zero (R148). -/
def decE (w : Nat) (ud ua ub uc : Bool) (c : Fin 32 → Fin 32 → Fin 32 → Fin 32 → Instr) : Dec :=
  need ((ud || bits w 21 5 == 0) && (ua || bits w 16 5 == 0) && (ub || bits w 11 5 == 0) && (uc || bits w 6 5 == 0))
    .reservedField (.ok (c (fld w 21 32) (fld w 16 32) (fld w 11 32) (fld w 6 32)))

/-- The unused fields of format F-R: N, and D, A or B where the function does not use them (R143, R155). -/
def decU (w : Nat) (ud ua ub : Bool) (i : Instr) : Dec :=
  need (!flag w 25) .latchForm
    (need ((ud || bits w 18 7 == 0) && (ua || bits w 11 7 == 0) && (ub || bits w 4 7 == 0)) .reservedField (.ok i))

/-- The unused fields of format F-T: bit 25, D, Aj, RC, S index and imm4 (R150). -/
def decT (w : Nat) (ud uj urc ux un : Bool) (i : Instr) : Dec :=
  need (!flag w 25 && (ud || bits w 18 7 == 0) && (uj || bits w 16 2 == 0) && (urc || !flag w 13) && (ux || bits w 8 5 == 0) &&
    (un || bits w 4 4 == 0)) .reservedField (.ok i)

/-- SYS (R154, R178). -/
def decSys (w : Nat) : Dec :=
  match w % 16 with
  | 0 => decU w false false false .nop
  | 1 => decU w true true false (.spr (opnd w 18) (fld w 11 128))
  | 2 => decU w false true false (.brk (fld w 11 128))
  | 3 => decU w false true false (.trap (fld w 11 128))
  | 4 => decU w false false false .tfence
  | 5 => decU w false false false .drain
  | 6 => decU w false false false .yield
  | 7 => decU w false true false (.seed (opnd w 11))
  | 8 => decU w true false false (.clock (opnd w 18))
  | 9 => decU w false false false .exit
  | 10 => decU w false true false (.wait (opnd w 11))
  | _ => .error .unassignedFunction

/-- MODE (R151): the value bits outside those of the selector are zero. -/
def decMode (w : Nat) : Dec :=
  match bits w 23 3 with
  | 0 => need (bits w 4 19 == 0) .reservedField (.ok (.modeGp (flag w 3) (fld w 0 8)))
  | 1 => need (bits w 4 19 == 0) .reservedField (.ok (.modeEt (fld w 0 16)))
  | 2 => need (bits w 3 20 == 0) .reservedField (.ok (.modeRm (fld w 0 8)))
  | 3 => need (bits w 2 21 == 0) .reservedField (.ok (.modeSatfz (flag w 1) (flag w 0)))
  | 4 => need (bits w 3 20 == 0) .reservedField (.ok (.modeScope (fld w 0 8)))
  | 5 => need (bits w 4 19 == 0) .reservedField (.ok (.modeTe (fld w 0 16)))
  | 6 => need (bits w 2 21 == 0) .reservedField (.ok (.modeDh (fld w 0 4)))
  | _ => need (bits w 5 18 == 0) .reservedField (.ok (.modeAll (fld w 0 32)))

/-- CTL (R154, R190). -/
def decCtl (w : Nat) : Dec :=
  match w % 16 with
  | 0 => decU w false false false .ret
  | 1 => decU w false true false (.jr (opnd w 11))
  | 2 => decU w false true false (.callr (opnd w 11))
  | 3 => decU w false false false .join
  | 4 => decU w false false false .wconv
  | 5 => decU w false false false .lbrk
  | _ => .error .unassignedFunction

/-- IALU (R154). -/
def decIalu (w : Nat) : Dec :=
  match w % 16 with
  | 0 => decR3 w .add
  | 1 => decR3 w .sub
  | 2 => decR3 w .mul
  | 3 => decR3 w .mulhi
  | 4 => decRA w .mad
  | 5 => decR3 w .div
  | 6 => decR3 w .rem
  | 7 => decR3 w .min
  | 8 => decR3 w .max
  | 9 => decR2 w .abs
  | 10 => decR2 w .neg
  | 11 => decRA w .dot4
  | 12 => decRA w .dot2
  | 13 => decR3 w .avg
  | _ => .error .unassignedFunction

/-- ILOG (R154). -/
def decIlog (w : Nat) : Dec :=
  match w % 16 with
  | 0 => decR3 w .and
  | 1 => decR3 w .or
  | 2 => decR3 w .xor
  | 3 => decR3 w .andn
  | 4 => decR2 w .not
  | 5 => decR3 w .shl
  | 6 => decR3 w .shr
  | 7 => decR3 w .sar
  | 8 => decR3 w .rol
  | 9 => decR2 w .popc
  | 10 => decR2 w .clz
  | 11 => decR2 w .brev
  | 12 => decR3 w .bfx
  | 13 => decRA w .bfi
  | 14 => decRA w .crc
  | _ => .error .unassignedFunction

/-- ICMP (R154). -/
def decIcmp (w : Nat) : Dec :=
  match w % 16 with
  | 0 => decCmp w .icmpEq
  | 1 => decCmp w .icmpNe
  | 2 => decCmp w .icmpLt
  | 3 => decCmp w .icmpLe
  | 4 => decCmp w .icmpGt
  | 5 => decCmp w .icmpGe
  | 6 => decCmp w .icmpTst
  | _ => .error .unassignedFunction

/-- FALU (R154). -/
def decFalu (w : Nat) : Dec :=
  match w % 16 with
  | 0 => decR3 w .fadd
  | 1 => decR3 w .fsub
  | 2 => decR3 w .fmul
  | 3 => decRA w .fma
  | 4 => decRA w .fms
  | 5 => decR3 w .fmin
  | 6 => decR3 w .fmax
  | 7 => decR2 w .fabs
  | 8 => decR2 w .fneg
  | 9 => decR2 w .frcp
  | 10 => decR2 w .frsq
  | 11 => decR2 w .fsqrt
  | 12 => decR3 w .fdiv
  | 13 => decR2 w .fex2
  | 14 => decR2 w .flg2
  | _ => decR3 w .fscl

/-- FCMP (R154). -/
def decFcmp (w : Nat) : Dec :=
  match w % 16 with
  | 0 => decCmp w .fcmpEq
  | 1 => decCmp w .fcmpNe
  | 2 => decCmp w .fcmpLt
  | 3 => decCmp w .fcmpLe
  | 4 => decCmp w .fcmpGt
  | 5 => decCmp w .fcmpGe
  | 6 => decCmp w .fcmpUn
  | _ => .error .unassignedFunction

/-- CVT (R154). -/
def decCvtGroup (w : Nat) : Dec :=
  match w % 16 with
  | 0 => decCvt w .cvt
  | 1 => decSlot w .qnt
  | 2 => decSlot w .dqnt
  | 3 => decCvt w .pack
  | 4 => decCvt w .unpk
  | 5 => decSlot w .nest
  | _ => .error .unassignedFunction

/-- XLANE (R154). -/
def decXlane (w : Nat) : Dec :=
  match w % 16 with
  | 0 => decR2 w .mov
  | 1 => decR3 w .shfi
  | 2 => decR3 w .shup
  | 3 => decR3 w .shdn
  | 4 => decR3 w .shxr
  | 5 => decR2 w .rds
  | 6 => decR2 w .rdmin
  | 7 => decR2 w .rdmax
  | 8 => decR2 w .scan
  | 9 => need (!flag w 25) .latchForm (need (bits w 14 4 == 0 && bits w 4 7 == 0) .reservedField (.ok (.ballot (opnd w 18) (fld w 11 8))))
  | 10 => need (!flag w 25) .latchForm (need (bits w 14 4 == 0 && bits w 4 7 == 0) .reservedField (.ok (.any (opnd w 18) (fld w 11 8))))
  | 11 => need (!flag w 25) .latchForm (need (bits w 14 4 == 0 && bits w 4 7 == 0) .reservedField (.ok (.all (opnd w 18) (fld w 11 8))))
  | 12 => decU w true true false (.wrds (opnd w 18) (opnd w 11))
  | _ => .error .unassignedFunction

/-- PRED (R154, R188, R189): functions 8..15 are SEL by P0..P7. -/
def decPred (w : Nat) : Dec :=
  if flag w 3 then decR3 w (.sel (fld w 0 8))
  else match w % 8 with
  | 0 => need (!flag w 25) .latchForm (need (bits w 21 4 == 0 && bits w 14 4 == 0 && bits w 7 4 == 0) .reservedField (.ok (.pand (fld w 18 8) (fld w 11 8) (fld w 4 8))))
  | 1 => need (!flag w 25) .latchForm (need (bits w 21 4 == 0 && bits w 14 4 == 0 && bits w 7 4 == 0) .reservedField (.ok (.por (fld w 18 8) (fld w 11 8) (fld w 4 8))))
  | 2 => need (!flag w 25) .latchForm (need (bits w 21 4 == 0 && bits w 14 4 == 0 && bits w 7 4 == 0) .reservedField (.ok (.pxor (fld w 18 8) (fld w 11 8) (fld w 4 8))))
  | 3 => need (!flag w 25) .latchForm (need (bits w 21 4 == 0 && bits w 14 4 == 0 && bits w 4 7 == 0) .reservedField (.ok (.pnot (fld w 18 8) (fld w 11 8))))
  | 4 => need (!flag w 25) .latchForm (need (bits w 14 4 == 0 && bits w 4 7 == 0) .reservedField (.ok (.p2s (opnd w 18) (fld w 11 8))))
  | 5 => need (!flag w 25) .latchForm (need (bits w 21 4 == 0 && bits w 4 7 == 0) .reservedField (.ok (.s2p (fld w 18 8) (opnd w 11))))
  | _ => .error .unassignedFunction

/-- ISHI (R144): bits [10:7] reserved, [6:5] operation. -/
def decIshi (w : Nat) : Dec :=
  need (bits w 7 4 == 0) .reservedField
    (match bits w 5 2 with
    | 0 => decShi w .ishiShl
    | 1 => decShi w .ishiShr
    | 2 => decShi w .ishiSar
    | _ => decShi w .ishiRol)

/-- UALU (R154, R225). -/
def decUalu (w : Nat) : Dec :=
  match w % 64 with
  | 0 => decE w true true true false (fun d a b _ => .uadd d a b)
  | 1 => decE w true true true false (fun d a b _ => .usub d a b)
  | 2 => decE w true true true false (fun d a b _ => .umul d a b)
  | 3 => decE w true true true false (fun d a b _ => .umulhi d a b)
  | 4 => decE w true true true false (fun d a b _ => .uand d a b)
  | 5 => decE w true true true false (fun d a b _ => .uor d a b)
  | 6 => decE w true true true false (fun d a b _ => .uxor d a b)
  | 7 => decE w true true true false (fun d a b _ => .ushl d a b)
  | 8 => decE w true true true false (fun d a b _ => .ushr d a b)
  | 9 => decE w true true true false (fun d a b _ => .usar d a b)
  | 10 => decE w true true true false (fun d a b _ => .umin d a b)
  | 11 => decE w true true true false (fun d a b _ => .umax d a b)
  | 12 => decE w true true true false (fun d a b _ => .ucmplt d a b)
  | 13 => decE w true true true false (fun d a b _ => .ucmpeq d a b)
  | 14 => decE w true true true false (fun d a b _ => .ucmpltn d a b)
  | _ => .error .unassignedFunction

/-- FENCE (R245): D is a scope code 0..6. -/
def decFence (w : Nat) : Dec :=
  need (!flag w 25) .latchForm (need (bits w 4 14 == 0 && bits w 21 4 == 0) .reservedField
    (match w % 16 with
    | 0 => need (decide ((fld w 18 8).val ≠ 7)) .reservedValue (.ok (.fenceAcq (fld w 18 8)))
    | 1 => need (decide ((fld w 18 8).val ≠ 7)) .reservedValue (.ok (.fenceRel (fld w 18 8)))
    | 2 => need (decide ((fld w 18 8).val ≠ 7)) .reservedValue (.ok (.fenceAr (fld w 18 8)))
    | 3 => need (decide ((fld w 18 8).val ≠ 7)) .reservedValue (.ok (.fenceSc (fld w 18 8)))
    | 4 => need (decide ((fld w 18 8).val ≠ 7)) .reservedValue (.ok (.fenceAcks (fld w 18 8)))
    | _ => .error .unassignedFunction))

/-- ATOM (R154, R233). -/
def decAtom (w : Nat) : Dec :=
  match bits w 3 4 with
  | 0 => decMA w .atomAdd
  | 1 => decMA w .atomMin
  | 2 => decMA w .atomMax
  | 3 => decMA w .atomMinu
  | 4 => decMA w .atomMaxu
  | 5 => decMA w .atomAnd
  | 6 => decMA w .atomOr
  | 7 => decMA w .atomXor
  | 8 => decMA w .atomXchg
  | 9 => decMA w .atomCas
  | 10 => decMA w .atomIncb
  | 11 => decMA w .atomFadd
  | 12 => decMA w .atomFaddbf
  | 13 => decMA w .atomFmax
  | 14 => decMA w .atomDecz
  | _ => .error .unassignedFunction

/-- ATOMW (R154, R233). -/
def decAtomw (w : Nat) : Dec :=
  match bits w 3 4 with
  | 0 => decMA w .atomwAdd
  | 1 => decMA w .atomwMin
  | 2 => decMA w .atomwMax
  | 3 => decMA w .atomwXchg
  | 4 => decMA w .atomwCas
  | 5 => decMA w .atomwCas128
  | 6 => decMA w .atomwMaxp
  | 7 => decMA w .atomwIncb
  | _ => .error .unassignedFunction

/-- ATOMA (R154, R238). -/
def decAtoma (w : Nat) : Dec :=
  match bits w 3 4 with
  | 0 => decMo w .atomaAdd
  | 1 => decMo w .atomaMin
  | 2 => decMo w .atomaMax
  | 3 => decMo w .atomaAnd
  | 4 => decMo w .atomaOr
  | 5 => decMo w .atomaXor
  | 6 => decMo w .atomaXchg
  | 7 => decMo w .atomaCas
  | 8 => decMo w .atomaIncb
  | 9 => decMo w .atomaFadd
  | 10 => decMo w .atomaMaxp
  | _ => .error .unassignedFunction

/-- MHINT (R147, R244): H and O are 0; X is 0 but for PHINT. -/
def decMhint (w : Nat) : Dec :=
  need (bits w 0 4 == 0) .reservedField
    (match bits w 4 3 with
    | 0 => need (bits w 19 7 == 0) .reservedField (.ok (.pref (fld w 14 32) (opnd w 7)))
    | 1 => .ok (.phint (opnd w 19) (fld w 14 32) (opnd w 7))
    | 2 => need (bits w 19 7 == 0) .reservedField (.ok (.ldrop (fld w 14 32) (opnd w 7)))
    | _ => .error .reservedValue)

/-- WEIR (R154, R253). -/
def decWeir (w : Nat) : Dec :=
  match w % 64 with
  | 0 => decE w false true true true (fun _ a b c => .winit a b c)
  | 1 => decE w true true true false (fun d a b _ => .warr d a b)
  | 2 => decE w false true true false (fun _ a b _ => .wwait a b)
  | 3 => decE w true true true false (fun d a b _ => .wtest d a b)
  | 4 => decE w false false false false (fun _ _ _ _ => .cbar)
  | 5 => decE w false true false false (fun _ a _ _ => .xswap a)
  | 6 => decE w false true false false (fun _ a _ _ => .wdrop a)
  | _ => .error .unassignedFunction

/-- FUT (R154, R250). -/
def decFut (w : Nat) : Dec :=
  match w % 64 with
  | 0 => decE w true true false false (fun d a _ _ => .fwait d a)
  | 1 => decE w true true false false (fun d a _ _ => .ftest d a)
  | 2 => decE w false true false false (fun _ a _ _ => .fcancel a)
  | 3 => decE w true true false false (fun d a _ _ => .tlread d a)
  | 4 => decE w false true true false (fun _ a b _ => .tlwait a b)
  | 5 => decE w true true true false (fun d a b _ => .fjoin d a b)
  | _ => .error .unassignedFunction

/-- CPY (R154, R257). -/
def decCpy (w : Nat) : Dec :=
  match w % 64 with
  | 0 => decE w true true true true (fun d a b c => .cpyG2a d a b c)
  | 1 => decE w true true true true (fun d a b c => .cpyA2g d a b c)
  | 2 => decE w true true true true (fun d a b c => .cpyG2c d a b c)
  | 3 => decE w true true true true (fun d a b c => .cpyTcpy d a b c)
  | 4 => decE w true true true true (fun d a b c => .cpyGath d a b c)
  | 5 => decE w true true true true (fun d a b c => .cpyC2g d a b c)
  | _ => .error .unassignedFunction

/-- COLL (R154, R272). -/
def decColl (w : Nat) : Dec :=
  match w % 64 with
  | 0 => decE w true true true false (fun d a b _ => .clrun d a b)
  | 1 => decE w false true true false (fun _ a b _ => .clsig a b)
  | _ => .error .unassignedFunction

/-- LNCH (R154, R273). -/
def decLnch (w : Nat) : Dec :=
  match w % 64 with
  | 0 => decE w true true false false (fun d a _ _ => .launch d a)
  | 1 => decE w true false false false (fun d _ _ _ => .lqtry d)
  | _ => .error .unassignedFunction

/-- MMA (R149): bit 0 is reserved. -/
def decMma (w : Nat) : Dec :=
  need (!flag w 0) .reservedField (.ok (.mma ⟨fld w 24 4, fld w 20 16, fld w 15 32, fld w 12 8, fld w 9 8, fld w 4 32,
    flag w 3, flag w 2, flag w 1⟩))

/-- ACC (R150, R267). -/
def decAcc (w : Nat) : Dec :=
  match w % 16 with
  | 0 => decT w false false false false false (.azero (fld w 14 4))
  | 1 => decT w true false false true false (.acommit (opnd w 18) (fld w 14 4) (fld w 8 32))
  | 2 => decT w false false false true false (.arank (fld w 14 4) (fld w 8 32))
  | 3 => decT w false true false false false (.arfold (fld w 16 4) (fld w 14 4))
  | 4 => decT w true false true true true (.amov ⟨opnd w 18, fld w 14 4, flag w 13, fld w 8 32, fld w 4 16⟩)
  | 5 => decT w true false true true true (.amovw ⟨opnd w 18, fld w 14 4, flag w 13, fld w 8 32, fld w 4 16⟩)
  | 6 => decT w true false false false false (.athr (opnd w 18) (fld w 14 4))
  | 7 => decT w true false false true false (.arread (opnd w 18) (fld w 14 4) (fld w 8 32))
  | 8 => decT w true false false true false (.aload (opnd w 18) (fld w 14 4) (fld w 8 32))
  | _ => .error .unassignedFunction

/-- TILE (R150, R261). -/
def decTile (w : Nat) : Dec :=
  match w % 16 with
  | 0 => decT w false true false false false (.tzero (fld w 14 16))
  | 1 => decT w false true false true false (.tld (fld w 14 16) (fld w 8 32))
  | 2 => decT w false true false true false (.tst (fld w 14 16) (fld w 8 32))
  | 3 => decT w true true true true true (.tmov ⟨opnd w 18, fld w 14 16, flag w 13, fld w 8 32, fld w 4 16⟩)
  | 4 => decT w true true true true true (.tmovw ⟨opnd w 18, fld w 14 16, flag w 13, fld w 8 32, fld w 4 16⟩)
  | 5 => decT w true true false true true (.tscl (opnd w 18) (fld w 14 16) (fld w 8 32) (fld w 4 16))
  | _ => .error .unassignedFunction

/-- PSYS (R288). -/
def decPsys (w : Nat) : Dec :=
  match w % 16 with
  | 0 => decU w false false false .eret
  | 1 => decU w true true false (.spw (fld w 18 128) (opnd w 11))
  | 2 => decU w true true false (.sprp (opnd w 18) (fld w 11 128))
  | 3 => need (decide ((fld w 18 128).val ≤ 2)) .reservedValue (decU w true true false (.term (fld w 18 128) (fld w 11 128)))
  | 4 => decU w false true true (.tlbinv (opnd w 11) (opnd w 4))
  | 5 => decU w true false false (.sfrqpop (opnd w 18))
  | 6 => decU w true true true (.wspill (opnd w 18) (opnd w 11) (opnd w 4))
  | 7 => decU w true true false (.wfill (opnd w 18) (opnd w 11))
  | _ => .error .unassignedFunction

/-- The instruction of the word with number `w` (R153: one arm per major). -/
def decodeNat (w : Nat) : Dec :=
  match w / 2 ^ 26 with
  | 0 => decSys w
  | 1 => decMode w
  | 2 => if flag w 21 then .ok (.br (flag w 25) (fld w 22 8) (BitVec.ofNat 21 (bits w 0 21)))
         else .ok (.brn (flag w 25) (fld w 22 8) (BitVec.ofNat 21 (bits w 0 21)))
  | 3 => need (!flag w 25) .reservedField (.ok (.bru (fld w 20 32) (fld w 18 4) (BitVec.ofNat 18 (bits w 0 18))))
  | 4 => .ok (.jmp (BitVec.ofNat 26 (bits w 0 26)))
  | 5 => .ok (.call (BitVec.ofNat 26 (bits w 0 26)))
  | 6 => need (bits w 0 11 == 0) .reservedField
           (need (decide ((fld w 18 256).val ≠ 0)) .reservedValue (.ok (.loop (fld w 18 256) (opnd w 11))))
  | 7 => decCtl w
  | 8 => decIalu w
  | 9 => decIlog w
  | 10 => decIcmp w
  | 11 => decFalu w
  | 12 => decFcmp w
  | 13 => decCvtGroup w
  | 14 => decXlane w
  | 15 => decPred w
  | 16 => decImm w .addi
  | 17 => need (latchForm (flag w 25) (opnd w 18)) .latchForm
            (.ok (.movi (flag w 25) (opnd w 18) (BitVec.ofNat 18 (bits w 0 18))))
  | 18 => need (!flag w 25) .latchForm
            (need (movhForm (opnd w 18) (fld w 16 4)) .reservedValue
              (.ok (.movh (opnd w 18) (fld w 16 4) (BitVec.ofNat 16 (bits w 0 16)))))
  | 19 => decUalu w
  | 20 => need (!flag w 25) .latchForm (.ok (.uaddi (opnd w 18) (opnd w 11) (BitVec.ofNat 11 (bits w 0 11))))
  | 21 => decIshi w
  | 22 => decImm w .andi
  | 24 => decLoad w (.ld (fM w))
  | 25 => decStore w (.st (fM w))
  | 26 => decStore w (.stp (fM w))
  | 27 => decAtom w
  | 28 => decAtomw w
  | 29 => need (bits w 0 2 == 0) .reservedValue (decLoad w (.lda (fMz w)))
  | 30 => need (bits w 0 2 == 0) .reservedValue (decStore w (.sta (fMz w)))
  | 31 => decAtoma w
  | 32 => need (bits w 0 2 == 0) .reservedValue (decStore w (.stx (fMz w)))
  | 33 => need (!flag w 1) .reservedValue (decStore w (.puta (fMz w) (flag w 0)))
  | 34 => need (bits w 0 2 == 0) .reservedValue (decStore w (.mst (fMz w)))
  | 35 => decMhint w
  | 36 => decFence w
  | 37 => decWeir w
  | 38 => decFut w
  | 39 => decCpy w
  | 40 => decMma w
  | 41 => decAcc w
  | 42 => decTile w
  | 43 => decColl w
  | 44 => decLnch w
  | 48 => decPsys w
  | _ => .error .reservedMajor

/-- Decoding is total: every 32-bit word is an instruction or is refused with a reason (R156). -/
def decode (w : Word) : Dec := decodeNat w.toNat

/-- What the decoder reads from an instruction whose bits are `w`, bit 0 the least significant of the first word. Every ZIS
instruction is one word (R139); the bits above `nbits` are zero. -/
def decodeTableWord (nbits w : Nat) : Option Instr := (decode (BitVec.ofNat 32 (w % 2 ^ nbits))).toOption

/-- Format F-R (R142). -/
def encR (mj fn n d a b : Nat) : Nat := mj * 2 ^ 26 + n * 2 ^ 25 + d * 2 ^ 18 + a * 2 ^ 11 + b * 2 ^ 4 + fn

/-- Format F-I (R142). -/
def encI (mj n d a i : Nat) : Nat := mj * 2 ^ 26 + n * 2 ^ 25 + d * 2 ^ 18 + a * 2 ^ 11 + i

/-- Format F-M (R142). -/
def encM (mj x b i z o h : Nat) : Nat := mj * 2 ^ 26 + x * 2 ^ 19 + b * 2 ^ 14 + i * 2 ^ 7 + z * 2 ^ 4 + o * 2 ^ 2 + h

/-- Format F-MA (R142). -/
def encMA (mj x b i aop o q : Nat) : Nat := mj * 2 ^ 26 + x * 2 ^ 19 + b * 2 ^ 14 + i * 2 ^ 7 + aop * 2 ^ 3 + o * 2 + q

/-- Format F-E (R142). -/
def encE (mj d a b c fn : Nat) : Nat := mj * 2 ^ 26 + d * 2 ^ 21 + a * 2 ^ 16 + b * 2 ^ 11 + c * 2 ^ 6 + fn

/-- Format F-T (R142). -/
def encT (mj d sel rc x n fn : Nat) : Nat :=
  mj * 2 ^ 26 + d * 2 ^ 18 + sel * 2 ^ 14 + rc * 2 ^ 13 + x * 2 ^ 8 + n * 2 ^ 4 + fn

/-- The number of the word of an instruction; a step that no word encodes has none. -/
def encodeNat (i : Instr) : Option Nat :=
  match i with
  | .nop => some (encR 0 0 0 0 0 0)
  | .spr d a => some (encR 0 1 0 d.code a.val 0)
  | .brk a => some (encR 0 2 0 0 a.val 0)
  | .trap a => some (encR 0 3 0 0 a.val 0)
  | .tfence => some (encR 0 4 0 0 0 0)
  | .drain => some (encR 0 5 0 0 0 0)
  | .yield => some (encR 0 6 0 0 0 0)
  | .seed a => some (encR 0 7 0 0 a.code 0)
  | .clock d => some (encR 0 8 0 d.code 0 0)
  | .exit => some (encR 0 9 0 0 0 0)
  | .wait a => some (encR 0 10 0 0 a.code 0)
  | .modeGp g p => some (1 * 2 ^ 26 + 0 * 2 ^ 23 + (g.toNat * 8 + p.val))
  | .modeEt e => some (1 * 2 ^ 26 + 1 * 2 ^ 23 + e.val)
  | .modeRm m => some (1 * 2 ^ 26 + 2 * 2 ^ 23 + m.val)
  | .modeSatfz z a => some (1 * 2 ^ 26 + 3 * 2 ^ 23 + (z.toNat * 2 + a.toNat))
  | .modeScope c => some (1 * 2 ^ 26 + 4 * 2 ^ 23 + c.val)
  | .modeTe t => some (1 * 2 ^ 26 + 5 * 2 ^ 23 + t.val)
  | .modeDh h => some (1 * 2 ^ 26 + 6 * 2 ^ 23 + h.val)
  | .modeAll r => some (1 * 2 ^ 26 + 7 * 2 ^ 23 + r.val)
  | .br h p o => some (2 * 2 ^ 26 + h.toNat * 2 ^ 25 + p.val * 2 ^ 22 + 1 * 2 ^ 21 + o.toNat)
  | .brn h p o => some (2 * 2 ^ 26 + h.toNat * 2 ^ 25 + p.val * 2 ^ 22 + 0 * 2 ^ 21 + o.toNat)
  | .bru r c o => some (3 * 2 ^ 26 + r.val * 2 ^ 20 + c.val * 2 ^ 18 + o.toNat)
  | .jmp o => some (4 * 2 ^ 26 + o.toNat)
  | .call o => some (5 * 2 ^ 26 + o.toNat)
  | .loop len c => some (6 * 2 ^ 26 + len.val * 2 ^ 18 + c.code * 2 ^ 11)
  | .ret => some (encR 7 0 0 0 0 0)
  | .jr a => some (encR 7 1 0 0 a.code 0)
  | .callr a => some (encR 7 2 0 0 a.code 0)
  | .join => some (encR 7 3 0 0 0 0)
  | .wconv => some (encR 7 4 0 0 0 0)
  | .lbrk => some (encR 7 5 0 0 0 0)
  | .add f => some (encR 8 0 f.n.toNat f.d.code f.a.code f.b.code)
  | .sub f => some (encR 8 1 f.n.toNat f.d.code f.a.code f.b.code)
  | .mul f => some (encR 8 2 f.n.toNat f.d.code f.a.code f.b.code)
  | .mulhi f => some (encR 8 3 f.n.toNat f.d.code f.a.code f.b.code)
  | .mad f => some (encR 8 4 0 f.d.code f.a.code f.b.code)
  | .div f => some (encR 8 5 f.n.toNat f.d.code f.a.code f.b.code)
  | .rem f => some (encR 8 6 f.n.toNat f.d.code f.a.code f.b.code)
  | .min f => some (encR 8 7 f.n.toNat f.d.code f.a.code f.b.code)
  | .max f => some (encR 8 8 f.n.toNat f.d.code f.a.code f.b.code)
  | .abs f => some (encR 8 9 f.n.toNat f.d.code f.a.code 0)
  | .neg f => some (encR 8 10 f.n.toNat f.d.code f.a.code 0)
  | .dot4 f => some (encR 8 11 0 f.d.code f.a.code f.b.code)
  | .dot2 f => some (encR 8 12 0 f.d.code f.a.code f.b.code)
  | .avg f => some (encR 8 13 f.n.toNat f.d.code f.a.code f.b.code)
  | .and f => some (encR 9 0 f.n.toNat f.d.code f.a.code f.b.code)
  | .or f => some (encR 9 1 f.n.toNat f.d.code f.a.code f.b.code)
  | .xor f => some (encR 9 2 f.n.toNat f.d.code f.a.code f.b.code)
  | .andn f => some (encR 9 3 f.n.toNat f.d.code f.a.code f.b.code)
  | .not f => some (encR 9 4 f.n.toNat f.d.code f.a.code 0)
  | .shl f => some (encR 9 5 f.n.toNat f.d.code f.a.code f.b.code)
  | .shr f => some (encR 9 6 f.n.toNat f.d.code f.a.code f.b.code)
  | .sar f => some (encR 9 7 f.n.toNat f.d.code f.a.code f.b.code)
  | .rol f => some (encR 9 8 f.n.toNat f.d.code f.a.code f.b.code)
  | .popc f => some (encR 9 9 f.n.toNat f.d.code f.a.code 0)
  | .clz f => some (encR 9 10 f.n.toNat f.d.code f.a.code 0)
  | .brev f => some (encR 9 11 f.n.toNat f.d.code f.a.code 0)
  | .bfx f => some (encR 9 12 f.n.toNat f.d.code f.a.code f.b.code)
  | .bfi f => some (encR 9 13 0 f.d.code f.a.code f.b.code)
  | .crc f => some (encR 9 14 0 f.d.code f.a.code f.b.code)
  | .icmpEq f => some (encR 10 0 0 f.p.val f.a.code f.b.code)
  | .icmpNe f => some (encR 10 1 0 f.p.val f.a.code f.b.code)
  | .icmpLt f => some (encR 10 2 0 f.p.val f.a.code f.b.code)
  | .icmpLe f => some (encR 10 3 0 f.p.val f.a.code f.b.code)
  | .icmpGt f => some (encR 10 4 0 f.p.val f.a.code f.b.code)
  | .icmpGe f => some (encR 10 5 0 f.p.val f.a.code f.b.code)
  | .icmpTst f => some (encR 10 6 0 f.p.val f.a.code f.b.code)
  | .fadd f => some (encR 11 0 f.n.toNat f.d.code f.a.code f.b.code)
  | .fsub f => some (encR 11 1 f.n.toNat f.d.code f.a.code f.b.code)
  | .fmul f => some (encR 11 2 f.n.toNat f.d.code f.a.code f.b.code)
  | .fma f => some (encR 11 3 0 f.d.code f.a.code f.b.code)
  | .fms f => some (encR 11 4 0 f.d.code f.a.code f.b.code)
  | .fmin f => some (encR 11 5 f.n.toNat f.d.code f.a.code f.b.code)
  | .fmax f => some (encR 11 6 f.n.toNat f.d.code f.a.code f.b.code)
  | .fabs f => some (encR 11 7 f.n.toNat f.d.code f.a.code 0)
  | .fneg f => some (encR 11 8 f.n.toNat f.d.code f.a.code 0)
  | .frcp f => some (encR 11 9 f.n.toNat f.d.code f.a.code 0)
  | .frsq f => some (encR 11 10 f.n.toNat f.d.code f.a.code 0)
  | .fsqrt f => some (encR 11 11 f.n.toNat f.d.code f.a.code 0)
  | .fdiv f => some (encR 11 12 f.n.toNat f.d.code f.a.code f.b.code)
  | .fex2 f => some (encR 11 13 f.n.toNat f.d.code f.a.code 0)
  | .flg2 f => some (encR 11 14 f.n.toNat f.d.code f.a.code 0)
  | .fscl f => some (encR 11 15 f.n.toNat f.d.code f.a.code f.b.code)
  | .fcmpEq f => some (encR 12 0 0 f.p.val f.a.code f.b.code)
  | .fcmpNe f => some (encR 12 1 0 f.p.val f.a.code f.b.code)
  | .fcmpLt f => some (encR 12 2 0 f.p.val f.a.code f.b.code)
  | .fcmpLe f => some (encR 12 3 0 f.p.val f.a.code f.b.code)
  | .fcmpGt f => some (encR 12 4 0 f.p.val f.a.code f.b.code)
  | .fcmpGe f => some (encR 12 5 0 f.p.val f.a.code f.b.code)
  | .fcmpUn f => some (encR 12 6 0 f.p.val f.a.code f.b.code)
  | .cvt f => some (encR 13 0 f.n.toNat f.d.code f.a.code f.e.val)
  | .qnt f => some (encR 13 1 f.n.toNat f.d.code f.a.code f.s.val)
  | .dqnt f => some (encR 13 2 f.n.toNat f.d.code f.a.code f.s.val)
  | .pack f => some (encR 13 3 f.n.toNat f.d.code f.a.code f.e.val)
  | .unpk f => some (encR 13 4 f.n.toNat f.d.code f.a.code f.e.val)
  | .nest f => some (encR 13 5 f.n.toNat f.d.code f.a.code f.s.val)
  | .mov f => some (encR 14 0 f.n.toNat f.d.code f.a.code 0)
  | .shfi f => some (encR 14 1 f.n.toNat f.d.code f.a.code f.b.code)
  | .shup f => some (encR 14 2 f.n.toNat f.d.code f.a.code f.b.code)
  | .shdn f => some (encR 14 3 f.n.toNat f.d.code f.a.code f.b.code)
  | .shxr f => some (encR 14 4 f.n.toNat f.d.code f.a.code f.b.code)
  | .rds f => some (encR 14 5 f.n.toNat f.d.code f.a.code 0)
  | .rdmin f => some (encR 14 6 f.n.toNat f.d.code f.a.code 0)
  | .rdmax f => some (encR 14 7 f.n.toNat f.d.code f.a.code 0)
  | .scan f => some (encR 14 8 f.n.toNat f.d.code f.a.code 0)
  | .ballot d p => some (encR 14 9 0 d.code p.val 0)
  | .any d p => some (encR 14 10 0 d.code p.val 0)
  | .all d p => some (encR 14 11 0 d.code p.val 0)
  | .wrds d a => some (encR 14 12 0 d.code a.code 0)
  | .pand d a b => some (encR 15 0 0 d.val a.val b.val)
  | .por d a b => some (encR 15 1 0 d.val a.val b.val)
  | .pxor d a b => some (encR 15 2 0 d.val a.val b.val)
  | .pnot d a => some (encR 15 3 0 d.val a.val 0)
  | .p2s d a => some (encR 15 4 0 d.code a.val 0)
  | .s2p d a => some (encR 15 5 0 d.val a.code 0)
  | .sel k f => some (encR 15 (8 + k.val) f.n.toNat f.d.code f.a.code f.b.code)
  | .addi f => some (encI 16 f.n.toNat f.d.code f.a.code f.i.toNat)
  | .movi n d i => some (17 * 2 ^ 26 + n.toNat * 2 ^ 25 + d.code * 2 ^ 18 + i.toNat)
  | .movh d j v => some (18 * 2 ^ 26 + d.code * 2 ^ 18 + j.val * 2 ^ 16 + v.toNat)
  | .uadd d a b => some (encE 19 d.val a.val b.val 0 0)
  | .usub d a b => some (encE 19 d.val a.val b.val 0 1)
  | .umul d a b => some (encE 19 d.val a.val b.val 0 2)
  | .umulhi d a b => some (encE 19 d.val a.val b.val 0 3)
  | .uand d a b => some (encE 19 d.val a.val b.val 0 4)
  | .uor d a b => some (encE 19 d.val a.val b.val 0 5)
  | .uxor d a b => some (encE 19 d.val a.val b.val 0 6)
  | .ushl d a b => some (encE 19 d.val a.val b.val 0 7)
  | .ushr d a b => some (encE 19 d.val a.val b.val 0 8)
  | .usar d a b => some (encE 19 d.val a.val b.val 0 9)
  | .umin d a b => some (encE 19 d.val a.val b.val 0 10)
  | .umax d a b => some (encE 19 d.val a.val b.val 0 11)
  | .ucmplt d a b => some (encE 19 d.val a.val b.val 0 12)
  | .ucmpeq d a b => some (encE 19 d.val a.val b.val 0 13)
  | .ucmpltn d a b => some (encE 19 d.val a.val b.val 0 14)
  | .uaddi d a i => some (encI 20 0 d.code a.code i.toNat)
  | .ishiShl f => some (encI 21 f.n.toNat f.d.code f.a.code (0 + f.c.val))
  | .ishiShr f => some (encI 21 f.n.toNat f.d.code f.a.code (32 + f.c.val))
  | .ishiSar f => some (encI 21 f.n.toNat f.d.code f.a.code (64 + f.c.val))
  | .ishiRol f => some (encI 21 f.n.toNat f.d.code f.a.code (96 + f.c.val))
  | .andi f => some (encI 22 f.n.toNat f.d.code f.a.code f.i.toNat)
  | .ld f => some (encM 24 f.x.code f.b.val f.i.code f.z.val f.o.val f.h.val)
  | .st f => some (encM 25 f.x.code f.b.val f.i.code f.z.val f.o.val f.h.val)
  | .stp f => some (encM 26 f.x.code f.b.val f.i.code f.z.val f.o.val f.h.val)
  | .atomAdd f => some (encMA 27 f.x.code f.b.val f.i.code 0 f.o.val f.q.toNat)
  | .atomMin f => some (encMA 27 f.x.code f.b.val f.i.code 1 f.o.val f.q.toNat)
  | .atomMax f => some (encMA 27 f.x.code f.b.val f.i.code 2 f.o.val f.q.toNat)
  | .atomMinu f => some (encMA 27 f.x.code f.b.val f.i.code 3 f.o.val f.q.toNat)
  | .atomMaxu f => some (encMA 27 f.x.code f.b.val f.i.code 4 f.o.val f.q.toNat)
  | .atomAnd f => some (encMA 27 f.x.code f.b.val f.i.code 5 f.o.val f.q.toNat)
  | .atomOr f => some (encMA 27 f.x.code f.b.val f.i.code 6 f.o.val f.q.toNat)
  | .atomXor f => some (encMA 27 f.x.code f.b.val f.i.code 7 f.o.val f.q.toNat)
  | .atomXchg f => some (encMA 27 f.x.code f.b.val f.i.code 8 f.o.val f.q.toNat)
  | .atomCas f => some (encMA 27 f.x.code f.b.val f.i.code 9 f.o.val f.q.toNat)
  | .atomIncb f => some (encMA 27 f.x.code f.b.val f.i.code 10 f.o.val f.q.toNat)
  | .atomFadd f => some (encMA 27 f.x.code f.b.val f.i.code 11 f.o.val f.q.toNat)
  | .atomFaddbf f => some (encMA 27 f.x.code f.b.val f.i.code 12 f.o.val f.q.toNat)
  | .atomFmax f => some (encMA 27 f.x.code f.b.val f.i.code 13 f.o.val f.q.toNat)
  | .atomDecz f => some (encMA 27 f.x.code f.b.val f.i.code 14 f.o.val f.q.toNat)
  | .atomwAdd f => some (encMA 28 f.x.code f.b.val f.i.code 0 f.o.val f.q.toNat)
  | .atomwMin f => some (encMA 28 f.x.code f.b.val f.i.code 1 f.o.val f.q.toNat)
  | .atomwMax f => some (encMA 28 f.x.code f.b.val f.i.code 2 f.o.val f.q.toNat)
  | .atomwXchg f => some (encMA 28 f.x.code f.b.val f.i.code 3 f.o.val f.q.toNat)
  | .atomwCas f => some (encMA 28 f.x.code f.b.val f.i.code 4 f.o.val f.q.toNat)
  | .atomwCas128 f => some (encMA 28 f.x.code f.b.val f.i.code 5 f.o.val f.q.toNat)
  | .atomwMaxp f => some (encMA 28 f.x.code f.b.val f.i.code 6 f.o.val f.q.toNat)
  | .atomwIncb f => some (encMA 28 f.x.code f.b.val f.i.code 7 f.o.val f.q.toNat)
  | .lda f => some (encM 29 f.x.code f.b.val f.i.code f.z.val f.o.val 0)
  | .sta f => some (encM 30 f.x.code f.b.val f.i.code f.z.val f.o.val 0)
  | .atomaAdd f => some (encMA 31 f.x.code f.b.val f.i.code 0 f.o.val 0)
  | .atomaMin f => some (encMA 31 f.x.code f.b.val f.i.code 1 f.o.val 0)
  | .atomaMax f => some (encMA 31 f.x.code f.b.val f.i.code 2 f.o.val 0)
  | .atomaAnd f => some (encMA 31 f.x.code f.b.val f.i.code 3 f.o.val 0)
  | .atomaOr f => some (encMA 31 f.x.code f.b.val f.i.code 4 f.o.val 0)
  | .atomaXor f => some (encMA 31 f.x.code f.b.val f.i.code 5 f.o.val 0)
  | .atomaXchg f => some (encMA 31 f.x.code f.b.val f.i.code 6 f.o.val 0)
  | .atomaCas f => some (encMA 31 f.x.code f.b.val f.i.code 7 f.o.val 0)
  | .atomaIncb f => some (encMA 31 f.x.code f.b.val f.i.code 8 f.o.val 0)
  | .atomaFadd f => some (encMA 31 f.x.code f.b.val f.i.code 9 f.o.val 0)
  | .atomaMaxp f => some (encMA 31 f.x.code f.b.val f.i.code 10 f.o.val 0)
  | .stx f => some (encM 32 f.x.code f.b.val f.i.code f.z.val f.o.val 0)
  | .puta f h => some (encM 33 f.x.code f.b.val f.i.code f.z.val f.o.val h.toNat)
  | .mst f => some (encM 34 f.x.code f.b.val f.i.code f.z.val f.o.val 0)
  | .pref b i => some (encM 35 0 b.val i.code 0 0 0)
  | .phint x b i => some (encM 35 x.code b.val i.code 1 0 0)
  | .ldrop b i => some (encM 35 0 b.val i.code 2 0 0)
  | .fenceAcq c => some (encR 36 0 0 c.val 0 0)
  | .fenceRel c => some (encR 36 1 0 c.val 0 0)
  | .fenceAr c => some (encR 36 2 0 c.val 0 0)
  | .fenceSc c => some (encR 36 3 0 c.val 0 0)
  | .fenceAcks c => some (encR 36 4 0 c.val 0 0)
  | .winit a b c => some (encE 37 0 a.val b.val c.val 0)
  | .warr d a b => some (encE 37 d.val a.val b.val 0 1)
  | .wwait a b => some (encE 37 0 a.val b.val 0 2)
  | .wtest d a b => some (encE 37 d.val a.val b.val 0 3)
  | .cbar => some (encE 37 0 0 0 0 4)
  | .xswap a => some (encE 37 0 a.val 0 0 5)
  | .wdrop a => some (encE 37 0 a.val 0 0 6)
  | .fwait d a => some (encE 38 d.val a.val 0 0 0)
  | .ftest d a => some (encE 38 d.val a.val 0 0 1)
  | .fcancel a => some (encE 38 0 a.val 0 0 2)
  | .tlread d a => some (encE 38 d.val a.val 0 0 3)
  | .tlwait a b => some (encE 38 0 a.val b.val 0 4)
  | .fjoin d a b => some (encE 38 d.val a.val b.val 0 5)
  | .cpyG2a d a b c => some (encE 39 d.val a.val b.val c.val 0)
  | .cpyA2g d a b c => some (encE 39 d.val a.val b.val c.val 1)
  | .cpyG2c d a b c => some (encE 39 d.val a.val b.val c.val 2)
  | .cpyTcpy d a b c => some (encE 39 d.val a.val b.val c.val 3)
  | .cpyGath d a b c => some (encE 39 d.val a.val b.val c.val 4)
  | .cpyC2g d a b c => some (encE 39 d.val a.val b.val c.val 5)
  | .mma f => some (40 * 2 ^ 26 + f.acc.val * 2 ^ 24 + f.tile.val * 2 ^ 20 + f.b.val * 2 ^ 15 + f.slotA.val * 2 ^ 12 + f.slotB.val * 2 ^ 9 +
      f.sf.val * 2 ^ 4 + f.z.toNat * 2 ^ 3 + f.k.toNat * 2 ^ 2 + f.w.toNat * 2)
  | .azero k => some (encT 41 0 k.val 0 0 0 0)
  | .acommit d k x => some (encT 41 d.code k.val 0 x.val 0 1)
  | .arank k x => some (encT 41 0 k.val 0 x.val 0 2)
  | .arfold j k => some (encT 41 0 (j.val * 4 + k.val) 0 0 0 3)
  | .amov f => some (encT 41 f.d.code f.k.val f.rc.toNat f.x.val f.n.val 4)
  | .amovw f => some (encT 41 f.d.code f.k.val f.rc.toNat f.x.val f.n.val 5)
  | .athr d k => some (encT 41 d.code k.val 0 0 0 6)
  | .arread d k x => some (encT 41 d.code k.val 0 x.val 0 7)
  | .aload d k x => some (encT 41 d.code k.val 0 x.val 0 8)
  | .tzero k => some (encT 42 0 k.val 0 0 0 0)
  | .tld k x => some (encT 42 0 k.val 0 x.val 0 1)
  | .tst k x => some (encT 42 0 k.val 0 x.val 0 2)
  | .tmov f => some (encT 42 f.d.code f.k.val f.rc.toNat f.x.val f.n.val 3)
  | .tmovw f => some (encT 42 f.d.code f.k.val f.rc.toNat f.x.val f.n.val 4)
  | .tscl d k x n => some (encT 42 d.code k.val 0 x.val n.val 5)
  | .clrun d a b => some (encE 43 d.val a.val b.val 0 0)
  | .clsig a b => some (encE 43 0 a.val b.val 0 1)
  | .launch d a => some (encE 44 d.val a.val 0 0 0)
  | .lqtry d => some (encE 44 d.val 0 0 0 1)
  | .eret => some (encR 48 0 0 0 0 0)
  | .spw d a => some (encR 48 1 0 d.val a.code 0)
  | .sprp d a => some (encR 48 2 0 d.code a.val 0)
  | .term d a => some (encR 48 3 0 d.val a.val 0)
  | .tlbinv a b => some (encR 48 4 0 0 a.code b.code)
  | .sfrqpop d => some (encR 48 5 0 d.code 0 0)
  | .wspill d a b => some (encR 48 6 0 d.code a.code b.code)
  | .wfill d a => some (encR 48 7 0 d.code a.code 0)
  | .cEnd _ => none
  | .send _ => none
  | .recv _ => none
  | .reduce _ => none
  | .mcast _ => none
  | .waittl _ => none
  | .waitweir _ => none
  | .signal _ => none
  | .compress _ => none
  | .decompress _ => none
  | .barrier _ => none
  | .issuePeriod => none
  | .resultAvailable _ _ => none
  | .yieldExpiry _ _ => none
  | .waitDeadline _ _ => none
  | .loadAtHome _ => none
  | .writeAtHome _ => none
  | .atomicAtHome _ => none
  | .leaseExpiry _ => none
  | .loadReply _ => none
  | .acknowledgement _ => none
  | .putAtDescriptor _ => none
  | .stxAtTarget _ => none
  | .segmentArrival _ _ => none
  | .copyCompletion _ _ => none
  | .mmaCompletion _ => none
  | .acommitCompletion _ => none
  | .aloadCompletion _ => none
  | .trapEntry _ _ => none
  | .crewRetire _ => none
  | .crewPlacement _ => none
  | .preemptionRequest _ => none
  | .crewSave _ => none
  | .crewRestore _ => none
  | .chipletReset _ => none
  | .hostQueueAccept _ => none
  | .dlqTake _ => none
  | .stealRequest _ _ => none
  | .stealRequestArrival _ => none
  | .stealAnswerArrival _ => none
  | .chipctlFence _ => none
  | .chipctlUnfence _ => none
  | .mmioWrite _ => none
  | .errcntClear _ => none
  | .pairModeWrite _ => none
  | .reportRequest _ => none
  | .hostAccess _ => none
  | .pageWalk _ => none
  | .pumpEvaluation => none
  | .pageMoveCopy _ => none
  | .reDecay => none
  | .packetArrival _ => none
  | .collectiveFailureNotice _ => none
  | .packetReturn _ => none
  | .reachTimeout _ => none
  | .orderedFlagQuery _ => none
  | .orderedFlagAnswer _ => none
  | .demand _ => none
  | .grantIssue => none
  | .grantArrival _ => none
  | .linkReplay _ => none
  | .linkDown _ => none
  | .bridgeRetrain => none
  | .elasticTimeout _ => none
  | .keyExchange _ => none
  | .rekey _ => none
  | .sliceGate _ _ => none
  | .arrayGate _ => none
  | .cisternRetention _ => none
  | .routerPortDown _ => none
  | .wakeSignal _ => none
  | .linkLowPower _ => none
  | .selfRefresh _ => none
  | .budgetWindow => none
  | .thermalThrottle _ => none
  | .thermalTrip _ => none
  | .scrub => none
  | .uncorrectableError _ => none
  | .powerOn => none
  | .cxlPortDown _ => none
  | .tldTstAbCyclesDone _ _ => none
  | .arfoldDone _ _ => none
  | .readOutDone _ => none
  | .linkUp _ => none
  | .cxlPortRetrained _ => none
  | .bridgeRetrainDone => none
  | .thermalThrottleEnd _ => none
  | .retransmissionTimeout _ => none

/-- The word of a well-formed instruction. -/
def encode (i : Instr) : Option Word := (encodeNat i).map (BitVec.ofNat 32)

end Sys2Proof
end

