-- ==== Sys2Proof/Machine/Table.lean ====
section
/-! DEFINITION. Sparse tables: reading and writing one key, ranges, and the canonical form; byte strings in little-endian
order (R5). -/

namespace Sys2Proof.Machine

variable {α : Type}

/-- The value at a key; an unlisted key reads as the default. -/
def mget [Inhabited α] : FMap α → Nat → α
  | [], _ => default
  | (a, x) :: r, k => if k < a then default else if k = a then x else mget r k

/-- The entries beyond a key. -/
def mbeyond : FMap α → Nat → FMap α
  | [], _ => []
  | (a, x) :: r, k => if a ≤ k then mbeyond r k else (a, x) :: r

/-- Write a key; writing the default removes the entry, so that the canonical form stays. -/
def mset [Inhabited α] [DecidableEq α] : FMap α → Nat → α → FMap α
  | [], k, v => if v = default then [] else [(k, v)]
  | (a, x) :: r, k, v =>
    if k < a then (if v = default then (a, x) :: r else (k, v) :: (a, x) :: r)
    else if k = a then (if v = default then mbeyond r k else (k, v) :: mbeyond r k)
    else (a, x) :: mset r k v

/-- Keys strictly rising from `lo` on, no entry equal to the default. -/
def mwfAbove [Inhabited α] [DecidableEq α] : Nat → FMap α → Bool
  | _, [] => true
  | lo, (a, x) :: r => decide (lo ≤ a) && decide (x ≠ default) && mwfAbove (a + 1) r

/-- The canonical form: keys strictly rising, no entry equal to the default. -/
def mwf [Inhabited α] [DecidableEq α] (m : FMap α) : Bool := mwfAbove 0 m

/-- The keys that are listed. -/
def mkeys (m : FMap α) : List Nat := m.map (·.1)

/-- Write consecutive keys. -/
def msetList [Inhabited α] [DecidableEq α] (m : FMap α) (k : Nat) : List α → FMap α
  | [] => m
  | v :: r => msetList (mset m k v) (k + 1) r

/-- The values of `n` consecutive keys. -/
def mgetList [Inhabited α] (m : FMap α) (k n : Nat) : List α := (List.range n).map (fun i => mget m (k + i))

/-- The values of `n` consecutive keys of a canonical table that lists nothing below `k`. -/
def mflat [Inhabited α] : Nat → Nat → FMap α → List α
  | _, 0, _ => []
  | k, n + 1, [] => default :: mflat (k + 1) n []
  | k, n + 1, (a, x) :: r => if a = k then x :: mflat (k + 1) n r else default :: mflat (k + 1) n ((a, x) :: r)

/-- Remove a range of keys at once: those from `lo` to before `hi`. -/
def mcut (m : FMap α) (lo hi : Nat) : FMap α := m.filter (fun e => decide (e.1 < lo) || decide (hi ≤ e.1))

/-- A table given on 0..n-1 by a function, in canonical form, placed between what is below `lo` and what is at or above `lo + n`. -/
def mreplace [Inhabited α] [DecidableEq α] (m : FMap α) (lo n : Nat) (f : Nat → α) : FMap α :=
  m.filter (fun e => decide (e.1 < lo)) ++
  ((List.range n).map (fun i => (lo + i, f i))).filter (fun e => decide (e.2 ≠ default)) ++
  m.filter (fun e => decide (lo + n ≤ e.1))

/-- Keys paired with the values of a list, from `k` on, without the defaults. -/
def mnumber [Inhabited α] [DecidableEq α] : Nat → List α → FMap α
  | _, [] => []
  | k, v :: r => if v = default then mnumber (k + 1) r else (k, v) :: mnumber (k + 1) r

/-- Replace the keys from `lo` on by the values of a list. -/
def mput [Inhabited α] [DecidableEq α] (m : FMap α) (lo : Nat) (l : List α) : FMap α :=
  m.filter (fun e => decide (e.1 < lo)) ++ mnumber lo l ++ m.filter (fun e => decide (lo + l.length ≤ e.1))

/-- The number of a little-endian byte string. -/
def leNat : List Byte → Nat
  | [] => 0
  | b :: r => b.toNat + 256 * leNat r

/-- A number as `n` bytes, least significant first. -/
def leBytes : Nat → Nat → List Byte
  | 0, _ => []
  | n + 1, v => BitVec.ofNat 8 v :: leBytes n (v / 256)

/-- Bits [hi:lo] of a number (R9). -/
def nbits (x lo n : Nat) : Nat := x / 2 ^ lo % 2 ^ n

/-- Bit n of a number. -/
def nbit (x n : Nat) : Bool := x / 2 ^ n % 2 == 1

/-- The integer that the low `w` bits of a number stand for in two's complement. -/
def sint (w x : Nat) : Int :=
  let y := x % 2 ^ w
  if y < 2 ^ (w - 1) then (y : Int) else (y : Int) - (2 ^ w : Nat)

/-- An integer modulo 2^w (R62). -/
def wrapN (w : Nat) (x : Int) : Nat := (x % ((2 ^ w : Nat) : Int)).toNat

end Sys2Proof.Machine
end

