-- ==== Sys2Proof/Machine/Float.lean ====
section
/-! DEFINITION. Floating-point numbers of the three formats (R63..R69): decoding, one rounding for every mode, and the exact
functions of R205..R211. Every operation forms its exact value and rounds it once. -/

namespace Sys2Proof.Machine

/-- A format: exponent bits and fraction bits (R63). -/
structure Fmt where
  e : Nat
  f : Nat
  deriving DecidableEq, Repr

/-- FP32 (R63). -/
def fmtF32 : Fmt := ⟨8, 23⟩
/-- BF16 (R63). -/
def fmtBF16 : Fmt := ⟨8, 7⟩
/-- FP16 (R63). -/
def fmtF16 : Fmt := ⟨5, 10⟩

/-- Width of the format's pattern. -/
def Fmt.width (t : Fmt) : Nat := 1 + t.e + t.f
/-- Bias of the exponent. -/
def Fmt.bias (t : Fmt) : Nat := 2 ^ (t.e - 1) - 1
/-- Exponent of the unit in the last place of subnormals. -/
def Fmt.qmin (t : Fmt) : Int := 1 - (t.bias : Int) - (t.f : Int)
/-- Pattern of +infinity. -/
def Fmt.infBits (t : Fmt) : Nat := (2 ^ t.e - 1) * 2 ^ t.f
/-- The canonical quiet NaN (R64). -/
def Fmt.nanBits (t : Fmt) : Nat := t.infBits + 2 ^ (t.f - 1)
/-- The sign bit in place. -/
def Fmt.signBit (t : Fmt) (s : Bool) : Nat := if s then 2 ^ (t.e + t.f) else 0

/-- A floating-point value: NaN (signalling or not), infinity, or sign × m × 2^x. -/
inductive Fl where
  | nan (signalling : Bool)
  | inf (s : Bool)
  | fin (s : Bool) (m : Nat) (x : Int)
  deriving DecidableEq, Repr

/-- The sticky flags in the bit order of FLAGS: IV, DZ, OF, UF (R59). -/
abbrev FlagBits := BitVec 4
/-- Invalid operation. -/
def flagIV : FlagBits := 1
/-- Division by zero. -/
def flagDZ : FlagBits := 2
/-- Overflow. -/
def flagOF : FlagBits := 4
/-- Underflow. -/
def flagUF : FlagBits := 8

/-- A pattern and the flags that forming it sets. -/
abbrev FRes := Nat × FlagBits

/-- How an operation rounds: the mode of R67, the random word of R68, and flushing (R65). -/
structure Rnd where
  mode : Nat
  rand : Nat
  fz : Bool
  deriving DecidableEq, Repr

/-- Round to nearest even without flushing: MMA, merges, reductions, atomics (R67, R65). -/
def rneKeep : Rnd := ⟨0, 0, false⟩

/-- The value of a pattern; with `fz` a subnormal reads as zero of its sign (R65). -/
def Fmt.value (t : Fmt) (fz : Bool) (b : Nat) : Fl :=
  let s := nbit b (t.e + t.f)
  let ex := nbits b t.f t.e
  let fr := nbits b 0 t.f
  if ex = 2 ^ t.e - 1 then (if fr = 0 then .inf s else .nan (!nbit fr (t.f - 1)))
  else if ex = 0 then .fin s (if fz then 0 else fr) t.qmin
  else .fin s (2 ^ t.f + fr) (t.qmin + (ex - 1 : Nat))

/-- The zero of a sign. -/
def Fmt.zero (t : Fmt) (s : Bool) : Nat := t.signBit s
/-- The infinity of a sign. -/
def Fmt.infinity (t : Fmt) (s : Bool) : Nat := t.signBit s + t.infBits
/-- The largest finite value of a sign. -/
def Fmt.maxFinite (t : Fmt) (s : Bool) : Nat := t.signBit s + (t.infBits - 1)

/-- The result written when the rounded magnitude exceeds the largest finite value (R67). -/
def Fmt.overflow (t : Fmt) (mode : Nat) (s : Bool) : Nat :=
  match mode with
  | 1 => t.maxFinite s
  | 2 => if s then t.maxFinite s else t.infinity s
  | 3 => if s then t.infinity s else t.maxFinite s
  | _ => t.infinity s

/-- Whether the magnitude n + rem / 2^sh (plus a sticky rest below) rounds up to n + 1 (R67, R68). -/
def roundsUp (r : Rnd) (s : Bool) (n rem sh : Nat) (sticky : Bool) : Bool :=
  let inexact := decide (rem ≠ 0) || sticky
  match r.mode with
  | 0 => decide (2 ^ sh < 2 * rem) || (decide (2 * rem = 2 ^ sh) && (sticky || n % 2 == 1)) 
  | 1 => false
  | 2 => inexact && !s
  | 3 => inexact && s
  | 4 => decide (2 ^ sh ≤ 2 * rem)
  | _ => decide (2 ^ 32 ≤ rem * 2 ^ 32 / 2 ^ sh + r.rand)

/-- Round sign × m × 2^x, with a rest below the last bit of m when `sticky`, for m nonzero (R65..R68). -/
def Fmt.round (t : Fmt) (r : Rnd) (s : Bool) (m : Nat) (x : Int) (sticky : Bool) : FRes :=
  let lead : Int := x + (Nat.log2 m : Nat)
  let q : Int := max (lead - (t.f : Nat)) t.qmin
  let sh := (q - x).toNat
  let n := if x < q then m / 2 ^ sh else m * 2 ^ (x - q).toNat
  let rem := if x < q then m % 2 ^ sh else 0
  let n' := n + (if roundsUp r s n rem sh sticky then 1 else 0)
  let mag := (q - t.qmin).toNat * 2 ^ t.f + n'
  let inexact := decide (rem ≠ 0) || sticky
  let tiny := decide (lead < t.qmin + (t.f : Nat))
  if t.infBits ≤ mag then (t.overflow r.mode s, flagOF)
  else if r.fz && decide (mag < 2 ^ t.f) then (t.zero s, if mag = 0 && !inexact then 0 else flagUF)
  else (t.signBit s + mag, if tiny && inexact then flagUF else 0)

/-- Round a value: canonical NaN, infinity and zero as they are (R64). -/
def Fmt.place (t : Fmt) (r : Rnd) : Fl → FRes
  | .nan g => (t.nanBits, if g then flagIV else 0)
  | .inf s => (t.infinity s, 0)
  | .fin s m x => if m = 0 then (t.zero s, 0) else t.round r s m x false

/-- The flag of signalling NaN sources (R64). -/
def sigFlag : Fl → FlagBits
  | .nan true => flagIV
  | _ => 0

/-- The signed integer m × 2^(x - y) for y at most x. -/
def scaled (s : Bool) (m : Nat) (x y : Int) : Int :=
  let n : Int := (m * 2 ^ (x - y).toNat : Nat)
  if s then -n else n

/-- The exact sum of two values, rounded once; an exact zero of unlike signs is -0 only under RDN (R205). -/
def Fmt.add (t : Fmt) (r : Rnd) (a b : Fl) : FRes :=
  match a, b with
  | .nan _, _ => (t.nanBits, sigFlag a ||| sigFlag b)
  | _, .nan _ => (t.nanBits, sigFlag b)
  | .inf s, .inf u => if s = u then (t.infinity s, 0) else (t.nanBits, flagIV)
  | .inf s, _ => (t.infinity s, 0)
  | _, .inf u => (t.infinity u, 0)
  | .fin s m x, .fin u n y =>
    let z := min x y
    let v := scaled s m x z + scaled u n y z
    if v = 0 then (t.zero (if s = u then s else decide (r.mode = 3)), 0)
    else t.round r (decide (v < 0)) v.natAbs z false

/-- The value with its sign inverted. -/
def Fl.neg : Fl → Fl
  | .nan g => .nan g
  | .inf s => .inf (!s)
  | .fin s m x => .fin (!s) m x

/-- The exact product; NaN for 0 × infinity (R205). -/
def Fl.mul (a b : Fl) : Fl × FlagBits :=
  match a, b with
  | .nan _, _ => (.nan false, sigFlag a ||| sigFlag b)
  | _, .nan _ => (.nan false, sigFlag b)
  | .inf s, .inf u => (.inf (s != u), 0)
  | .inf s, .fin u n _ => if n = 0 then (.nan false, flagIV) else (.inf (s != u), 0)
  | .fin s m _, .inf u => if m = 0 then (.nan false, flagIV) else (.inf (s != u), 0)
  | .fin s m x, .fin u n y => (.fin (s != u) (m * n) (x + y), 0)

/-- The product rounded once. -/
def Fmt.mulR (t : Fmt) (r : Rnd) (a b : Fl) : FRes :=
  let p := a.mul b
  let q := t.place r p.1
  (q.1, p.2 ||| q.2)

/-- a × b + d rounded once (R206). -/
def Fmt.fma (t : Fmt) (r : Rnd) (a b d : Fl) : FRes :=
  let p := a.mul b
  let q := t.add r p.1 d
  (q.1, p.2 ||| q.2 ||| sigFlag d)

/-- The quotient rounded once; a finite nonzero number by zero is a signed infinity with DZ (R205). -/
def Fmt.div (t : Fmt) (r : Rnd) (a b : Fl) : FRes :=
  match a, b with
  | .nan _, _ => (t.nanBits, sigFlag a ||| sigFlag b)
  | _, .nan _ => (t.nanBits, sigFlag b)
  | .inf _, .inf _ => (t.nanBits, flagIV)
  | .inf s, .fin u _ _ => (t.infinity (s != u), 0)
  | .fin s _ _, .inf u => (t.zero (s != u), 0)
  | .fin s m x, .fin u n y =>
    if n = 0 then (if m = 0 then (t.nanBits, flagIV) else (t.infinity (s != u), flagDZ))
    else if m = 0 then (t.zero (s != u), 0)
    else t.round r (s != u) (m * 2 ^ 120 / n) (x - y - 120) (decide (m * 2 ^ 120 % n ≠ 0))

/-- The integer square root of `n` from its bits below `k` down, added to `r`. -/
def isqrtFrom (n : Nat) : Nat → Nat → Nat
  | 0, r => r
  | k + 1, r => if (r + 2 ^ k) * (r + 2 ^ k) ≤ n then isqrtFrom n k (r + 2 ^ k) else isqrtFrom n k r

/-- The integer square root. -/
def isqrt (n : Nat) : Nat := isqrtFrom n (Nat.log2 n / 2 + 1) 0

/-- The square root rounded once (R205, R209). -/
def Fmt.sqrt (t : Fmt) (r : Rnd) (a : Fl) : FRes :=
  match a with
  | .nan g => (t.nanBits, if g then flagIV else 0)
  | .inf s => if s then (t.nanBits, flagIV) else (t.infinity false, 0)
  | .fin s m x =>
    if m = 0 then (t.zero s, 0)
    else if s then (t.nanBits, flagIV)
    else
      let n := (if x % 2 = 0 then m else 2 * m) * 2 ^ 160
      let y := (x - x % 2 - 160) / 2
      let q := isqrt n
      t.round r false q y (decide (q * q ≠ n))

/-- 1 / a by RNE (R208, R209). -/
def Fmt.rcp (t : Fmt) (fz : Bool) (a : Fl) : FRes :=
  t.div ⟨0, 0, fz⟩ (.fin false 1 0) a

/-- 1 / √a by RNE (R208, R209). -/
def Fmt.rsq (t : Fmt) (fz : Bool) (a : Fl) : FRes :=
  match a with
  | .nan g => (t.nanBits, if g then flagIV else 0)
  | .inf s => if s then (t.nanBits, flagIV) else (t.zero false, 0)
  | .fin s m x =>
    if m = 0 then (t.infinity s, flagDZ)
    else if s then (t.nanBits, flagIV)
    else
      let n := if x % 2 = 0 then m else 2 * m
      let y := (x - x % 2) / 2
      let q := isqrt (2 ^ 240 / n)
      t.round ⟨0, 0, fz⟩ false q (-y - 120) (decide (q * q * n ≠ 2 ^ 240))

/-- 2^fr for a fraction of `n` bits, by the roots of 2: `c` is 2^(2^-i) at 256 bits, `acc` the product so far. -/
def pow2Frac (fr : Nat) : Nat → Nat → Nat → Nat
  | 0, _, acc => acc
  | n + 1, c, acc => pow2Frac fr n (isqrt (c * 2 ^ 256)) (if nbit fr n then acc * c / 2 ^ 256 else acc)

/-- 2^a by RNE (R208, R209). The irrational results are formed to 240 bits, with a rest below. -/
def Fmt.ex2 (t : Fmt) (fz : Bool) (a : Fl) : FRes :=
  match a with
  | .nan g => (t.nanBits, if g then flagIV else 0)
  | .inf s => if s then (t.zero false, 0) else (t.infinity false, 0)
  | .fin s m x =>
    let r : Rnd := ⟨0, 0, fz⟩
    if m = 0 then t.round r false 1 0 false
    else if 12 ≤ x + (Nat.log2 m : Nat) then t.round r false 1 (if s then -4096 else 4096) false
    else if x + (Nat.log2 m : Nat) < -60 then
      (if s then t.round r false (2 ^ 70 - 1) (-70) true else t.round r false (2 ^ 70) (-70) true)
    else
      let v := scaled s m x (-96)
      let n := v / ((2 ^ 96 : Nat) : Int)
      let fr := (v % ((2 ^ 96 : Nat) : Int)).toNat
      if fr = 0 then t.round r false 1 n false
      else t.round r false (pow2Frac fr 96 (isqrt (2 ^ 513)) (2 ^ 256)) (n - 256) true

/-- The next `n` binary digits of log2 y for y in [1, 2) at 400 bits, after the digits `acc`. -/
def log2Digits : Nat → Nat → Nat → Nat
  | 0, _, acc => acc
  | n + 1, y, acc =>
    let z := y * y / 2 ^ 400
    if 2 ^ 401 ≤ z then log2Digits n (z / 2) (2 * acc + 1) else log2Digits n z (2 * acc)

/-- log2 a by RNE (R208, R209). -/
def Fmt.lg2 (t : Fmt) (fz : Bool) (a : Fl) : FRes :=
  match a with
  | .nan g => (t.nanBits, if g then flagIV else 0)
  | .inf s => if s then (t.nanBits, flagIV) else (t.infinity false, 0)
  | .fin s m x =>
    let r : Rnd := ⟨0, 0, fz⟩
    if m = 0 then (t.infinity true, flagDZ)
    else if s then (t.nanBits, flagIV)
    else
      let k := Nat.log2 m
      let e : Int := x + (k : Nat)
      if m = 2 ^ k then (if e = 0 then (t.zero false, 0) else t.round r (decide (e < 0)) e.natAbs 0 false)
      else
        let v : Int := e * ((2 ^ 160 : Nat) : Int) + (log2Digits 160 (m * 2 ^ (400 - k)) 0 : Nat)
        if v < 0 then t.round r true (v.natAbs - 1) (-160) true else t.round r false v.natAbs (-160) true

/-- Whether a is below b; false with a NaN; -0 equals +0. -/
def Fl.lt (a b : Fl) : Bool :=
  match a, b with
  | .nan _, _ => false
  | _, .nan _ => false
  | .inf s, .inf u => s && !u
  | .inf s, _ => s
  | _, .inf u => !u
  | .fin s m x, .fin u n y => decide (scaled s m x (min x y) < scaled u n y (min x y))

/-- Whether a equals b; false with a NaN; -0 equals +0. -/
def Fl.eq (a b : Fl) : Bool :=
  match a, b with
  | .nan _, _ => false
  | _, .nan _ => false
  | _, _ => !a.lt b && !b.lt a

/-- Whether the value is a NaN. -/
def Fl.isNan : Fl → Bool
  | .nan _ => true
  | _ => false

/-- The sign of the value. -/
def Fl.sign : Fl → Bool
  | .nan _ => false
  | .inf s => s
  | .fin s _ _ => s

/-- The pattern after flushing of a subnormal source (R65). -/
def Fmt.flush (t : Fmt) (fz : Bool) (b : Nat) : Nat :=
  if fz && decide (nbits b t.f t.e = 0) then t.zero (nbit b (t.e + t.f)) else b

/-- FMIN and FMAX: one of the sources bit for bit; -0 counts as smaller than +0; NaN as R207 says. -/
def Fmt.minmax (t : Fmt) (isMax fz : Bool) (a b : Nat) : FRes :=
  let x := t.value fz a
  let y := t.value fz b
  let g := sigFlag x ||| sigFlag y
  if x.isNan && y.isNan then (t.nanBits, g)
  else if x.isNan then (t.flush fz b, g)
  else if y.isNan then (t.flush fz a, g)
  else
    let less := x.lt y || (x.eq y && x.sign && !y.sign)
    (if less != isMax then t.flush fz a else t.flush fz b, 0)

/-- Round sign × m × 2^x to an integer by a mode (R70). -/
def roundInt (r : Rnd) (s : Bool) (m : Nat) (x : Int) : Int :=
  let n := if 0 ≤ x then m * 2 ^ x.toNat else m / 2 ^ (-x).toNat
  let rem := if 0 ≤ x then 0 else m % 2 ^ (-x).toNat
  let k := n + (if roundsUp r s n rem (-x).toNat false then 1 else 0)
  if s then -(k : Int) else (k : Int)

/-- Float to integer in lo..hi: the nearest bound and IV outside, 0 and IV for NaN (R70). -/
def floatToInt (r : Rnd) (lo hi : Int) : Fl → Int × FlagBits
  | .nan _ => (0, flagIV)
  | .inf s => (if s then lo else hi, flagIV)
  | .fin s m x =>
    let v := roundInt r s m x
    if v < lo then (lo, flagIV) else if hi < v then (hi, flagIV) else (v, 0)

/-- An integer as a floating-point number, rounded (R70). -/
def Fmt.ofInt (t : Fmt) (r : Rnd) (v : Int) : FRes :=
  if v = 0 then (t.zero false, 0) else t.round r (decide (v < 0)) v.natAbs 0 false

/-- Conversion between floating formats: canonical NaN without a flag for a quiet one (R70, R212). -/
def Fmt.convert (t u : Fmt) (r : Rnd) (b : Nat) : FRes := u.place r (t.value r.fz b)

/-- FP32 sum by RNE with subnormals kept: merges, accumulators, atomics (R81, R83, R233). -/
def add32 (a b : Nat) : FRes := fmtF32.add rneKeep (fmtF32.value false a) (fmtF32.value false b)

/-- The next stochastic state (R68). -/
def nextSto (x : Word) : Word :=
  let a := x ^^^ (x <<< 13)
  let b := a ^^^ (a >>> 17)
  b ^^^ (b <<< 5)

/-- The stochastic state that SEED gives thread t of strand sid of weave wid (R69). -/
def seedSto (s : Word) (t sid wid : Nat) : Word :=
  let k : Word := BitVec.ofNat 32 (0x9E3779B9 * (t + 32 * sid + 512 * wid + 1))
  let x := s ^^^ k
  if x = 0 then 0x6A09E667 else x

end Sys2Proof.Machine
end

