-- ==== Sys2Proof/Machine/Flags.lean ====
section
/-! DEFINITION. The mode register and its fields (R56, R57), element types and their values (R61, R62, R192, R193), trap
causes (R299) and the layout of TCAUSE (R284). -/

namespace Sys2Proof.Machine

/-- A field of MR. -/
def mrField (mr : Word) (lo n : Nat) : Nat := nbits mr.toNat lo n

/-- Guard predicate (R56). -/
def mrGP (mr : Word) : Nat := mrField mr 0 3
/-- Guard sense. -/
def mrGS (mr : Word) : Bool := nbit mr.toNat 3
/-- Element type. -/
def mrET (mr : Word) : Nat := mrField mr 4 4
/-- Rounding mode. -/
def mrRM (mr : Word) : Nat := mrField mr 8 3
/-- Integer saturation. -/
def mrSAT (mr : Word) : Bool := nbit mr.toNat 11
/-- Flush subnormals. -/
def mrFZ (mr : Word) : Bool := nbit mr.toNat 12
/-- Scope. -/
def mrSCOPE (mr : Word) : Nat := mrField mr 13 3
/-- Trap enables in the bit order of FLAGS. -/
def mrTE (mr : Word) : Nat := mrField mr 16 4
/-- Home-domain hint. -/
def mrDH (mr : Word) : Nat := mrField mr 20 2

/-- Write `n` bits of a word at `lo`. -/
def setField (w : Word) (lo n v : Nat) : Word :=
  BitVec.ofNat 32 (w.toNat - nbits w.toNat lo n * 2 ^ lo + v % 2 ^ n * 2 ^ lo)

/-- Trap causes (R299). -/
def cTranslation : Nat := 1
def cProtection : Nat := 2
def cDataError : Nat := 3
def cXrank : Nat := 4
def cXbounds : Nat := 5
def cXflag : Nat := 6
def cMgroup : Nat := 7
def cMmember : Nat := 8
def cPutdesc : Nat := 9
def cRqhead : Nat := 10
def cRemote : Nat := 11
def cFetch : Nat := 16
def cInstr : Nat := 17
def cOperand : Nat := 18
def cMode : Nat := 19
def cSlot : Nat := 20
def cScope : Nat := 21
def cLoop : Nat := 22
def cConv : Nat := 23
def cLatch : Nat := 24
def cDivstack : Nat := 25
def cMisalign : Nat := 26
def cWeirSpill : Nat := 27
def cBreak : Nat := 28
def cSoftware : Nat := 29
def cArith : Nat := 30
def cStoreFault : Nat := 31

/-- TCAUSE from its fields (R284). -/
def tcauseWord (cause code pend : Nat) (replay : Bool) : Word64 :=
  BitVec.ofNat 64 ((if replay then 2 ^ 20 else 0) + pend % 16 * 2 ^ 16 + code % 128 * 2 ^ 8 + cause % 256)

/-- TCAUSE.CAUSE. -/
def tcCause (w : Word64) : Nat := nbits w.toNat 0 8
/-- TCAUSE.REPLAY. -/
def tcReplay (w : Word64) : Bool := nbit w.toNat 20

/-- Element width by ET code (R61). -/
def etWidth (et : Nat) : Nat := if et = 0 ∨ et = 1 ∨ et = 6 then 32 else if et = 4 ∨ et = 5 then 8 else 16
/-- Elements in a word. -/
def etCount (et : Nat) : Nat := 32 / etWidth et
/-- Signed integer types (R192). -/
def etSigned (et : Nat) : Bool := et == 0 || et == 2 || et == 4
/-- Integer types. -/
def etInt (et : Nat) : Bool := decide (et ≤ 5)
/-- Floating types. -/
def etFloat (et : Nat) : Bool := decide (6 ≤ et) && decide (et ≤ 8)
/-- The floating format of an ET code. -/
def etFmt (et : Nat) : Fmt := if et = 7 then fmtBF16 else if et = 8 then fmtF16 else fmtF32

/-- Element k of a word as a bit pattern. -/
def elemBits (et : Nat) (w : Word) (k : Nat) : Nat := nbits w.toNat (etWidth et * k) (etWidth et)

/-- Element k of a word as an integer by ET (R61). -/
def elemInt (et : Nat) (w : Word) (k : Nat) : Int :=
  if etSigned et then sint (etWidth et) (elemBits et w k) else (elemBits et w k : Int)

/-- The word made of `n` patterns of width `w`, element 0 lowest. -/
def packElems (w n : Nat) (f : Nat → Nat) : Word :=
  BitVec.ofNat 32 (((List.range n).map (fun k => f k % 2 ^ w * 2 ^ (w * k))).sum)

/-- Least value of an integer element. -/
def intMin (w : Nat) (sg : Bool) : Int := if sg then -((2 ^ (w - 1) : Nat) : Int) else 0
/-- Greatest value of an integer element. -/
def intMax (w : Nat) (sg : Bool) : Int := if sg then ((2 ^ (w - 1) : Nat) : Int) - 1 else ((2 ^ w : Nat) : Int) - 1

/-- fit: place an exact integer into an element of width w, wrapping or, under SAT, clamping (R193, R62). -/
def fitN (w : Nat) (sg sat : Bool) (x : Int) : Nat :=
  if sat then wrapN w (max (intMin w sg) (min x (intMax w sg))) else wrapN w x

/-- An elementwise integer function with fit (R193). -/
def mapInt (et : Nat) (sat : Bool) (g : Int → Int → Int) (a b : Word) : Word :=
  packElems (etWidth et) (etCount et) (fun k => fitN (etWidth et) (etSigned et) sat (g (elemInt et a k) (elemInt et b k)))

/-- An elementwise function on patterns. -/
def mapBits (et : Nat) (g : Nat → Nat → Nat) (a b : Word) : Word :=
  packElems (etWidth et) (etCount et) (fun k => g (elemBits et a k) (elemBits et b k))

/-- Bit t of a 32-bit mask. -/
def tbit (m : Word) (t : Nat) : Bool := m.getLsbD t

/-- The mask of the threads for which a test holds. -/
def maskOf (f : Nat → Bool) : Word := BitVec.ofNat 32 (((List.range 32).map (fun t => if f t then 2 ^ t else 0)).sum)

/-- The lowest thread of a mask, or 32. -/
def lowThread (m : Word) : Nat := ((List.range 32).find? (fun t => tbit m t)).getD 32

/-- The threads of a mask in ascending order. -/
def threadsOf (m : Word) : List Nat := (List.range 32).filter (fun t => tbit m t)

/-- The number of threads in a mask. -/
def countMask (m : Word) : Nat := (threadsOf m).length

end Sys2Proof.Machine
end

