-- ==== Sys2Proof/Machine/State.lean ====
section
/-! DEFINITION. The state of one Tarn: strands, crews, cores, home slices, engines, scheduler, translation, fabric, power and
the inputs from outside, as plain data; the reasons a step can stop; the state after reset. Tables are sparse and default to
the reset value of their entries. -/

namespace Sys2Proof.Machine

/-- Why the machine stops. -/
inductive Fault where
  /-- Raised by `step` when bring-up has stopped with BOOTSTAT.ERR = 1 and no register access is left to answer (R382, R383). Safe. -/
  | bringUpStopped
  deriving DecidableEq, Repr

/-- Why an instruction has no meaning. -/
inductive Refusal where
  /-- Raised by an arm of `exec` whose instruction has no meaning yet. Safe: nothing is claimed of it. -/
  | notModelled (mnemonic : String)
  deriving DecidableEq, Repr

/-- An entry of the reconvergence stack (R27): a mask to restore, or a pending path. -/
structure StackEntry where
  pending : Bool
  mask : Word
  pc : VAddr
  deriving DecidableEq, Repr, Inhabited

/-- An active hardware loop (R172). -/
structure LoopState where
  start : VAddr
  fin : VAddr
  remaining : Nat
  deriving DecidableEq, Repr, Inhabited

/-- What a tile, an accumulator or bytes of the buffer are held by (R266, R268). -/
inductive Lock where
  /-- A TLD or TST of the tile. -/
  | tile (k : Nat)
  /-- An MMA that reads the tile. -/
  | tileRead (k : Nat)
  /-- An MMA, an ALOAD or an ARFOLD that writes the accumulator; with `commits`, an ACOMMIT that has not read it out. -/
  | acc (k : Nat) (commits : Bool)
  /-- An ARFOLD into the accumulator. -/
  | fold (k : Nat)
  /-- A TST of the weave that writes some of these bytes of the view. -/
  | bytes (lo n : Nat)
  deriving DecidableEq, Repr, Inhabited

/-- Why a strand is not ready (R25, R26). -/
inductive Wait where
  | ready
  /-- A live future in an S register that the instruction reads (R53). -/
  | future (h : Word64)
  /-- TLWAIT on a timeline (R250). -/
  | timeline (sel v : Word64)
  /-- WWAIT on a weir phase (R253), with its instruction word. -/
  | weir (id : BitVec 16) (ph : Word) (word : Word64)
  /-- At a WCONV until every sub-gang of the weave is there (R36). -/
  | wconv
  /-- At a CBAR (R255). -/
  | cbar
  /-- At an XSWAP (R256). -/
  | xswap
  /-- Replies of a load or atomic outstanding (R232, R235). -/
  | reply
  /-- Writes of the strand unacknowledged: releases, fences, DRAIN (R123, R126, R182). -/
  | acks
  /-- Writes to other devices unacknowledged: a release of crew scope or less (R123). -/
  | remoteAcks
  /-- Writes of other strands of the crew, sent before request n, unacknowledged: a release of a wider scope, when what they wrote may have been
  released to this strand (R123, R125). -/
  | crewAcks (n : Nat)
  /-- An ordered flag to a device: writes to every other device unacknowledged (R128). -/
  | flag (dev : Nat)
  /-- An earlier write to one of these lines of other devices unacknowledged, or no path counter left (R113, R356). -/
  | remoteLines (pas : List Nat)
  /-- The last EXIT of a crew (R40). -/
  | exitWait
  /-- A full engine context (R247). -/
  | context (kind : Nat)
  /-- A full device launch queue (R273). -/
  | dlq
  /-- A page walk of the strand's own (R337). -/
  | walk
  /-- One of these results, by register code, is not yet available (R117, R194). -/
  | result (codes : List Nat)
  /-- The frame read of ERET (R303). -/
  | frame
  /-- YIELD until an issue period (R183). -/
  | yielded (period : Nat)
  /-- WAIT until a lease tick (R184). -/
  | deadline (tick : Nat)
  /-- A tile, an accumulator or bytes held by an operation (R266). -/
  | interlock (locks : List Lock)
  /-- The core's store-fault record queue is full (R246, R304). -/
  | sfrqFull
  /-- A matrix operation of the weave that has not retired (R181). -/
  | matrix
  /-- Nothing: its sub-gang is in an instruction that the strand has still to execute (R33, R34). -/
  | joined
  deriving DecidableEq, Repr, Inhabited

/-- A source of a join future (R250): a value, or a handle. -/
inductive JoinSrc where
  | val (v : Word64)
  | fut (h : Word64)
  deriving DecidableEq, Repr, Inhabited

/-- A join future of a strand: its sources, joins among them already opened, in order (R250). -/
structure Join where
  srcs : List JoinSrc
  deriving DecidableEq, Repr, Inhabited

/-- A trap to be taken: cause, code, pending flags, return address, value, replay (R299). -/
structure Trap where
  cause : Nat
  code : Nat
  pend : Nat
  epc : VAddr
  tval : Word64
  replay : Bool
  mask : Word
  deriving DecidableEq, Repr, Inhabited

/-- A load or atomic of a strand whose replies are outstanding (R231, R232). -/
structure MemOp where
  live : Bool
  /-- Data register, size code and sign of the destination. -/
  x : Nat
  z : Nat
  /-- Replies still to come. -/
  left : Nat
  /-- Threads that failed, the cause and address of the lowest of them. -/
  faults : Word
  cause : Nat
  tval : Word64
  deriving DecidableEq, Repr, Inhabited

/-- A strand (R22, R39, R44, R283, R286). -/
structure Strand where
  pc : VAddr
  amask : Word
  live : Word
  /-- Top entry first (R27). -/
  stack : List StackEntry
  /-- Innermost loop first (R172). -/
  loops : List LoopState
  /-- V registers: thread t of Vn at 32n + t. -/
  v : FMap Word
  /-- O registers: thread t of On at 32n + t. -/
  o : FMap Word
  /-- Latches: thread t of Ln at 32n + t; validity of L0..L3. -/
  l : FMap Word
  lvalid : BitVec 4
  /-- Uniform registers and their F bits (R53). -/
  s : FMap Word64
  f : Word
  /-- Predicate Pn as a mask of threads; P0 is not stored (R55). -/
  p : FMap Word
  mr : Word
  flags : BitVec 4
  /-- Stochastic state of each thread (R68, R69). -/
  sto : FMap Word
  /-- Privilege level 1 (R281). -/
  handler : Bool
  tcause : Word64
  tepc : Word64
  tval : Word64
  tmask : Word
  /-- The next instruction runs for the threads of TMASK only (R289). -/
  replaying : Bool
  /-- Handles that S28..S31 held live at trap entry (R303). -/
  heldAtEntry : FMap Word64
  joins : FMap Join
  wait : Wait
  /-- Results that arrive later: register number 0..127 (opnd7), 128 + predicate, and the period they arrive in (R194). -/
  late : List (Nat × Nat)
  mem : MemOp
  /-- Threads whose O7 waits for the tag of a posted store (R117). -/
  tagWait : Word
  /-- An SC store's acknowledgement is outstanding: no later access performs before it (R124). -/
  scHold : Bool
  /-- The threads whose tags were outstanding when the strand was saved; those that came since lie in `o` (R117, R246). -/
  tagSaved : Word
  /-- A FENCE.REL that its next write or atomic has still to satisfy: 0 none, 1 of crew scope or less, 2n + 2 of a wider scope, issued when the next
  request had number n, 2n + 3 both (R126). -/
  fence : Nat
  /-- Unacknowledged writes counted on the base die of each domain (R127). -/
  unacked0 : Nat
  unacked1 : Nat
  /-- Faults of page walks made for this strand: 64 KiB page number and cause (R337). -/
  walkFaults : List (Nat × Nat)
  /-- A trap that a reply or a fetch left to be taken (R301). -/
  pending : Option Trap
  /-- The sub-gang: the number of its lowest strand in the weave, or 16 + the strand's own after it left one in a trap (R33, R34). -/
  gang : Nat
  lastIssue : Nat
  /-- On the path that the branch named first (R35). -/
  favoured : Bool
  /-- The double-trap and termination bookkeeping: the strand was ended by TERM (R291). -/
  ended : Bool
  deriving DecidableEq, Repr, Inhabited

/-- The form of an accumulator (R60, R268). -/
structure AccForm where
  ranked : Bool
  len : Nat
  base : Word
  deriving DecidableEq, Repr, Inhabited

/-- A TLD (1) or TST (2) that still takes AB cycles: its weave, data and scale offsets, and when it is done (R262). -/
structure TileUse where
  kind : Nat
  weave : Nat
  data : Nat
  scale : Nat
  due : Nat
  deriving DecidableEq, Repr, Inhabited

/-- A crew (R22, R38, R39, R285). -/
structure Crew where
  /-- 0 when there is no such crew. -/
  launch : Nat
  stage : Nat
  index : Nat
  core : Nat
  /-- Occupies its core; false while switched out. -/
  resident : Bool
  weaves : Nat
  strands : Nat
  vgran : Nat
  tiles : Nat
  accs : Nat
  ab : Nat
  xwin : Nat
  /-- Context index and first slices of each weave: weave w at w. -/
  ctx : FMap Nat
  slices : FMap (List Nat)
  /-- Strand s of weave w at 16w + s. -/
  strand : FMap Strand
  /-- AB bytes written since creation by claim offset; an unlisted byte is free (R39). The exchange banks lie at a and a + w. -/
  abuf : FMap (Option Byte)
  abSeed : Nat
  /-- The exchange banks are swapped. -/
  swapped : Bool
  /-- Tile n: bytes at 8704n, side band at 8704n + 8192 (R60). -/
  tile : FMap Byte
  /-- Accumulator n in plain form: element (i, j) at 32768n + 256i + j. -/
  acc : FMap Word
  form : FMap AccForm
  /-- Accumulator n in ranked form: list of row i at 128n + i, rank 0 first. -/
  ranked : FMap (List (Word × Word))
  /-- Crew-barrier and exchange-barrier arrivals by strand number, the counts that the strands expect, the exchange count (R255, R256). -/
  cbar : FMap Bool
  /-- Strands released by a barrier or swap that have not yet passed it. -/
  passed : FMap Bool
  xarr : FMap Bool
  xmax : FMap Nat
  cx : Nat
  /-- TLD or TST of tile n still running (R262, R266); time at which the ARFOLD into accumulator n is done, 0 for none, and the
  weave that issued it (R268). -/
  tileBusy : FMap TileUse
  foldBusy : FMap Nat
  foldWeave : FMap Nat
  savebase : Word64
  /-- 0 running, 1 pre-emption requested, 2 saved, 3 restored in the present issue period (R312, R313). -/
  preempt : Nat
  /-- The crew is being retired: every strand has gone (R40). -/
  retiring : Bool
  deriving DecidableEq, Repr, Inhabited

/-- A launch record as accepted (R318). -/
structure LaunchRec where
  code : Word64
  compl : Word64
  gdx : Nat
  gdy : Nat
  gdz : Nat
  vgran : Nat
  weaves : Nat
  strands : Nat
  tiles : Nat
  accs : Nat
  stages : Nat
  flags : Nat
  cls : Nat
  ab : Nat
  xwin : Nat
  cistern : Nat
  dmask : Nat
  prio : Nat
  job : Nat
  wgroup : Nat
  rq : Word64
  csave : Word64
  stagemap : FMap Nat
  slot : FMap Word64
  deriving DecidableEq, Repr, Inhabited

/-- A launch (R321, R324..R327). -/
structure Launch where
  /-- 0 none, 1 live, 2 completed. -/
  state : Nat
  /-- Its place in the order of acceptance (R330); a claim of it lies in its cistern save area (R287, R331). -/
  accepted : Nat
  saved : Bool
  part : Nat
  space : Nat
  record : LaunchRec
  group : Nat
  /-- Handle of the LAUNCH future; 0 for none. -/
  fut : Word64
  /-- Host queue that carried it, plus 1; 0 for none. -/
  queue : Nat
  /-- Crews supplied from chunk k of stage s, and crews retired. -/
  supplied : FMap Nat
  retired : Nat
  /-- Chunks whose owner changed by a steal: stage and chunk to domain plus 1 (R326). -/
  owner : FMap Nat
  /-- The distributor of domain d received "none" for stage s: at 16d + s. -/
  noneSeen : FMap Bool
  /-- Crews not yet dispatched never are (R316). -/
  cut : Bool
  /-- Crews to be dispatched again: stage and crew index (R316). -/
  restarts : List (Nat × Nat)
  /-- Ended: the status, code and detail that came first (R321, R322). -/
  ending : Nat
  endCode : Nat
  endDetail : Nat
  deriving DecidableEq, Repr, Inhabited

/-- A core's cistern claim: launch, first record, count, seed of its free records; saved and evicted or not (R331). -/
structure Claim where
  launch : Nat
  base : Nat
  count : Nat
  seed : Nat
  evicted : Bool
  deriving DecidableEq, Repr, Inhabited

/-- A core (R82, R103, R283, R332, R378). -/
structure Core where
  tvec : Word64
  mxov : BitVec 48
  mxuf : BitVec 48
  mxnan : BitVec 48
  mxskip : BitVec 48
  /-- Idle counters at offsets 0x00..0x38: counter of offset 8i at i (R332). -/
  idle : FMap (BitVec 48)
  /-- Record i of column j at 256i + j, when written; a record of a claim that is not listed is free (R103). -/
  cistern : FMap (Option (BitVec 136))
  claims : List Claim
  /-- When the matrix array is free (R264, R266); the core cycles at which the buffer is done with the accesses of strands, and with TLD
  and TST (R99, R100). -/
  arrayFree : Nat
  abFree : Nat
  tileFree : Nat
  /-- Last core cycle at which the array, the cistern or slice k was used; gated or in retention (R378). -/
  arrayUsed : Nat
  arrayGated : Bool
  cistUsed : Nat
  cistAsleep : Bool
  sliceUsed : FMap Nat
  sliceGated : FMap Bool
  /-- Periods that each slice withholds under its power budget (R380). -/
  withheld : FMap Nat
  /-- Slices of a crew that was saved in the present issue period (R332); bytes that copies have moved through the buffer in it (R100). -/
  switched : FMap Bool
  abCopied : Nat
  deriving DecidableEq, Repr, Inhabited

/-- An engine context (R247): operations issued, the timeline, and resolved operations beyond it. -/
structure Ctx where
  issued : Nat
  timeline : Nat
  done : List Nat
  deriving DecidableEq, Repr, Inhabited

/-- What an engine operation does. -/
inductive OpKind where
  | none
  | copy (fn : Nat)
  | mma (f : FX)
  | acommit (k : Nat)
  | aload (k : Nat)
  | clrun
  | launch
  deriving DecidableEq, Repr, Inhabited

/-- An engine operation by its handle (R247..R249). -/
structure Op where
  kind : OpKind
  /-- Its number in its context, of which the handle holds the low 48 bits (R247, R248). -/
  number : Nat
  crew : Nat
  weave : Nat
  strand : Nat
  core : Nat
  part : Nat
  space : Nat
  launchId : Nat
  a : Word64
  b : Word64
  c : Word64
  /-- When it was issued; the record or command read at the start, as bytes (R135); the accumulator as read out (R270). -/
  issuedAt : Nat
  started : Bool
  shape : List Byte
  /-- Copy units done; segments arrived at the merge units; segments applied. -/
  units : FMap Bool
  applied : FMap Bool
  readOut : Bool
  data : FMap Word
  lists : FMap (List (Word × Word))
  form : AccForm
  cancel : Bool
  orphan : Bool
  refusedNan : Bool
  /-- The frame of each 64 KiB page of a home tile, translated at the source with the read-out (R270). -/
  frames : List Nat
  /-- Time plus 1 of the reset that its crew was lost in, while its last segment may still arrive (R21). -/
  lostAt : Nat
  /-- A copy that waits for credit of a receiver (R357); WDROP has removed the weir that it would credit (R254, R275). -/
  starved : Bool
  weirGone : Bool
  /-- What a lost copy out of a core still had to write of the granule that it was in, by unit (R274). -/
  kept : FMap (List Byte)
  /-- Bytes of a copy that are on their way to another device; time plus 1 since which it cannot be reached (R352, R357). -/
  away : Nat
  heldAt : Nat
  deriving DecidableEq, Repr, Inhabited

/-- A running command list (R361). -/
structure CollRun where
  live : Bool
  handle : Word64
  index : Nat
  /-- The running command as it was read at its start (R135); empty before. -/
  cmd : List Byte
  /-- Its collective operation plus 1, once it has joined (R363); bytes done; members served; its contribution has left. -/
  op : Nat
  done : Nat
  served : Nat
  up : Bool
  /-- Time plus 1 of its first attempt to send to an unreachable member (R352); it waits for credit (R357). -/
  heldAt : Nat
  starved : Bool
  /-- Index of the weir of this device that the running command names, 0 for none; WDROP has removed it (R254, R362). -/
  weir : Nat
  weirGone : Bool
  /-- The cause of a failure that another device reported; bytes that have performed there, or that a RECV has asked of
  a session's peer (R361). -/
  cause : Nat
  landed : Nat
  /-- The command's results have been formed; the parts of a line each that it has still to write: address, bytes (R136); the lines that it has
  counted already (R117). -/
  formed : Bool
  out : List (Nat × List Byte)
  lines : List Nat
  deriving DecidableEq, Repr, Inhabited

/-- A collective operation of a group as this device sees it (R363, R366). -/
structure CollOp where
  /-- Contributions that have arrived, by rank: whether, their elements, and LEN with the rest that members must agree on. -/
  here : FMap Bool
  parts : FMap (List Word)
  heads : FMap (Nat × Nat)
  /-- The packets of contributions that are not yet whole, by rank and first element, at 2^32 rank + element, and those of the result, by first
  element (R353). -/
  frags : FMap (List Word)
  resFrags : FMap (List Word)
  /-- The failure that resolves it everywhere: status (0 for none) and cause. -/
  failed : Nat
  cause : Nat
  /-- The result has come: elements, generation, members included, this member among them. -/
  ready : Bool
  result : List Word
  gen : Nat
  count : Nat
  incl : Bool
  /-- Bytes of an MCAST that have performed here, and at the root those that have performed at other members. -/
  landed : Nat
  acked : Nat
  /-- At the coordinator: ranks to which a result has still to leave, and whether their contributions were included (R357, R366). -/
  owed : List (Nat × Bool)
  /-- At the coordinator: tick plus 1 of the first contribution, members dropped, generation closed (R366). -/
  clock : Nat
  dropped : FMap Bool
  closed : Bool
  deriving DecidableEq, Repr, Inhabited

/-- A weir entry, or a spilled id with its deltas (R252, R311). -/
structure Weir where
  /-- 0 none, 1 resident, 2 spilled. -/
  state : Nat
  ea : Word
  eb : BitVec 48
  ca : Nat
  cb : Nat
  ph : Word
  changed : Nat
  deriving DecidableEq, Repr, Inhabited

/-- A store-fault record or a failure that waits for an entry (R304). -/
structure SfRecord where
  core : Nat
  crew : Nat
  strand : Nat
  launch : Nat
  pc : VAddr
  va : Word64
  cause : Nat
  z : Nat
  stamp : Nat
  waiting : Bool
  deriving DecidableEq, Repr, Inhabited

/-- One thread's access within a request: thread, address within the line, bytes, data (low bits first), compare data. -/
structure Access where
  thread : Nat
  off : Nat
  size : Nat
  data : BitVec 128
  cmp : BitVec 128
  va : Word64
  deriving DecidableEq, Repr, Inhabited

/-- What a request does at its home (R110). -/
inductive ReqKind where
  | none
  | load
  | store
  | atomic (aop : Nat)
  | atomicW (aop : Nat)
  /-- Puts of one instruction into one descriptor: the offset within the row is `off`, the token is `cmp`. -/
  | put (once : Bool)
  | stx (rank : Nat)
  /-- A write of an engine, a put or a merge unit that waits at the home of a line: its place in the line's order, under a number that
  names the writer (R95). -/
  | hold
  | reply
  | ack
  deriving DecidableEq, Repr, Inhabited

/-- A request to a home slice, or its reply or acknowledgement on the way back: one packet for each destination line (R354). -/
structure Req where
  kind : ReqKind
  /-- Issuing core, crew, strand and PC; device it came from. -/
  core : Nat
  crew : Nat
  strand : Nat
  pc : VAddr
  dev : Nat
  part : Nat
  space : Nat
  /-- Pod-physical line address (a multiple of 128), or for a put its descriptor. -/
  pa : Nat
  accs : List Access
  z : Nat
  x : Nat
  hint : Nat
  tag : Bool
  /-- The first 8-byte halves of a 128-bit access have performed (R116); the row that a put has been given, plus 1 (R241). -/
  half : Bool
  row : Nat
  flagged : Bool
  /-- On the way back: values, tags or put outcomes by thread, failing cause. -/
  vals : List (Nat × BitVec 128)
  tags : List (Nat × Nat)
  fail : Nat
  /-- Path number (R355, R356); a held ordered flag or a held request has not left; the number that another device gave its own
  request; the multicast group; the time of the first attempt to leave (R352); the sender is gone. -/
  path : Nat
  left : Bool
  peerId : Nat
  group : Nat
  /-- The MST that the copy belongs to, by the number of its first copy; its acknowledgement is at the source switch, where it waits for those of
  the other copies (R359). -/
  mst : Nat
  noted : Bool
  readyAt : Nat
  bornAt : Nat
  /-- Order of arrival among the requests that wait at a home. -/
  stamp : Nat
  dropped : Bool
  deriving DecidableEq, Repr, Inhabited

/-- A line held in a core's L1 under a lease; one that a Streaming load brought is the first to be evicted (R94). -/
structure L1Line where
  core : Nat
  line : Nat
  expiry : Nat
  streaming : Bool
  deriving DecidableEq, Repr, Inhabited

/-- A word held in a core's L1 instruction cache (R140). -/
structure ICell where
  core : Nat
  addr : Nat
  word : Word
  deriving DecidableEq, Repr, Inhabited

/-- A TLB entry (R339): core plus 2 of an L1 TLB, or the domain of a shared one; page number, page bits and leaf. -/
structure TlbEntry where
  owner : Nat
  part : Nat
  space : Nat
  page : Nat
  pageBits : Nat
  leaf : Word64
  deriving DecidableEq, Repr, Inhabited

/-- A page walk that is due (R337, R339), with the strands and the engine operations that wait for it; the core whose strand began it, or
`noCore`. -/
structure Walk where
  live : Bool
  dom : Nat
  part : Nat
  space : Nat
  va : Nat
  waiters : List (Nat × Nat)
  engines : List Nat
  core : Nat
  deriving DecidableEq, Repr, Inhabited

/-- A bind record (R328); its CORE field is kept as its difference from the slot's own core, so that it resets to that core. -/
structure Slot where
  launch : Nat
  coreOff : Nat
  maxc : Nat
  hold : Bool
  kind : Nat
  valid : Bool
  quota : Nat
  placed : Nat
  deriving DecidableEq, Repr, Inhabited

/-- A DLQ entry (R324); a cancelled one has left the queue and awaits its completion word (R250, R322). -/
structure DlqEntry where
  dom : Nat
  bytes : List Byte
  part : Nat
  space : Nat
  handle : Word64
  cancelled : Bool
  deriving DecidableEq, Repr, Inhabited

/-- A steal message or its answer on the bridge (R326). -/
structure StealMsg where
  live : Bool
  answer : Bool
  dom : Nat
  launch : Nat
  stage : Nat
  chunk : Option Nat
  deriving DecidableEq, Repr, Inhabited

/-- A page move in progress (R343, R344): the pump that makes it, the partition, the address of the page's leaf, the destination frame,
the address of that frame's list entry, and the leaf of the page that is moved next, to the released frame. -/
structure PageMove where
  live : Bool
  pump : Nat
  part : Nat
  leaf : Nat
  frame : Nat
  entry : Nat
  promote : Option Nat
  /-- BUSY is set; the requests that were then in flight to the page. -/
  begun : Bool
  before : List Nat
  /-- Lines copied; one more when the leaf has been written (R136, R344). -/
  copied : Nat
  deriving DecidableEq, Repr, Inhabited

/-- What arrives at this device's ports, or leaves them (R351, R353, R357, R359, R363, R366, R369, R389). -/
inductive Packet where
  | none
  /-- A request of another device for a home slice or descriptor of this one; its `peerId` is the number that device gave it. -/
  | request (r : Req)
  /-- The reply or acknowledgement of request `id` of the device that asked. -/
  | answer (id : Nat) (r : Req)
  /-- A multicast copy for the members of this device's group, with the source's number for each member. -/
  | multicast (r : Req) (ids : List (Nat × Nat))
  /-- Request `id` of this device, returned by a hop that could not forward it (R389). -/
  | returned (id : Nat)
  /-- A copy of a multicast for the member of request `id` of this device, returned by the gateway that replicates it (R359, R389). -/
  | copyReturned (id : Nat)
  /-- A request of a type that R353 does not name, by a device's number for it, and the error completion of request `id`. -/
  | unsupported (dev id : Nat)
  | refused (id : Nat)
  /-- Packet `id` of this device has been discarded on its way (R374). -/
  | lost (id : Nat)
  /-- A packet that only passes through this device's switch: its source and number there, where it goes, by which PATH; on its way back to its
  source. -/
  | transit (src id dst flits path : Nat) (back : Bool)
  /-- A packet of a member's contribution or start: operation, rank, LEN, the rest of what must agree, its first element and how many the
  contribution has, elements. -/
  | contribution (op rank len head first total : Nat) (elems : List Word)
  /-- A failing member's notice. -/
  | failure (op rank status cause : Nat)
  /-- A packet of a result, or the agreement of all members. -/
  | result (op gen count : Nat) (incl : Bool) (first total : Nat) (elems : List Word)
  /-- Bulk data for memory here: the device that sends it, operation, physical address or virtual one in a space, data, bytes to credit and weir.
  The operation is 4 key + 1 of an MCAST, 4 run + 2 of the RECV that asked, 4 run + 3 of the SEND that sends, 4 handle of a copy. -/
  | bulk (src op : Nat) (virt : Bool) (part space addr : Nat) (bytes : List Byte) (credit weir : Nat)
  /-- Bulk data of an operation has performed, or failed with a cause: operation, bytes. -/
  | landed (op n cause : Nat)
  /-- A RECV's request to a member of the pod for bytes at a physical address there: the device that asks, operation, its space, and the
  virtual address that they are for. -/
  | podPull (src op part space pa n va : Nat)
  /-- A RECV's request for data over Ultra Ethernet: operation to name in the answer, address, length. -/
  | pull (op addr len : Nat)
  /-- A demand of a bulk source, and a grant of 4 KiB by a receiver. -/
  | demand (dev bytes : Nat)
  | grant (dev : Nat)
  /-- A sealed packet of an Ultra Ethernet session: transport number, packet counter, bytes as received, content. -/
  | sealed (session number counter : Nat) (bytes : List Byte) (inner : Packet)
  /-- The acknowledgement of transport packet `number`, with the cause of a failed write. -/
  | ueAck (session number cause : Nat)
  /-- A side's nonce for an exchange of keys, and its signed ephemeral key message with the nonce; `inside`: it came sealed (R368, R369). -/
  | hello (session : Nat) (inside : Bool) (nonce : List Byte)
  | keyMessage (session : Nat) (inside : Bool) (nonce bytes : List Byte)
  /-- What another device's memory holds, as this device's engines would read it: an input. -/
  | seen (pa : Nat) (bytes : List Byte)
  deriving DecidableEq, Repr, Inhabited

/-- A packet that has left or is held here until a path to its destination is up (R389): destination, session plus 1 or 0, packet, flits;
the time of its first attempt to leave, the port plus 1 that it has been given while the bridge retrains, Ethernet ports from 64 on, and the domain
that it starts from, 2 for that of the port itself (R350, R352, R370). -/
structure Sent where
  dst : Nat
  sess : Nat
  p : Packet
  flits : Nat
  at_ : Nat
  port : Nat
  dom : Nat
  deriving DecidableEq, Repr, Inhabited

/-- An Ultra Ethernet session (R368, R369). -/
structure Session where
  /-- 0 IDLE, 1 KEYING, 2 OPEN, 3 FAILED. -/
  state : Nat
  keys : BitVec 576
  oldKeys : Option (BitVec 576)
  /-- Packet counter under the present keys; packets dropped because they failed authentication. -/
  counter : Nat
  badTags : Nat
  /-- The transport: next number, packets not yet acknowledged, numbers received. -/
  next : Nat
  unacked : List (Nat × Packet)
  /-- Numbers received, with the cause that was acknowledged. -/
  received : List (Nat × Nat)
  /-- Of the exchange that is under way or was last: this side's nonce, the peer's, and this side's key message; the peer's nonce of the last one
  that ended; packets that wait for the session to open (R368). -/
  ownNonce : List Byte
  peerNonce : List Byte
  ownKey : List Byte
  doneNonce : List Byte
  queued : List Packet
  /-- An exchange is under way while the session is OPEN (R369). -/
  rekeying : Bool
  deriving DecidableEq, Repr, Inhabited

/-- A RECV of another device that this one serves: who asked, its operation and space, where the bytes lie, how many, where they go (R357,
R362). -/
structure Pull where
  src : Nat
  op : Nat
  part : Nat
  space : Nat
  pa : Nat
  n : Nat
  va : Nat
  deriving DecidableEq, Repr, Inhabited

/-- A host access to device memory (R130): write or read of bytes at a device-local address. -/
structure HostAccess where
  live : Bool
  die : Nat
  write : Bool
  addr : Nat
  bytes : List Byte
  deriving DecidableEq, Repr, Inhabited

/-- An MMIO access (R297): by the management core at a device-local address or by a host at an offset of the BAR, a load or a store. -/
structure MmioAccess where
  live : Bool
  host : Bool
  /-- The far-tier die whose CXL port carries a host's access. -/
  die : Nat
  write : Bool
  addr : Nat
  size : Nat
  data : Word64
  deriving DecidableEq, Repr, Inhabited

/-- An uncorrectable error that a check reports (R374), by the ERRCNT number of the unit where it has one (R296). -/
inductive CheckError where
  | none
  /-- HBM4E, far-tier channel or L2 data: the line. -/
  | line (unit pa : Nat)
  /-- An L2 tag: the lines it may name. -/
  | tag (unit : Nat) (lines : List Nat)
  /-- A register file, tile, accumulator, AB or cistern of the chiplet. -/
  | chiplet (c : Nat)
  /-- An L1 cache or L1 TLB of the core. -/
  | l1 (core : Nat)
  /-- Entry i of the shared TLB of the domain. -/
  | sharedTlb (dom i : Nat)
  /-- A weir entry, by its index. -/
  | weirTable (key : Nat)
  /-- A bind record. -/
  | slotTable (key : Nat)
  /-- A store-fault record. -/
  | sfrq (key : Nat)
  /-- The packet of request or answer `id`, or packet `id` of this device, in a switch or bridge buffer. -/
  | packet (id : Nat)
  /-- A packet inside the device of the engine operation with handle h: a segment of a commit, data of a copy or of an ALOAD. -/
  | engine (h : Nat)
  /-- Packet k that has reached this device's ports. -/
  | arrived (k : Nat)
  deriving DecidableEq, Repr, Inhabited

/-- A UALink port (R350, R353, R378): its far end gives no link credit, an input; the time until which its budget withholds grants (R380). -/
structure Port where
  down : Bool
  stalled : Bool
  grantsHeld : Nat
  queue : Nat
  replays : Nat
  lowPower : Bool
  usedAt : Nat
  deriving DecidableEq, Repr, Inhabited

/-- A firmware image in the boot flash (R382), with what its configuration block holds: the policy word (R330), the
chiplet-partition map (R384) and the power budgets (R380), whose places in the block the spec does not give; the certificate that the flash keeps
beside it (R385). -/
structure BootImage where
  header : List Byte
  body : List Byte
  config : Word64
  chipMap : FMap Byte
  budgets : FMap Nat
  /-- The board's package limit (R12, R380). -/
  limit : Nat
  certificate : List Byte
  deriving DecidableEq, Repr, Inhabited

/-- What training and self-tests find at power-on (R383, R384): set bits and entries have failed. The entry of a chiplet is that of its last
self-test: an input, which a later test by the management core may clear. -/
structure SelfTests where
  bridge : Bool
  hbm : BitVec 16
  dies : BitVec 2
  cxl : BitVec 2
  ualink : FMap Bool
  eth : FMap Bool
  chips : FMap Bool
  deriving DecidableEq, Repr, Inhabited

/-- The sub-gang that issues: crew, weave and strands; with no strands, the weave whose sub-gang is to be chosen (R25, R33). -/
structure Issue where
  crew : Nat
  weave : Nat
  strands : List Nat
  deriving DecidableEq, Repr, Inhabited

/-- The whole machine. -/
structure State where
  /-- Base cycles since device reset; a core cycle is 2 of them, a lease tick 8, an issue period 16 (R6, R16, R25). -/
  time : Nat
  /-- What happens next where the spec fixes no order (R391): steps to be taken before anything else. The model's own field. -/
  agenda : List Instr
  /-- The weaves that the present issue period has still to consider, in the order of R25; the slices that have issued in it, at
  16 core + slice. -/
  issueQ : List Issue
  taken : FMap Bool
  /-- The sub-gang whose instruction is executing. -/
  cur : Issue
  /-- Counters of the model's own: the next request number, and the free values that each partition has taken (R10). -/
  nextId : Nat
  free : FMap Nat
  /-- This device's number in the pod (R58, R89). -/
  dev : Nat
  /-- Global memory by pod-physical address (other devices' memory as far as this device's requests and the packets that arrive show it); poisoned lines; lease expiry and sequence number of each line (R89, R90, R375). -/
  mem : FMap Byte
  poison : FMap Bool
  lease : FMap Nat
  seqs : FMap (BitVec 16)
  pairLocal : FMap Bool
  /-- Requests on their way to a home, requests waiting at one, answers on their way back: by number, in order (R112, R95). -/
  net : FMap Req
  home : FMap Req
  back : FMap Req
  l1 : List L1Line
  icache : List ICell
  tlb : List TlbEntry
  walks : FMap Walk
  /-- Walks that failed for an engine operation that waited: its number, the 64 KiB page (R339). -/
  engineFaults : List (Nat × Nat)
  crews : FMap Crew
  cores : FMap Core
  /-- Engine contexts at 1024 kind + number; operations and their results by handle; signal counters at 64 dom + i. -/
  ctxs : FMap Ctx
  ops : FMap Op
  results : FMap (Option Word64)
  signals : FMap Word64
  colls : FMap CollRun
  collOps : FMap CollOp
  collSeq : FMap Nat
  /-- Weirs at ((partition × 2^24 + group) × 2^16 + id). -/
  weirs : FMap Weir
  sfrq : FMap SfRecord
  launches : FMap Launch
  nextLaunch : Nat
  dlq : FMap DlqEntry
  slots : FMap Slot
  steals : FMap StealMsg
  firstBound : FMap Bool
  /-- The JOB whose filler queue a partition visited last, plus 1 (R330). -/
  fillerJob : FMap Nat
  /-- MMIO registers and tables (R296). -/
  bootstat : Word64
  fabcfg : Word64
  pumpCfg : FMap Word64
  fwcfg : Word64
  chipctl : FMap Word64
  asroot : FMap Word64
  plist : FMap Word64
  plcnt : FMap Word64
  pview : FMap Bool
  groute : FMap Word64
  mgroup : FMap Bool
  cgroup : FMap Word64
  sessTab : FMap Byte
  sessions : FMap Session
  hostq : FMap Word64
  errcnt : FMap Word64
  mailbox : FMap Byte
  /-- Reports that have gone out, each with the certificate of the device's key (R385, R386). -/
  reports : List (List Byte × List Byte)
  msix : FMap Nat
  moves : FMap PageMove
  /-- The ticks of the pumps' next evaluation and halving (R343). -/
  evalAt : Nat
  decayAt : Nat
  /-- Fabric: ports; packets arriving, sent out, and held until a path is up; path counters; hops beyond this device that are down,
  by 64 × target + path; the far end of each group's circuit plus 1; queries for ordered flags (R350..R356, R389). -/
  ports : FMap Port
  packetsIn : FMap Packet
  packetsOut : FMap Sent
  held : FMap Sent
  pathCnt : FMap Nat
  hopsDown : FMap Bool
  circuits : FMap Nat
  flagAsk : FMap Nat
  /-- Pacing (R357). As receiver: bytes demanded by each device and not yet granted, the device served last, the window of 256 base
  cycles and the grants issued in it. As source: bytes that each transfer has asked a device for and not been granted, at 1024 transfer + device;
  bytes granted, by device. -/
  demands : FMap Nat
  pulls : FMap Pull
  lastServed : Nat
  grantWindow : Nat
  grantsUsed : Nat
  asked : FMap Nat
  credits : FMap Nat
  /-- Bridge retraining; domain routers' ports, pseudo-channels and CXL ports: powered down, asleep, down (R370, R378, R388). -/
  bridgeDown : Bool
  bridgeAt : Nat
  bridgeResent : Nat
  routerDown : FMap Bool
  routerUsed : FMap Nat
  channelAsleep : FMap Bool
  channelUsed : FMap Nat
  ethDown : FMap Bool
  ethLow : FMap Bool
  ethUsed : FMap Nat
  cxlDown : FMap Bool
  /-- Chiplets: throttled by temperature; degrees that sensor j of chiplet c reads, at 4c + j, an input; power windows (R380, R381). -/
  throttled : FMap Bool
  sensors : FMap Nat
  windowAt : Nat
  packageLimit : Nat
  budgets : FMap Nat
  activity : FMap Nat
  scrubAt : Nat
  scrubs : Nat
  rollbackFuse : Nat
  rollbackRaised : Bool
  image : BootImage
  image2 : BootImage
  tests : SelfTests
  imageUsed : Nat
  /-- Inputs from outside: host accesses and what they read, MMIO accesses, errors (R130, R297, R374). -/
  hostIn : FMap HostAccess
  hostOut : List (List Byte)
  mmioIn : FMap MmioAccess
  mmioOut : List Word64
  /-- MMIO stores that have been acknowledged (R297). -/
  mmioAcks : List Nat
  errIn : FMap CheckError
  /-- Correctable errors that lie in memory, as the unit that will correct each; interrupts of the management core (R374, R376). -/
  correctable : List Nat
  mgmtIrq : Nat
  deriving DecidableEq, Repr

/-- FABCFG after reset: REACH 0x0100, PACE 0x40, VAL 1 (R358). -/
def fabcfgReset : Word64 := 0x01004001

/-- A tier-pump configuration after reset: CDIE0 and CDIE1 0x40, DECAY 1 (R342). -/
def pumpCfgReset : Word64 := 0x404002

/-- The machine right after reset: nothing is resident, every chiplet fenced (an unlisted CHIPCTL has FENCE = 1), BOOTSTAT at
stage 0, memory with nothing listed. -/
def State.reset : State where
  time := 0
  agenda := []
  issueQ := []
  taken := []
  cur := ⟨0, 0, []⟩
  nextId := 1
  free := []
  dev := 0
  mem := []
  poison := []
  lease := []
  seqs := []
  pairLocal := []
  net := []
  home := []
  back := []
  l1 := []
  icache := []
  tlb := []
  walks := []
  engineFaults := []
  crews := []
  cores := []
  ctxs := []
  ops := []
  results := []
  signals := []
  colls := []
  collOps := []
  collSeq := []
  weirs := []
  sfrq := []
  launches := []
  nextLaunch := 1
  dlq := []
  slots := []
  steals := []
  firstBound := []
  fillerJob := []
  bootstat := 0
  fabcfg := fabcfgReset
  pumpCfg := [(0, pumpCfgReset), (1, pumpCfgReset)]
  fwcfg := 0
  chipctl := []
  asroot := []
  plist := []
  plcnt := []
  pview := []
  groute := []
  mgroup := []
  cgroup := []
  sessTab := []
  sessions := []
  hostq := []
  errcnt := []
  mailbox := []
  reports := []
  msix := []
  moves := []
  evalAt := 0
  decayAt := 0
  ports := []
  packetsIn := []
  packetsOut := []
  held := []
  pathCnt := []
  hopsDown := []
  circuits := []
  flagAsk := []
  demands := []
  pulls := []
  lastServed := 0
  grantWindow := 0
  grantsUsed := 0
  asked := []
  credits := []
  bridgeDown := false
  bridgeAt := 0
  bridgeResent := 0
  routerDown := []
  routerUsed := []
  channelAsleep := []
  channelUsed := []
  ethDown := []
  ethLow := []
  ethUsed := []
  cxlDown := []
  throttled := []
  sensors := []
  windowAt := 0
  packageLimit := 0
  budgets := []
  activity := []
  scrubAt := 0
  scrubs := 0
  rollbackFuse := 0
  rollbackRaised := false
  image := default
  image2 := default
  tests := default
  imageUsed := 0
  hostIn := []
  hostOut := []
  mmioIn := []
  mmioOut := []
  mmioAcks := []
  errIn := []
  correctable := []
  mgmtIrq := 0

end Sys2Proof.Machine
end

