-- ==== Sys2Proof/Machine/Operands.lean ====
section
/-! DEFINITION. Registers of a strand, the operand forms of R46 and R47, active sets (R55), latches (R50), and what an
instruction names: the checks of R157 steps 3 to 10. -/

namespace Sys2Proof.Machine

/-- The number of strand s of weave w within its crew. -/
def strandKey (w s : Nat) : Nat := 16 * w + s

/-- The weave of a strand number. -/
def weaveOf (k : Nat) : Nat := k / 16
/-- The index of a strand number within its weave (SID). -/
def sidOf (k : Nat) : Nat := k % 16

/-- Strand k of a crew. -/
def Crew.st (c : Crew) (k : Nat) : Strand := mget c.strand k
/-- A crew with strand k replaced. -/
def Crew.setSt (c : Crew) (k : Nat) (st : Strand) : Crew := { c with strand := mset c.strand k st }
/-- Crew u. -/
def State.crew (s : State) (u : Nat) : Crew := mget s.crews u
/-- Replace crew u. -/
def State.setCrew (s : State) (u : Nat) (c : Crew) : State := { s with crews := mset s.crews u c }
/-- Strand k of crew u. -/
def State.strand (s : State) (u k : Nat) : Strand := (s.crew u).st k
/-- Replace strand k of crew u. -/
def State.setStrand (s : State) (u k : Nat) (st : Strand) : State := s.setCrew u ((s.crew u).setSt k st)
/-- Core n. -/
def State.core (s : State) (n : Nat) : Core := mget s.cores n
/-- Replace core n. -/
def State.setCore (s : State) (n : Nat) (c : Core) : State := { s with cores := mset s.cores n c }
/-- Launch l. -/
def State.launchOf (s : State) (l : Nat) : Launch := mget s.launches l
/-- Replace launch l. -/
def State.setLaunch (s : State) (l : Nat) (x : Launch) : State := { s with launches := mset s.launches l x }

/-- Thread t of Vn. -/
def Strand.vreg (st : Strand) (n t : Nat) : Word := mget st.v (32 * n + t)
/-- Thread t of On. -/
def Strand.oreg (st : Strand) (n t : Nat) : Word := mget st.o (32 * n + t)
/-- Thread t of Ln. -/
def Strand.lreg (st : Strand) (n t : Nat) : Word := mget st.l (32 * n + t)
/-- S register; S0 reads as zero (R53). -/
def Strand.sreg (st : Strand) (n : Nat) : Word64 := if n = 0 then 0 else mget st.s n
/-- Write an S register: S0 ignores it, the F bit is cleared (R53). -/
def Strand.setS (st : Strand) (n : Nat) (x : Word64) : Strand :=
  if n = 0 then st else { st with s := mset st.s n x, f := st.f &&& ~~~(1#32 <<< n) }
/-- Return a future in an S register: S0 discards the handle (R53). -/
def Strand.setFut (st : Strand) (n : Nat) (h : Word64) : Strand :=
  if n = 0 then st else { st with s := mset st.s n h, f := st.f ||| (1#32 <<< n) }
/-- The register holds a live future (R53). -/
def Strand.isFut (st : Strand) (n : Nat) : Bool := n != 0 && tbit st.f n
/-- Predicate n; P0 reads as all ones (R55). -/
def Strand.pred (st : Strand) (n : Nat) : Word := if n = 0 then 0xFFFFFFFF else mget st.p n
/-- Write a predicate in the threads of a mask; P0 ignores it (R55). -/
def Strand.setPred (st : Strand) (n : Nat) (act val : Word) : Strand :=
  if n = 0 then st else { st with p := mset st.p n ((mget st.p n &&& ~~~act) ||| (val &&& act)) }

/-- Write the threads of a mask in a table of 32 threads at a base, threads 0 to n - 1. -/
def writeThreads (m : FMap Word) (base : Nat) (act : Word) (r : Nat → Word) : Nat → FMap Word
  | 0 => m
  | n + 1 =>
    let m' := writeThreads m base act r n
    if tbit act n then mset m' (base + n) (r n) else m'

/-- Write a V or O register in the threads of a mask. -/
def Strand.writeReg (st : Strand) (d : Opnd) (act : Word) (r : Nat → Word) : Strand :=
  match d with
  | .v n => { st with v := writeThreads st.v (32 * n.val) act r 32 }
  | .o n => { st with o := writeThreads st.o (32 * n.val) act r 32 }
  | _ => st

/-- Write register n + j of a V group. -/
def Strand.writeV (st : Strand) (n : Nat) (act : Word) (r : Nat → Word) : Strand :=
  { st with v := writeThreads st.v (32 * n) act r 32 }

/-- A 32-bit vector source in thread t (R46). -/
def Strand.src (st : Strand) (o : Opnd) (t : Nat) : Word :=
  match o with
  | .v n => st.vreg n.val t
  | .o n => st.oreg n.val t
  | .l n => st.lreg n.val t
  | .s n => (st.sreg n.val).setWidth 32
  | .rsv _ => 0

/-- Register n + j of the group that starts at a V operand. -/
def Strand.srcAt (st : Strand) (o : Opnd) (j t : Nat) : Word :=
  match o with
  | .v n => st.vreg (n.val + j) t
  | _ => st.src o t

/-- A 64-bit vector source: a V pair, or all of an S register (R47). -/
def Strand.src64 (st : Strand) (o : Opnd) (t : Nat) : Word64 :=
  match o with
  | .s n => st.sreg n.val
  | _ => (st.srcAt o 1 t) ++ (st.srcAt o 0 t)

/-- A 128-bit vector source: a V quad (R47). -/
def Strand.src128 (st : Strand) (o : Opnd) (t : Nat) : BitVec 128 :=
  (st.srcAt o 3 t) ++ (st.srcAt o 2 t) ++ (st.srcAt o 1 t) ++ (st.srcAt o 0 t)

/-- The threads of a replay (R289), or the active mask. -/
def Strand.umask (st : Strand) : Word := if st.replaying then st.tmask &&& st.live else st.amask

/-- The active set of a guarded instruction (R55), or the threads of a replay. -/
def Strand.active (st : Strand) : Word :=
  if st.replaying then st.tmask &&& st.live
  else (if mrGS st.mr then ~~~(st.pred (mrGP st.mr)) else st.pred (mrGP st.mr)) &&& st.amask

/-- Shift the latches and place a result in L0; threads outside the active set receive a free value (R50, R10). DESIGN CHOICE: a result that is still
to come moves with its latch, and the instruction does not wait for it; the spec has a later writer of a register wait (R194) and does not speak of
the shift. -/
def Strand.latchPush (st : Strand) (act : Word) (r : Nat → Word) (free : Nat) : Strand :=
  let sh := fun (m : FMap Word) (n : Nat) => writeThreads m (32 * (n + 1)) 0xFFFFFFFF (fun t => st.lreg n t) 32
  { st with
    l := writeThreads (sh (sh (sh st.l 2) 1) 0) 0 0xFFFFFFFF
          (fun t => if tbit act t then r t else Config.freeWord (32 * free + t)) 32
    lvalid := (st.lvalid <<< 1) ||| 1
    late := (st.late.map (fun e => if 72 ≤ e.1 && decide (e.1 < 76) then (e.1 + 1, e.2) else e)).filter
              (fun e => decide (e.1 ≠ 76)) }

/-- The latches become invalid (R51). -/
def Strand.latchKill (st : Strand) : Strand := { st with lvalid := 0 }

/-- A vector result: D unless N = 1, then the latches (R48, R50, R143). -/
def Strand.result (st : Strand) (n : Bool) (d : Opnd) (act : Word) (r : Nat → Word) (free : Nat) : Strand :=
  (if n then st else st.writeReg d act r).latchPush act r free

/-- A result arrives in a later issue period (R194): its register code, and L0 when it goes there too. -/
def Strand.delay (st : Strand) (codes : List Nat) (period : Nat) : Strand :=
  { st with late := codes.map (fun c => (c, period)) ++ st.late }

/-- Flags are sticky (R59). -/
def Strand.orFlags (st : Strand) (fl : BitVec 4) : Strand := { st with flags := st.flags ||| fl }

/-- What an instruction names and which checks of R157 it makes. -/
structure Use where
  /-- A PSYS word: at level 0 it is illegal whatever its fields (R281). -/
  priv : Bool := false
  /-- 32-bit vector sources of any class. -/
  src : List Opnd := []
  /-- V or O destinations. -/
  out : List Opnd := []
  /-- Groups of V registers: first register and size, aligned to the size (R47, R147). -/
  grp : List (Opnd × Nat) := []
  /-- 64-bit sources: an even V pair or an S register (R47). -/
  src64 : List Opnd := []
  /-- Groups and 64-bit sources whose size MR decides (PACK, UNPK), and the check of R213 that precedes them. -/
  grpMr : Word → List (Opnd × Nat) := fun _ => []
  src64Mr : Word → List Opnd := fun _ => []
  early : Word → Bool := fun _ => false
  /-- Operands that must name an S register, read. -/
  sin : List Opnd := []
  /-- Operands that must name an S register, written. -/
  sout : List Opnd := []
  /-- S registers read by number. -/
  sr : List Nat := []
  /-- S registers written by number. -/
  sw : List Nat := []
  /-- S registers named by number that are taken as they stand: a live future in one is not waited for. -/
  nm : List Nat := []
  /-- A further operand check (step 3): true when it fails. -/
  bad : Crew → Strand → Bool := fun _ _ => false
  /-- The mode fields that are read hold a reserved value (step 4). -/
  mode : Word → Bool := fun _ => false
  /-- A format slot of the wrong kind (step 5), from the launch's slots. -/
  slot : (Nat → Word64) → Bool := fun _ => false
  /-- ILLEGAL_SCOPE (step 6). -/
  scope : Word → Bool := fun _ => false
  /-- A branch (step 7, R175). -/
  branch : Bool := false
  /-- A converged-weave instruction (step 8, R37). -/
  weave : Bool := false
  /-- DIVSTACK (step 10). -/
  stack : Strand → Bool := fun _ => false

/-- A 32-bit source names a register of the allocation (R45, R46). -/
def srcOk (alloc : Nat) : Opnd → Bool
  | .v n => decide (n.val < alloc)
  | .o _ => true
  | .l _ => true
  | .s _ => true
  | .rsv _ => false

/-- A vector destination is a V register of the allocation or an O register (R46). -/
def outOk (alloc : Nat) : Opnd → Bool
  | .v n => decide (n.val < alloc)
  | .o _ => true
  | _ => false

/-- A group of V registers is aligned and inside the allocation (R47). -/
def grpOk (alloc : Nat) (o : Opnd) (size : Nat) : Bool :=
  match o with
  | .v n => decide (n.val % size = 0) && decide (n.val + size ≤ alloc)
  | _ => false

/-- A 64-bit source (R47). -/
def src64Ok (alloc : Nat) (o : Opnd) : Bool :=
  match o with
  | .s _ => true
  | _ => grpOk alloc o 2

/-- An operand that must name an S register. -/
def isS : Opnd → Bool
  | .s _ => true
  | _ => false

/-- The class checks of step 3 of R157 fail. -/
def Use.classBad (x : Use) (c : Crew) (st : Strand) : Bool :=
  let a := 8 * c.vgran
  !(x.src.all (srcOk a) && x.out.all (outOk a) && x.sin.all isS && x.sout.all isS) || x.bad c st

/-- The group checks of step 3 fail (R47, R147). -/
def Use.groupBad (x : Use) (c : Crew) (st : Strand) : Bool :=
  let a := 8 * c.vgran
  !((x.grp ++ x.grpMr st.mr).all (fun g => grpOk a g.1 g.2) && (x.src64 ++ x.src64Mr st.mr).all (src64Ok a))

/-- An invalid latch is named (R52). -/
def Use.latchBad (x : Use) (st : Strand) : Bool :=
  x.src.any (fun o => match o with | .l n => !st.lvalid.getLsbD n.val | _ => false)

/-- A branch in the last word of an active loop's body (R175). -/
def lastInLoop (st : Strand) : Bool := st.loops.any (fun l => decide (l.fin = st.pc + 4))

/-- The first failing check of steps 2 to 10, or 0 (R157, R281). `conv` says whether R37 holds, `slots` are the format slots. -/
def Use.cause (x : Use) (c : Crew) (st : Strand) (slots : Nat → Word64) (conv : Bool) : Nat :=
  if x.priv && !st.handler then cInstr
  else if x.classBad c st then cOperand
  else if x.early st.mr then cMode
  else if x.groupBad c st then cOperand
  else if x.mode st.mr then cMode
  else if x.slot slots then cSlot
  else if x.scope st.mr then cScope
  else if x.branch && lastInLoop st then cLoop
  else if x.weave && !conv then cConv
  else if x.latchBad st then cLatch
  else if x.stack st then cDivstack
  else 0

/-- The S registers that the instruction reads as sources (R53). -/
def Use.reads (x : Use) : List Nat :=
  (x.src ++ x.src64 ++ x.sin).filterMap Opnd.sNum ++ x.sr

/-- Codes of all registers that the instruction names, for results that arrive later (R194). -/
def Use.names (x : Use) (mr : Word) : List Nat :=
  (x.src ++ x.out ++ x.src64 ++ x.sin ++ x.sout).map Opnd.code ++
  (x.grp ++ x.grpMr mr).flatMap (fun g => (List.range g.2).map (fun j => g.1.code + j)) ++
  (x.src64 ++ x.src64Mr mr).filterMap (fun o => match o with | .v n => some (n.val + 1) | _ => none) ++
  (x.sr ++ x.sw ++ x.nm).map (fun n => 0x60 + n)

/-- ET must be of a family, else ILLEGAL_MODE (R192, R57). -/
def etBad (ok : Nat → Bool) (mr : Word) : Bool := !ok (mrET mr)
/-- The rounding mode is read (R57). -/
def rmBad (mr : Word) : Bool := decide (5 < mrRM mr)

end Sys2Proof.Machine
end

