-- ==== Sys2Proof/Machine/Memory.lean ====
section
/-! DEFINITION. Clocks, cores and home slices (R14, R16, R89..R92), bytes and lines of global memory, leases and sequence
numbers (R94..R96, R117, R375), page walks and TLBs (R335..R339). Addresses are pod-physical; memory covers the pod, and this
device's cores, engines and walkers are those of State. -/

namespace Sys2Proof.Machine

/-- Lease ticks since reset (R16). -/
def State.ltime (s : State) : Nat := s.time / 8
/-- Core cycles since reset. -/
def State.clock (s : State) : Nat := s.time / 2
/-- The issue period (R25). -/
def State.period (s : State) : Nat := s.time / 16

/-- Chiplet of a core (R14). -/
def chipOf (core : Nat) : Nat := core / 12
/-- Domain of a core (R14). -/
def domOf (core : Nat) : Nat := core / 384
/-- A number that is no core's: the management cores and the pumps, which walk the tables themselves. -/
def noCore : Nat := 2 ^ 20
/-- Number of cores. -/
def coreCount : Nat := 768
/-- A number that stands for an engine of a domain outside the cores: the collective engine, the put hardware of the home slices. -/
def domEngine (dom : Nat) : Nat := noCore + 2 + dom % 2
/-- The domain whose shared TLB an engine looks up, `noCore` for the management cores, which have none (R339). -/
def engDom (core : Nat) : Nat := if core < coreCount then domOf core else if core < noCore + 2 then noCore else core - noCore - 2

/-- Device field of a pod-physical address (R89). -/
def devOf (pa : Nat) : Nat := pa / 2 ^ 44
/-- Device-local address. -/
def localOf (pa : Nat) : Nat := pa % 2 ^ 44
/-- The near and far tiers, less the far-tier dies that failed training (R89, R383). -/
def State.inTiers (s : State) (pa : Nat) : Bool :=
  let a := localOf pa
  decide (a < 2 ^ 40)
  || (decide (2 ^ 40 ≤ a) && decide (a < 2 * 2 ^ 40) && (!s.bootstat.getLsbD 32 || decide (devOf pa ≠ s.dev)))
  || (decide (2 * 2 ^ 40 ≤ a) && decide (a < 3 * 2 ^ 40) && (!s.bootstat.getLsbD 33 || decide (devOf pa ≠ s.dev)))
/-- The line of an address (R90). -/
def lineOf (pa : Nat) : Nat := pa / 128 * 128

/-- The home slice of an address of this device (R92). -/
def State.homeSlice (s : State) (pa : Nat) : Nat :=
  let a := localOf pa
  if a < 2 ^ 40 then
    let m := nbits a 31 9
    if mget s.pairLocal m then
      256 * nbits a 30 1 + (((nbits a 12 8).xor (nbits a 20 8)).xor (nbits a 28 2)).xor (m % 256)
    else ((nbits a 12 9).xor (nbits a 21 9)).xor m
  else
    256 * (nbits a 40 2 - 1) + (((nbits a 12 8).xor (nbits a 20 8)).xor (nbits a 28 8)).xor (nbits a 36 4)

/-- The pseudo-channels of some lines: those of this device's near tier, by home slice (R92, R378). -/
def State.channels (s : State) (lines : List Nat) : List Nat :=
  (lines.filter (fun pa => decide (devOf pa = s.dev) && decide (localOf pa < 2 ^ 40))).map s.homeSlice

/-- The pseudo-channels of some lines are out of self-refresh. -/
def State.channelsReady (s : State) (lines : List Nat) : Bool :=
  (s.channels lines).all (fun ch => !mget s.channelAsleep ch && decide (mget s.channelUsed ch ≤ s.time))

/-- Those that are asleep leave self-refresh in 512 base cycles (R378). -/
def State.wakeChannels (s : State) (lines : List Nat) : State :=
  (s.channels lines).foldl (fun s ch => if mget s.channelAsleep ch
    then { s with channelAsleep := mset s.channelAsleep ch false, channelUsed := mset s.channelUsed ch (s.time + 512) } else s) s

/-- They are in use: their idle counts restart. -/
def State.useChannels (s : State) (lines : List Nat) : State :=
  { s with channelUsed := (s.channels lines).foldl (fun m ch => mset m ch (max s.time (mget m ch))) s.channelUsed }

/-- The canonical form of global memory: addresses strictly rising, no byte listed that is 0, which an unlisted address reads as. -/
def Memory.wf (m : FMap Byte) : Bool := mwf m
/-- Bytes of memory. -/
def State.rdBytes (s : State) (pa n : Nat) : List Byte := mgetList s.mem pa n
/-- A little-endian number of `n` bytes. -/
def State.rdNat (s : State) (pa n : Nat) : Nat := leNat (s.rdBytes pa n)
/-- Write bytes. -/
def State.wrBytes (s : State) (pa : Nat) (l : List Byte) : State := { s with mem := msetList s.mem pa l }
/-- The line is poisoned (R375). -/
def State.poisoned (s : State) (pa : Nat) : Bool := mget s.poison (lineOf pa)
/-- The write sequence number of a line rises by 1 (R117). -/
def State.bumpSeq (s : State) (pa : Nat) : State :=
  { s with seqs := mset s.seqs (lineOf pa) (mget s.seqs (lineOf pa) + 1) }
/-- No lease on the line is in force (R95). -/
def State.leaseFree (s : State) (pa : Nat) : Bool := decide (mget s.lease (lineOf pa) ≤ s.ltime)

/-- The parts of a byte string that lie in one line each, with their addresses. -/
def lineSpans (pa : Nat) (l : List Byte) : List (Nat × List Byte) :=
  let n := 128 - pa % 128
  let rest := l.drop n
  (if l.isEmpty then [] else [(pa, l.take n)]) ++
  (List.range ((rest.length + 127) / 128)).map (fun i => (pa + n + 128 * i, (rest.drop (128 * i)).take 128))

/-- An engine's write of one line or part of it: counts once, and a whole line clears the poison (R117, R136, R375). -/
def State.wrSpan (s : State) (x : Nat × List Byte) : State :=
  let s1 := (s.wrBytes x.1 x.2).bumpSeq x.1
  if x.2.length = 128 then { s1 with poison := mset s1.poison (lineOf x.1) false } else s1

/-- An engine's write line by line. -/
def State.wrEngine (s : State) (pa : Nat) (l : List Byte) : State := (lineSpans pa l).foldl State.wrSpan s

/-- Every line of a range is free of leases. -/
def State.rangeFree (s : State) (pa len : Nat) : Bool :=
  (List.range ((pa % 128 + len + 127) / 128)).all (fun i => s.leaseFree (lineOf pa + 128 * i))

/-- Some line of a range is poisoned. -/
def State.rangePoisoned (s : State) (pa len : Nat) : Bool :=
  (List.range ((pa % 128 + len + 127) / 128)).any (fun i => s.poisoned (lineOf pa + 128 * i))

/-- A line leaves a core's L1 (R113, R244). -/
def State.dropL1 (s : State) (core line : Nat) : State :=
  { s with l1 := s.l1.filter (fun e => !(decide (e.core = core) && decide (e.line = line))) }

/-- A hit in a core's L1: the lease has not expired (R94). -/
def State.l1Hit (s : State) (core line : Nat) : Bool :=
  s.l1.any (fun e => decide (e.core = core) && decide (e.line = line) && decide (s.ltime < e.expiry))

/-- Permission bits of a leaf (R336, R338). -/
def permR : Nat := 4
/-- Write. -/
def permW : Nat := 8
/-- Fetch. -/
def permX : Nat := 16

/-- The outcome of a walk (R337). -/
inductive WalkRes where
  | leaf (addr : Nat) (entry : Nat) (pageBits : Nat)
  | fault (cause : Nat)
  | busy
  deriving DecidableEq, Repr

/-- The checks on a leaf at a level (R337). -/
def State.leafRes (s : State) (level addr e : Nat) : WalkRes :=
  let pb := if level = 0 then 16 else if level = 1 then 21 else 30
  let pa := nbits e 16 38 * 2 ^ 16
  let here := decide (devOf pa = s.dev)
  let near := decide (localOf pa < 2 ^ 40)
  if 2 < level then .fault cTranslation
  else if nbits e 54 10 ≠ 0 || pa % 2 ^ pb ≠ 0 || !s.inTiers pa then .fault cTranslation
  else if here && (if near then nbit e 5 != mget s.pairLocal (nbits pa 31 9) else nbit e 5) then .fault cTranslation
  else if nbit e 6 && (level ≠ 1 || !here) then .fault cTranslation
  else if nbit e 7 then .busy
  else .leaf addr e pb

/-- Descend from a table (R335): levels with their index shift and width, highest first. -/
def State.walkFrom (s : State) (va : Nat) : List (Nat × Nat × Nat) → Nat → WalkRes
  | [], _ => .fault cTranslation
  | (level, shift, n) :: rest, tbl =>
    let addr := tbl + 8 * nbits va shift n
    let e := s.rdNat addr 8
    if devOf tbl ≠ s.dev || !s.inTiers tbl || tbl % (8 * 2 ^ n) ≠ 0 then .fault cTranslation
    else if s.poisoned addr then .fault cDataError
    else if !nbit e 0 then .fault cTranslation
    else if nbit e 1 then s.leafRes level addr e
    else if nbits e 54 10 ≠ 0 || nbits e 2 6 ≠ 0 || (level ≠ 1 && nbits e 8 4 ≠ 0) then .fault cTranslation
    else s.walkFrom va rest (nbits e 8 46 * 2 ^ 8)

/-- The walk of an address in an address space (R334..R337). -/
def State.walk (s : State) (part space va : Nat) : WalkRes :=
  let root := (mget s.asroot (16 * part + space)).toNat
  if 2 ^ 57 ≤ va || !nbit root 0 then .fault cTranslation
  else s.walkFrom va [(4, 48, 9), (3, 39, 9), (2, 30, 9), (1, 21, 9), (0, 16, 5)] (nbits root 12 42 * 2 ^ 12)

/-- The addresses of the entries that a descent reads, as far as it goes (R335). -/
def State.walkPath (s : State) (va : Nat) : List (Nat × Nat × Nat) → Nat → List Nat
  | [], _ => []
  | (level, shift, n) :: rest, tbl =>
    let addr := tbl + 8 * nbits va shift n
    let e := s.rdNat addr 8
    if devOf tbl ≠ s.dev || !s.inTiers tbl || tbl % (8 * 2 ^ n) ≠ 0 then []
    else if s.poisoned addr || !nbit e 0 || nbit e 1 || nbits e 54 10 ≠ 0 || nbits e 2 6 ≠ 0 || (level ≠ 1 && nbits e 8 4 ≠ 0)
    then [lineOf addr]
    else lineOf addr :: s.walkPath va rest (nbits e 8 46 * 2 ^ 8)

/-- The lines of the tables that the walk of an address reads. -/
def State.walkLines (s : State) (part space va : Nat) : List Nat :=
  let root := (mget s.asroot (16 * part + space)).toNat
  if 2 ^ 57 ≤ va || !nbit root 0 then []
  else s.walkPath va [(4, 48, 9), (3, 39, 9), (2, 30, 9), (1, 21, 9), (0, 16, 5)] (nbits root 12 42 * 2 ^ 12)

/-- The outcome of a translation. -/
inductive Xl where
  | ok (pa : Nat)
  | fault (cause : Nat)
  | busy
  | miss
  deriving DecidableEq, Repr

/-- The translated address, or PROTECTION (R338). -/
def leafXl (leaf pageBits va need : Nat) : Xl :=
  if leaf.land need = need then .ok (nbits leaf 16 38 * 2 ^ 16 + va % 2 ^ pageBits) else .fault cProtection

/-- A TLB entry that serves a core or one shared TLB (R339). -/
def State.tlbFind (s : State) (core dom part space va : Nat) : Option TlbEntry :=
  s.tlb.find? (fun e => (decide (e.owner = core + 2) || decide (e.owner = dom)) && decide (e.part = part)
    && decide (e.space = space) && decide (e.page = va / 2 ^ e.pageBits))

/-- Translation of a strand's access by the TLBs; a miss needs a walk (R339). -/
def State.xlate (s : State) (core dom part space va need : Nat) : Xl :=
  if 2 ^ 57 ≤ va then .fault cTranslation
  else match s.tlbFind core dom part space va with
    | some e => leafXl e.leaf.toNat e.pageBits va need
    | none => .miss

/-- Translation that walks at once on a miss: trap frames and saves, the management cores, an engine whose walk has failed. DESIGN CHOICE: the
spec names no TLB for the first two. -/
def State.xlateNow (s : State) (core part space va need : Nat) : Xl :=
  match s.xlate core (domOf core) part space va need with
  | .miss =>
    match s.walk part space va with
    | .leaf _ e pb => leafXl e pb va need
    | .fault c => .fault c
    | .busy => .busy
  | r => r

/-- A device is in a partition's pod view; the own device always is (R345, R347). -/
def State.inView (s : State) (part dev : Nat) : Bool := decide (dev = s.dev) || mget s.pview (1024 * part + dev)

/-- Devices in a partition's pod view (R58, R345). -/
def State.ndev (s : State) (part : Nat) : Nat := ((List.range 1024).filter (fun d => s.inView part d)).length

/-- Install a translation in the shared TLB of a domain and, for a strand's walk, in the L1 TLB of its core, dropping the oldest entries of each
beyond its size (R339, R340). -/
def State.tlbFill (s : State) (core dom part space va leaf pageBits : Nat) : State :=
  let mk := fun o => ({ owner := o, part := part, space := space, page := va / 2 ^ pageBits, pageBits := pageBits,
                        leaf := BitVec.ofNat 64 leaf } : TlbEntry)
  let l1 := if core < coreCount then (mk (core + 2) :: s.tlb.filter (fun e => decide (e.owner = core + 2))).take 128 else []
  let sh := (mk dom :: s.tlb.filter (fun e => decide (e.owner = dom))).take 32768
  { s with tlb := l1 ++ sh ++ s.tlb.filter (fun e => decide (e.owner ≠ core + 2) && decide (e.owner ≠ dom)) }

/-- The cell of a core's instruction cache (R140). -/
def State.cachedWord (s : State) (core pa : Nat) : Option Word :=
  (s.icache.find? (fun e => decide (e.core = core) && decide (e.addr = pa))).map (·.word)

/-- The launch of a crew. -/
def State.crewLaunch (s : State) (c : Crew) : Launch := s.launchOf c.launch

/-- The next free value of a partition: each partition counts its own, so that a value depends on no other partition's steps (R10). -/
def State.freeAt (s : State) (part : Nat) : Nat := 16 * mget s.free part + part % 16
/-- The partition has taken a free value. -/
def State.freeUp (s : State) (part : Nat) : State := { s with free := mset s.free part (mget s.free part + 1) }

/-- Format slot k of a crew's launch (R77). -/
def State.slotOf (s : State) (c : Crew) (k : Nat) : Word64 := mget (s.crewLaunch c).record.slot k

end Sys2Proof.Machine
end

