-- ==== Sys2Proof/Machine/Ops.lean ====
section
/-! DEFINITION. The operations that instructions and steps share: futures and engine contexts (R53, R247..R249), weirs (R252),
store-fault records (R304), taking a trap (R301) and returning from one (R289, R303), loops and departures (R173, R174),
gangs (R33, R34), ending strands and crews (R31, R40, R291), and the one runner of instructions. -/

namespace Sys2Proof.Machine

/-! Futures. -/

/-- KIND of a handle (R248). -/
def handleKind (h : Word64) : Nat := nbits h.toNat 60 4
/-- CTX of a handle. -/
def handleCtx (h : Word64) : Nat := nbits h.toNat 48 12
/-- A handle (R248). -/
def mkHandle (kind ctx seq : Nat) : Word64 := BitVec.ofNat 64 (kind * 2 ^ 60 + ctx * 2 ^ 48 + seq % 2 ^ 48)
/-- A result value (R249). -/
def mkResult (status cause detail : Nat) : Word64 := BitVec.ofNat 64 (detail * 2 ^ 16 + cause * 2 ^ 8 + status)

/-- The value of a source of a join, when it has resolved. -/
def State.srcValue (s : State) : JoinSrc → Option Word64
  | .val v => some v
  | .fut h => mget s.results h.toNat

/-- The value of a future that has resolved (R249, R250). -/
def State.futureValue (s : State) (st : Strand) (h : Word64) : Option Word64 :=
  if handleKind h = 6 then
    let vs := (mget st.joins (handleCtx h)).srcs.map s.srcValue
    if vs.all Option.isSome then some (((vs.filterMap id).find? (fun v => v ≠ 0)).getD 0) else none
  else mget s.results h.toNat

/-- Deliver the futures that an instruction reads; none while one is unresolved (R53). The read invalidates the latches (R51). DESIGN CHOICE: it
does so before the instruction pushes a result of its own, which so stands in L0; the spec gives no order. DEDUCED: this holds of WFILL too,
although R288 names only SPW. -/
def State.deliver (s : State) : Strand → List Nat → Option Strand
  | st, [] => some st
  | st, n :: r =>
    if st.isFut n then
      match s.futureValue st (st.sreg n) with
      | some v => s.deliver ((st.setS n v).latchKill) r
      | none => none
    else s.deliver st r

/-- The first unresolved future among the registers read. -/
def State.firstLive (s : State) (st : Strand) (reads : List Nat) : Word64 :=
  match reads.find? (fun n => st.isFut n && (s.futureValue st (st.sreg n)).isNone) with
  | some n => st.sreg n
  | none => 0

/-- The most operations that a context holds unresolved (R247). -/
def ctxLimit (kind : Nat) : Nat := if kind = 1 then 64 else if kind = 2 then 16 else 256
/-- Index of a context. -/
def ctxKey (kind num : Nat) : Nat := 1024 * kind + num
/-- The context holds as many unresolved operations as it can. -/
def State.ctxFull (s : State) (kind num : Nat) : Bool :=
  let c := mget s.ctxs (ctxKey kind num)
  decide (ctxLimit kind ≤ c.issued - c.timeline - c.done.length)

/-- Put an operation on a context; its handle (R247, R248). -/
def State.issueOp (s : State) (kind num : Nat) (op : Op) : State × Word64 :=
  let c := mget s.ctxs (ctxKey kind num)
  let h := mkHandle kind num (c.issued + 1)
  ({ s with ctxs := mset s.ctxs (ctxKey kind num) { c with issued := c.issued + 1 }
            ops := mset s.ops h.toNat { op with number := c.issued + 1 }
            results := mset s.results h.toNat none }, h)

/-- Move a timeline over the operations that have resolved. -/
def timelineUp : Nat → Ctx → Ctx
  | 0, c => c
  | n + 1, c =>
    if c.done.contains (c.timeline + 1) then
      timelineUp n { c with timeline := c.timeline + 1, done := c.done.erase (c.timeline + 1) }
    else c

/-- The number of an operation in its context: the last one issued whose low 48 bits are SEQ of its handle (R247, R248). -/
def opNumber (issued : Nat) (h : Word64) : Nat := issued - (issued + (2 ^ 48 - nbits h.toNat 0 48)) % 2 ^ 48

/-- Resolve an operation: its result, its place in its context and the timeline (R53, R134, R249). -/
def State.resolveOp (s : State) (h v : Word64) : State :=
  let key := ctxKey (handleKind h) (handleCtx h)
  let c := mget s.ctxs key
  let n := opNumber c.issued h
  let c1 := { c with done := n :: c.done }
  { s with ctxs := mset s.ctxs key (timelineUp c1.done.length c1)
           ops := mset s.ops h.toNat default
           results := mset s.results h.toNat (some v) }

/-! Weirs. -/

/-- Index of weir `id` of a group of a partition. -/
def weirKey (part group id : Nat) : Nat := (part * 2 ^ 24 + group) * 2 ^ 16 + id
/-- The domain whose table holds a weir (R252). -/
def weirDom (id : Nat) : Nat := id / 2 ^ 15 % 2
/-- Phases completed by the counts: both expectations met, one of them nonzero. -/
def weirPhases (w : Weir) : Nat :=
  if w.ea = 0 then (if w.eb = 0 then 0 else w.cb / w.eb.toNat)
  else if w.eb = 0 then w.ca / w.ea.toNat
  else min (w.ca / w.ea.toNat) (w.cb / w.eb.toNat)
/-- The evaluation of R252. -/
def Weir.eval (w : Weir) : Weir :=
  let n := weirPhases w
  { w with ca := w.ca - n * w.ea.toNat, cb := w.cb - n * w.eb.toNat, ph := w.ph + BitVec.ofNat 32 n }
/-- Add arrivals and bytes: to a resident entry, which is evaluated, or to the deltas of a spilled one (R252, R311). -/
def Weir.credit (w : Weir) (arr bytes : Nat) : Weir :=
  let w1 := { w with ca := min (w.ca + arr) (2 ^ 33 - 1), cb := min (w.cb + bytes) (2 ^ 49 - 1) }
  if w.state = 1 then w1.eval else w1
/-- Add to a weir; an absent one takes nothing (R254), and adding 0 changes nothing (R260, R310). -/
def State.weirAdd (s : State) (key arr bytes : Nat) : State :=
  let w := mget s.weirs key
  if w.state = 0 || (decide (arr = 0) && decide (bytes = 0)) then s
  else { s with weirs := mset s.weirs key { w.credit arr bytes with changed := s.nextId }, nextId := s.nextId + 1 }
/-- The weir that a copy's third word names (R257). -/
def copyWeir (c : Word64) : Nat := nbits c.toNat 32 16
/-- The weir group of a crew's launch (R252). -/
def State.groupOf (s : State) (c : Crew) : Nat := (s.crewLaunch c).group
/-- The index of weir `id` of a crew's launch. -/
def State.crewWeir (s : State) (c : Crew) (id : Nat) : Nat := weirKey (s.crewLaunch c).part (s.groupOf c) id

/-! Store-fault records. -/

/-- Entries of a core's queue (R304). -/
def State.sfrqCount (s : State) (core : Nat) : Nat :=
  (s.sfrq.filter (fun e => decide (e.2.core = core) && !e.2.waiting)).length
/-- Strands of a crew: at most 16 in a weave (R22). -/
def Crew.keys (c : Crew) : List Nat :=
  (List.range c.weaves).flatMap (fun w => (List.range (min c.strands 16)).map (fun x => strandKey w x))
/-- Every other strand of the crew has gone. -/
def Crew.lastLive (c : Crew) (k : Nat) : Bool := c.keys.all (fun j => decide (j = k) || decide ((c.st j).live = 0))
/-- A record counts as one of strand k: its own, or, for the last live strand, one of the crew's (R305). -/
def recordOf (c : Crew) (u k : Nat) (r : SfRecord) : Bool :=
  decide (r.launch ≠ 0) && decide (r.crew = u) && (decide (r.strand = k) || c.lastLive k)
/-- The records of a strand, in the order of popping (R293). -/
def sfInsert (e : Nat × SfRecord) : List (Nat × SfRecord) → List (Nat × SfRecord)
  | [] => [e]
  | x :: r =>
    if e.2.stamp < x.2.stamp || (e.2.stamp = x.2.stamp && (e.2.core < x.2.core || (e.2.core = x.2.core && e.1 < x.1)))
    then e :: x :: r else x :: sfInsert e r
/-- The strand's oldest record with its number. -/
def State.oldestRecord (s : State) (u k : Nat) : Option (Nat × SfRecord) :=
  ((s.sfrq.filter (fun e => recordOf (s.crew u) u k e.2)).foldl (fun l e => sfInsert e l) []).head?
/-- The number of records and waiting failures of a strand. -/
def State.ownRecords (s : State) (u k : Nat) : Nat := (s.sfrq.filter (fun e => recordOf (s.crew u) u k e.2)).length
/-- Failures of the strand that wait for an entry. -/
def State.waitingFailures (s : State) (u k : Nat) : Nat :=
  (s.sfrq.filter (fun e => decide (e.2.crew = u) && decide (e.2.strand = k) && e.2.waiting)).length

/-- Change the unacknowledged count of a strand on the base die of a domain (R127). -/
def Strand.unack (st : Strand) (dom : Nat) (f : Nat → Nat) : Strand :=
  if dom = 0 then { st with unacked0 := f st.unacked0 } else { st with unacked1 := f st.unacked1 }
/-- Writes of the strand that are unacknowledged, in both domains. -/
def Strand.unacked (st : Strand) : Nat := st.unacked0 + st.unacked1

/-- A write of a strand is acknowledged (R127). -/
def State.ackOne (s : State) (u k core n : Nat) : State :=
  s.setStrand u k ((s.strand u k).unack (domOf core) (fun x => x - n))

/-- Write waiting failures of a core to its queue while it has room, in arrival order (R304). -/
def State.sfrqRefill (s : State) (core : Nat) : State :=
  match s.sfrq.find? (fun e => decide (e.2.core = core) && e.2.waiting) with
  | some e =>
    if s.sfrqCount core < 64 then
      ({ s with sfrq := mset s.sfrq e.1 { e.2 with waiting := false } }).ackOne e.2.crew e.2.strand core 1
    else s
  | none => s

/-- A failure arrives: a record, or a waiting failure when the queue is full (R304). The count falls only with the record. That of a strand
that TERM has ended makes none (R291, R305). -/
def State.addFailure (s : State) (u k core launch : Nat) (pc : VAddr) (va : Word64) (cause z : Nat) : State :=
  if (s.strand u k).ended then s.ackOne u k core 1 else
  let full := decide (64 ≤ s.sfrqCount core)
  let r : SfRecord := { core := core, crew := u, strand := k, launch := launch, pc := pc, va := va, cause := cause, z := z,
                        stamp := s.ltime, waiting := full }
  let s1 := { s with sfrq := mset s.sfrq s.nextId r, nextId := s.nextId + 1 }
  if full then s1 else s1.ackOne u k core 1

/-- Remove a record; a waiting one counts as acknowledged then, a written one frees its entry (R293, R304). -/
def State.dropRecord (s : State) (e : Nat × SfRecord) : State :=
  let s1 := { s with sfrq := mset s.sfrq e.1 default }
  if e.2.waiting then s1.ackOne e.2.crew e.2.strand e.2.core 1 else s1.sfrqRefill e.2.core

/-- Remove the records that a test selects, each as it is when its turn comes: an entry that one frees may take the next (R291, R304). -/
def State.dropRecords (s : State) (p : SfRecord → Bool) : State :=
  (mkeys (s.sfrq.filter (fun e => p e.2 && decide (e.2.launch ≠ 0)))).foldl (fun s n => s.dropRecord (n, mget s.sfrq n)) s

/-! Strands: departures, gangs and ends. -/

/-- The address of the next instruction. -/
def Strand.next (st : Strand) : VAddr := st.pc + 4

/-- The back-edge of R173 at an address that is reached: loops, pc, whether a back-edge was taken. -/
def backEdge : List LoopState → VAddr → List LoopState × VAddr × Bool
  | [], a => ([], a, false)
  | l :: r, a =>
    if l.fin = a then
      if 1 < l.remaining then ({ l with remaining := l.remaining - 1 } :: r, l.start, true) else backEdge r a
    else (l :: r, a, false)

/-- The instruction retires: no wait, and a replay ends (R289). -/
def Strand.done (st : Strand) : Strand :=
  { st with wait := .ready, walkFaults := [], favoured := false, replaying := false
            tcause := if st.replaying then st.tcause &&& ~~~(1#64 <<< 20) else st.tcause }

/-- Retire and continue at the address `a`, reached in line: the back-edges that end there are taken (R173). -/
def Strand.inline (st : Strand) (a : VAddr) (loops : List LoopState) : Strand :=
  let b := backEdge loops a
  let st1 := { st.done with pc := b.2.1, loops := b.1 }
  if b.2.2 then st1.latchKill else st1

/-- Retire and continue at the next instruction. -/
def Strand.seq (st : Strand) : Strand := st.inline st.next st.loops

/-- The address lies in the body of a loop. -/
def inBody (l : LoopState) (a : VAddr) : Bool := decide (l.start.toNat ≤ a.toNat) && decide (a.toNat < l.fin.toNat)

/-- The loops that remain when the pc goes from `a` to `b`: one that is left goes, with every loop inside it (R174). -/
def leaveLoops (a b : VAddr) (loops : List LoopState) : List LoopState :=
  let left := fun (l : LoopState) => inBody l a && !inBody l b
  ((loops.reverse.takeWhile (fun l => !left l))).reverse

/-- Retire with a taken transfer: loops are left and latches become invalid (R51, R174). -/
def Strand.jump (st : Strand) (a : VAddr) : Strand :=
  { st.done.latchKill with pc := a, loops := leaveLoops st.pc a st.loops }

/-- The gang key (R33). -/
def Strand.key (st : Strand) : VAddr × Nat × Nat :=
  (st.pc, st.stack.length, match st.loops with | l :: _ => l.remaining | [] => 0)

/-- Threads leave the active mask, the live mask and every stored mask (R31). -/
def Strand.endThreads (st : Strand) (m : Word) : Strand :=
  { st with live := st.live &&& ~~~m, amask := st.amask &&& ~~~m
            stack := st.stack.map (fun e => { e with mask := e.mask &&& ~~~m }) }

/-- The instruction has issued and not completed: it waits for its reply or its time, or its strand has arrived at a barrier. -/
def Wait.inProgress : Wait → Bool
  | .reply => true
  | .deadline _ => true
  | .yielded _ => true
  | .cbar => true
  | .xswap => true
  | _ => false

/-- The instruction in progress ends by a step of its own, not by being executed again. -/
def Wait.ownEnd : Wait → Bool
  | .reply => true
  | .deadline _ => true
  | .yielded _ => true
  | _ => false

/-- The live strands of a weave. -/
def Crew.weaveLive (c : Crew) (w : Nat) : List Nat :=
  c.keys.filter (fun k => decide (weaveOf k = w) && decide ((c.st k).live ≠ 0))

/-- The strands of the sub-gang of strand k. -/
def Crew.gangOf (c : Crew) (k : Nat) : List Nat :=
  (c.weaveLive (weaveOf k)).filter (fun j => decide ((c.st j).gang = (c.st k).gang))

/-- A number for the sub-gang of a strand that leaves its own: no regang gives such a number (R33, R34). -/
def ownGang (k : Nat) : Nat := 16 + sidOf k

/-- Strand k leaves its sub-gang, which splits: the latches of the others become invalid (R34, R51). -/
def Crew.leaveGang (c : Crew) (k : Nat) : Crew :=
  let left := (c.gangOf k).foldl (fun (x : Crew) j => if j = k then x else x.setSt j (x.st j).latchKill) c
  left.setSt k { left.st k with gang := ownGang k, lvalid := 0 }

/-- A crew whose strands have all gone is being retired (R40). -/
def State.checkRetire (s : State) (u : Nat) : State :=
  let c := s.crew u
  if c.keys.all (fun k => decide ((c.st k).live = 0)) then s.setCrew u { c with retiring := true } else s

/-- A strand is ended where it stands: no live thread, no wait, no trap, no records (R291). -/
def State.endStrand (s : State) (u k : Nat) : State :=
  let st := s.strand u k
  let st1 := { st.endThreads st.live with wait := .ready, pending := none, ended := true, stack := [], replaying := false,
                                           mem := default }
  (s.setStrand u k st1).dropRecords (fun r => decide (r.crew = u) && decide (r.strand = k))

/-- A launch ends with a status, the first cause deciding (R321, R322). -/
def State.endLaunch (s : State) (l status code detail : Nat) : State :=
  let x := s.launchOf l
  if x.ending = 0 then s.setLaunch l { x with ending := status, endCode := code, endDetail := detail } else s

/-- Remove every store-fault record of a crew (R291, R315). -/
def State.dropCrewRecords (s : State) (u : Nat) : State :=
  s.dropRecords (fun r => decide (r.crew = u))

/-- End strands as TERM does: the launch is terminated when a crew loses its last strand, or when `whole` (R291). -/
def State.termStrands (s : State) (u : Nat) (ks : List Nat) (whole : Bool) (code detail : Nat) : State :=
  let s1 := (ks.foldl (fun x k => x.endStrand u k) s).checkRetire u
  let s2 := if (s1.crew u).retiring then s1.dropCrewRecords u else s1
  if whole || (s2.crew u).retiring then s2.endLaunch (s2.crew u).launch 10 code detail else s2

/-- A double trap: the crew ends with code 0x7F and both causes (R282, R322). -/
def State.doubleTrap (s : State) (u first second : Nat) : State :=
  s.termStrands u (s.crew u).keys true 0x7F (second + 256 * first)

/-! Traps. -/

/-- The trap frame of a strand (R301, R302). -/
def frameAddr (c : Crew) (k : Nat) : Nat := (c.savebase.toNat + 0x400 + 48 * k) % 2 ^ 64

/-- The bytes of a trap frame (R302). -/
def frameBytes (st : Strand) : List Byte :=
  leBytes 8 (st.sreg 28).toNat ++ leBytes 8 (st.sreg 29).toNat ++ leBytes 8 (st.sreg 30).toNat ++ leBytes 8 (st.sreg 31).toNat
  ++ leBytes 4 st.mr.toNat ++ leBytes 4 st.amask.toNat ++ leBytes 8 (nbits st.f.toNat 28 4)

/-- The handles that S28 to S31 hold live. -/
def heldHandles (st : Strand) : FMap Word64 :=
  [28, 29, 30, 31].foldl (fun m n => if st.isFut n then mset m n (st.sreg n) else m) []

/-- The strand in its handler (R301). -/
def Strand.entered (st : Strand) (t : Trap) (k : Nat) (fr : Nat) (tvec : Word64) : Strand :=
  let st1 := ((((st.setS 28 0).setS 29 0).setS 30 0).setS 31 (BitVec.ofNat 64 fr))
  { st1 with
    tcause := tcauseWord t.cause t.code t.pend t.replay
    tepc := t.epc.setWidth 64
    tval := t.tval
    tmask := t.mask
    heldAtEntry := heldHandles st
    mr := 0, amask := st.live, handler := true, lvalid := 0
    gang := ownGang k, pc := tvec.setWidth 57
    wait := .ready, pending := none, replaying := false, favoured := false, walkFaults := [], mem := default }

/-- An access of the save hardware or of trap entry: its translation with the pod view taken into account. -/
def State.xlateSave (s : State) (u va need : Nat) : Xl :=
  let c := s.crew u
  let l := s.crewLaunch c
  match s.xlateNow c.core l.part l.space va need with
  | .ok pa => if !s.inView l.part (devOf pa) then .fault cTranslation
              else if s.rangePoisoned pa 48 then .fault cDataError else .ok pa
  | x => x

/-- Take a trap (R301): the strand leaves its sub-gang (R34), the trap registers and the frame are written and it continues at TVEC at level 1. A failing
frame write, or a trap at level 1, is a double trap (R282). While the frame's lines are under a lease or its leaf is busy, the
trap stays pending. -/
def State.takeTrap (s : State) (u k : Nat) (t : Trap) : State :=
  let c := s.crew u
  let st := c.st k
  let fr := frameAddr c k
  if st.handler then s.doubleTrap u (tcCause st.tcause) t.cause
  else
    let out := c.leaveGang k
    let wait := s.setCrew u (out.setSt k { out.st k with pending := some t })
    match s.xlateSave u fr permW with
    | .ok pa =>
      if s.rangeFree pa 48 then
        (s.wrEngine pa (frameBytes st)).setCrew u (out.setSt k (st.entered t k fr (s.core c.core).tvec))
      else wait
    | .fault e => s.doubleTrap u t.cause e
    | _ => wait

/-- An exact trap whose value is the instruction word (R299). -/
def wordTrap (st : Strand) (cause : Nat) (word : Word64) : Trap :=
  { cause := cause, code := 0, pend := 0, epc := st.pc, tval := word, replay := false, mask := 0 }

/-- An exact trap of a data access: the threads to replay and a value (R231, R299). -/
def dataTrap (st : Strand) (cause : Nat) (va : Word64) (mask : Word) : Trap :=
  { cause := cause, code := 0, pend := 0, epc := st.pc, tval := va, replay := true, mask := mask }

/-- An exact trap with a value of its own and no replay. -/
def valueTrap (st : Strand) (cause : Nat) (v : Word64) : Trap :=
  { cause := cause, code := 0, pend := 0, epc := st.pc, tval := v, replay := false, mask := 0 }

/-- The return of R289 and R303 with a frame that has been read. A return to the end of the innermost active loop completes the
instruction before it, so that its back-edge is taken (R173, R191). -/
def Strand.returned (st : Strand) (fr : List Byte) : Strand :=
  let fb := leNat ((fr.drop 40).take 1)
  let put := fun (x : Strand) (n : Nat) =>
    let v : Word64 := BitVec.ofNat 64 (leNat ((fr.drop (8 * (n - 28))).take 8))
    if nbit fb (n - 28) && decide (v ≠ 0) && decide (mget st.heldAtEntry n = v) then x.setFut n v else x.setS n v
  let st1 := [28, 29, 30, 31].foldl put st
  let b := backEdge st.loops (st.tepc.setWidth 57)
  { st1 with
    loops := b.1
    mr := BitVec.ofNat 32 (leNat ((fr.drop 32).take 4))
    amask := BitVec.ofNat 32 (leNat ((fr.drop 36).take 4)) &&& st.live
    handler := false, lvalid := 0, heldAtEntry := []
    pc := b.2.1, replaying := tcReplay st.tcause
    wait := .ready, favoured := false, walkFaults := [] }

/-- Return from the handler (R289, R303); a misaligned target, a failing frame read, a bad MR or a fetch fault at the target
is a double trap (R282). While a leaf is busy the strand waits. -/
def State.returnTrap (s : State) (u k : Nat) : State :=
  let c := s.crew u
  let st := c.st k
  let l := s.crewLaunch c
  if nbits st.tepc.toNat 0 2 ≠ 0 then s.doubleTrap u (tcCause st.tcause) cMisalign
  else match s.xlateSave u (frameAddr c k) permR with
    | .ok pa =>
      let fr := s.rdBytes pa 48
      if nbits (leNat ((fr.drop 32).take 4)) 22 10 ≠ 0 then s.doubleTrap u (tcCause st.tcause) cMode
      else match s.xlateNow c.core l.part l.space st.tepc.toNat permX with
        | .ok pc => if (s.cachedWord c.core pc).isNone && (s.poisoned pc || !s.inView l.part (devOf pc))
                    then s.doubleTrap u (tcCause st.tcause) cFetch
                    else s.setStrand u k { st.returned fr with gang := ownGang k }
        | .fault _ => s.doubleTrap u (tcCause st.tcause) cFetch
        | _ => s.setStrand u k { st with wait := .frame }
    | .fault e => s.doubleTrap u (tcCause st.tcause) e
    | _ => s.setStrand u k { st with wait := .frame }

/-! The runner of instructions. -/

/-- Where an instruction acts: a strand whose futures have been delivered. -/
structure Site where
  s : State
  u : Nat
  k : Nat
  c : Crew
  st : Strand

/-- What an instruction does. -/
structure Meaning where
  use : Use := {}
  /-- It is a posted store: not ready to issue while its core's store-fault record queue is full (R246, R304). -/
  posted : Bool := false
  /-- It has one effect for all strands of the sub-gang together, so that all wait while one must (R37, R220, R221, R390). -/
  joint : Bool := false
  /-- A trap that depends on values, before any effect. -/
  trap : Site → Option Trap := fun _ => none
  /-- A reason to wait before any effect; the sub-gang is not ready until the strand has completed the instruction (R34). -/
  hold : Site → Option Wait := fun _ => none
  /-- What the strands that wait ask for: page walks. -/
  ask : State → Nat → List Nat → State := fun s _ _ => s
  /-- The effect in the strands that neither trap nor wait. -/
  act : State → Nat → List Nat → State

/-- The strand at a site, with the futures it reads delivered. -/
def State.site (s : State) (u k : Nat) (reads : List Nat) : Option Site :=
  let c := s.crew u
  (s.deliver (c.st k) reads).map (fun st => ⟨s, u, k, c, st⟩)

/-- An effect in each strand in turn. -/
def eachStrand (x : Use) (f : Site → State) (s : State) (u : Nat) (ks : List Nat) : State :=
  ks.foldl (fun s k => match s.site u k x.reads with | some a => f a | none => s) s

/-- An effect on the strand alone. -/
def onStrand (x : Use) (f : Site → Strand) : State → Nat → List Nat → State :=
  eachStrand x (fun a => a.s.setStrand a.u a.k (f a))

/-- The sub-gang holds every live strand of its weave, each with its active mask equal to its live threads (R37). -/
def converged (c : Crew) (ks : List Nat) : Bool :=
  c.keys.all (fun k => decide (weaveOf k ≠ weaveOf (ks.headD 0)) || decide ((c.st k).live = 0) || ks.contains k)
  && ks.all (fun k => decide ((c.st k).amask = (c.st k).live))

/-- The instruction word, for TVAL (R299). -/
def wordOf (i : Instr) : Word64 := BitVec.ofNat 64 ((encodeNat i).getD 0)

/-- A result or a tag that the instruction names arrives later than this period (R117, R194). -/
def Use.unavailable (x : Use) (period : Nat) (st : Strand) : Bool :=
  st.late.any (fun e => decide (period < e.2) && (x.names st.mr).contains e.1) || (decide (st.tagWait ≠ 0) && (x.names st.mr).contains 71)

/-- The instruction is a posted store of a core whose store-fault record queue is full (R246). -/
def Meaning.full (m : Meaning) (s : State) (u : Nat) : Bool := m.posted && decide (64 ≤ s.sfrqCount (s.crew u).core)

/-- The instruction is one for all strands of the sub-gang. -/
def Meaning.together (m : Meaning) : Bool := m.joint || m.use.weave

/-- The trap that an instruction raises in a strand, if any: the checks of R157, then those that depend on values, for which an instruction
of the whole sub-gang waits until every strand's futures are delivered (R390). -/
def Meaning.trapOf (m : Meaning) (i : Instr) (s : State) (u : Nat) (ks : List Nat) (k : Nat) : Option Trap :=
  let c := s.crew u
  let e := m.use.cause c (c.st k) (fun n => s.slotOf c n) (converged c ks)
  if e ≠ 0 then some (wordTrap (c.st k) e (wordOf i))
  else if m.use.unavailable s.period (c.st k) || m.full s u then none
  else if m.together && ks.any (fun j => m.use.unavailable s.period (c.st j) || (s.site u j m.use.reads).isNone) then none
  else match s.site u k m.use.reads with
    | some a => m.trap a
    | none => none

/-- A vector instruction that produces a latch: its result per thread, and a further change of the strand (R48, R50). -/
def vecOp (x : Use) (n : Bool) (d : Opnd) (r : Site → Nat → Word) (fx : Site → Strand → Strand := fun _ st => st) : Meaning where
  use := x
  act := eachStrand x (fun a =>
    let st := fx a (a.st.result n d a.st.active (r a) (a.s.freeAt (a.s.crewLaunch a.c).part))
    (a.s.setStrand a.u a.k st.seq).freeUp (a.s.crewLaunch a.c).part)

/-- An instruction whose effect is on the strand alone and that continues in line. -/
def strandOp (x : Use) (f : Site → Strand) : Meaning where
  use := x
  act := onStrand x (fun a => (f a).seq)

/-- Why the instruction waits in a strand, if it does: a result or tag that arrives later (R117, R194), a live future (R53), or a reason of
its own. -/
def Meaning.waitOf (m : Meaning) (s : State) (u k : Nat) : Option Wait :=
  let st := s.strand u k
  if m.full s u then some .sfrqFull
  else if m.use.unavailable s.period st then some (.result (m.use.names st.mr))
  else match s.site u k m.use.reads with
    | none => some (.future (s.firstLive st m.use.reads))
    | some a => m.hold a

/-- Traps are taken in strand order. -/
def State.takeTraps (s : State) (u : Nat) (ts : List (Nat × Trap)) : State :=
  ts.foldl (fun s e => s.takeTrap u e.1 e.2) s

/-- The strands that wait, and for what (R34): those that have a reason to; all of them when the instruction is one for the sub-gang, or a
register that it names in one of them is not yet available, so that the sub-gang is not ready (R25, R26). -/
def Meaning.waits (m : Meaning) (s : State) (u : Nat) (ks : List Nat) : List (Nat × Wait) :=
  let ws := ks.filterMap (fun k => (m.waitOf s u k).map (fun w => (k, w)))
  if ws.isEmpty || !(m.together || ks.any (fun k => m.use.unavailable s.period (s.strand u k))) then ws
  else ks.map (fun k => (k, (m.waitOf s u k).getD .joined))

/-- Set the waits of strands. -/
def State.setWaits (s : State) (u : Nat) (ws : List (Nat × Wait)) : State :=
  ws.foldl (fun x e => x.setStrand u e.1 { x.strand u e.1 with wait := e.2 }) s

/-- The latches of strands become invalid. -/
def State.killLatches (s : State) (u : Nat) (ks : List Nat) : State :=
  ks.foldl (fun x k => x.setStrand u k (x.strand u k).latchKill) s

/-- Run an instruction in the strands that issue it: trapping strands leave the sub-gang (R34); of the others, those that must wait do and
will execute it again, and it takes effect in the rest. The sub-gang splits by key, or goes on waiting, at the next period (R33, R34). -/
def runInstr (i : Instr) (m : Meaning) (s : State) : State :=
  let u := s.cur.crew
  let ks := s.cur.strands
  let ts := ks.filterMap (fun k => (m.trapOf i s u ks k).map (fun t => (k, t)))
  let s1 := s.takeTraps u ts
  let rest := if ts.isEmpty then ks
    else ks.filter (fun k => !(ts.any (fun e => decide (e.1 = k))) && decide ((s1.strand u k).live ≠ 0))
  let ws := m.waits s u rest
  let go := rest.filter (fun k => !ws.any (fun e => decide (e.1 = k)))
  let s2 := if ws.isEmpty then s1 else m.ask (s1.setWaits u ws) u (ws.map (·.1))
  let s3 := if go.isEmpty then s2 else m.act s2 u go
  if ts.isEmpty then s3 else s3.killLatches u rest

end Sys2Proof.Machine
end

