-- ==== Sys2Proof/Machine/Control.lean ====
section
/-! DEFINITION. Control flow, mode and system instructions, and the predicate group (R165..R191). -/

namespace Sys2Proof.Machine

/-- An instruction run in the sub-gang that issues; it always answers a next state. -/
def runNext (i : Instr) (m : Meaning) (s : State) : Host.Outcome State Fault Refusal := .next (runInstr i m s)

/-- A taken or fall-through branch target (R145). -/
def branchTarget (st : Strand) (off : Int) : VAddr := BitVec.ofInt 57 ((st.pc.toNat : Int) + 4 + 4 * off)

/-- NOP (R178). -/
def execNop (s : State) : Host.Outcome State Fault Refusal :=
  runNext .nop (strandOp {} (fun a => a.st)) s

/-- The crews of a stage: GDX × GDY × GDZ. -/
def LaunchRec.gridSize (r : LaunchRec) : Nat := r.gdx * r.gdy * r.gdz

/-- CORES or the exchange flag: all crews resident together (R42, R101). -/
def LaunchRec.whole (r : LaunchRec) : Bool := nbit r.flags 1 || nbit r.flags 2

/-- XRANK of crew g of stage `stage` of launch l (R320): of an exchange launch its rank, else a free value. -/
def LaunchRec.xrank (r : LaunchRec) (l stage g : Nat) : Nat :=
  if nbit r.flags 2 then (stage * r.gridSize + g) % 2 ^ 16 else (Config.freeRank l stage g).toNat

/-- Special register n for thread t (R58). -/
def sprValue (a : Site) (n t : Nat) : Nat :=
  let l := a.s.crewLaunch a.c
  let r := l.record
  let g := a.c.index
  match n with
  | 0 => t
  | 1 => sidOf a.k
  | 2 => weaveOf a.k
  | 3 => g % r.gdx
  | 4 => g / r.gdx % r.gdy
  | 5 => g / r.gdx / r.gdy
  | 6 => r.gdx
  | 7 => r.gdy
  | 8 => r.gdz
  | 9 => a.c.stage
  | 10 => a.c.core
  | 11 => chipOf a.c.core
  | 12 => domOf a.c.core
  | 13 => a.s.dev
  | 14 => a.s.ndev l.part
  | 15 => a.s.clock
  | 16 => a.s.ltime
  | 17 => a.st.mr.toNat
  | 18 => a.st.flags.toNat
  | 19 => a.st.amask.toNat
  | 20 => a.c.launch
  | 21 => r.xrank a.c.launch a.c.stage g
  | 22 => if nbit r.flags 2 then r.stages * r.gridSize else 0
  | _ => r.rq.toNat

/-- SPR (R179, R58). -/
def execSpr (d : Opnd) (n : Fin 128) (s : State) : Host.Outcome State Fault Refusal :=
  runNext (.spr d n)
    (strandOp { out := if isS d then [] else [d], sout := if isS d then [d] else []
                bad := fun _ _ => decide (24 ≤ n.val) || (isS d && decide (n.val = 0)) }
      (fun a => match d with
        | .s r => a.st.setS r.val (BitVec.ofNat 64 (sprValue a n.val 0))
        | _ => a.st.writeReg d a.st.active (fun t => BitVec.ofNat 32 (sprValue a n.val t)))) s

/-- BRK (R180): the exact trap BREAK; the return address is the BRK. -/
def execBrk (code : Fin 128) (s : State) : Host.Outcome State Fault Refusal :=
  runNext (.brk code)
    { trap := fun a => some { valueTrap a.st cBreak 0 with code := code.val }
      act := fun s _ _ => s } s

/-- TRAP (R180): the exact trap SOFTWARE; the return address is the next instruction. -/
def execTrap (code : Fin 128) (s : State) : Host.Outcome State Fault Refusal :=
  runNext (.trap code)
    { trap := fun a => some { valueTrap a.st cSoftware 0 with code := code.val, epc := a.st.next }
      act := fun s _ _ => s } s

/-- The wait of TFENCE: multiplications of the weave that have not retired (R181). DESIGN CHOICE: any other instruction counts as retired when it has
issued and set its flags, though its time still runs (ARFOLD, TLD, TST, a late result); the spec defines no other moment. -/
def tfenceHold (a : Site) : Option Wait :=
  if a.s.ops.any (fun o => decide (o.2.crew = a.u) && decide (o.2.weave = weaveOf a.k)
    && (match o.2.kind with | .mma _ => true | _ => false)) then some .matrix
  else none

/-- TFENCE (R181). -/
def execTfence (s : State) : Host.Outcome State Fault Refusal :=
  runNext .tfence
    { hold := tfenceHold
      trap := fun a =>
        let p := a.st.flags.toNat.land (mrTE a.st.mr)
        if (tfenceHold a).isNone && decide (p ≠ 0) then some { valueTrap a.st cArith 0 with pend := p } else none
      act := onStrand {} (fun a => a.st.latchKill.seq) } s

/-- Every write of a strand has been acknowledged, a failure that waits for an entry counting as arrived (R182, R304). -/
def drained (s : State) (u k : Nat) : Bool := decide ((s.strand u k).unacked ≤ s.waitingFailures u k)

/-- DRAIN (R182, R305). -/
def execDrain (s : State) : Host.Outcome State Fault Refusal :=
  runNext .drain
    { hold := fun a => if drained a.s a.u a.k then none else some .acks
      trap := fun a =>
        if drained a.s a.u a.k then (a.s.oldestRecord a.u a.k).map (fun e => valueTrap a.st cStoreFault e.2.va) else none
      act := onStrand {} (fun a => a.st.latchKill.seq) } s

/-- YIELD (R183): not ready for the next 4 issue periods; it is complete at the beginning of the one after them. -/
def execYield (s : State) : Host.Outcome State Fault Refusal :=
  runNext .yield
    { act := onStrand {} (fun a => { a.st.latchKill with wait := .yielded (a.s.period + 5) }) } s

/-- SEED (R185, R69): every thread, active or not. -/
def execSeed (x : Opnd) (s : State) : Host.Outcome State Fault Refusal :=
  runNext (.seed x)
    (strandOp { src := [x] }
      (fun a => { a.st with sto := writeThreads a.st.sto 0 0xFFFFFFFF
                              (fun t => seedSto (a.st.src x t) t (sidOf a.k) (weaveOf a.k)) 32 })) s

/-- The tiles and accumulators of a weave that a TLD, a TST or an ARFOLD still takes cycles for (R262, R268). -/
def Crew.runningLocks (c : Crew) (w : Nat) : List Lock :=
  ((c.tileBusy.filter (fun e => decide (e.2.kind ≠ 0) && decide (e.2.weave = w))).map (fun e => Lock.tile e.1)) ++
  ((c.foldBusy.filter (fun e => decide (e.2 ≠ 0) && decide (mget c.foldWeave e.1 = w))).map (fun e => Lock.fold e.1))

/-- What CLOCK waits for: results of earlier instructions of the strand that are still to come, those of TLD, TST and ARFOLD among them
(R186). DESIGN CHOICE: it does not wait for the O7 tag of a tagged posted store, which comes with the store's acknowledgement (R117),
for which the rule has it not wait. -/
def clockHold (a : Site) : Option Wait :=
  let late := (a.st.late.filter (fun e => decide (a.s.period < e.2))).map (·.1)
  let locks := a.c.runningLocks (weaveOf a.k)
  if !late.isEmpty then some (.result late) else if !locks.isEmpty then some (.interlock locks) else none

/-- CLOCK (R186). -/
def execClock (d : Opnd) (s : State) : Host.Outcome State Fault Refusal :=
  runNext (.clock d)
    { strandOp { sout := [d] } (fun a => a.st.setS d.num (BitVec.ofNat 64 a.s.clock)) with
      hold := clockHold } s

/-- The EXIT of the strands `ks` leaves no live strand in the crew. -/
def lastExit (s : State) (u : Nat) (ks : List Nat) : Bool :=
  let c := s.crew u
  c.keys.all (fun k => decide ((c.st k).live = 0) ||
    (ks.contains k && decide ((c.st k).live &&& ~~~((c.st k).umask) = 0)))

/-- The waits of R40: every write of every strand acknowledged, every engine operation resolved. -/
def crewDrained (s : State) (u : Nat) : Bool :=
  (s.crew u).keys.all (fun k => drained s u k) && !s.ops.any (fun o => decide (o.2.crew = u) && decide (o.2.kind ≠ .none))

/-- The oldest store-fault record of any strand of a crew (R305). -/
def State.crewRecord (s : State) (u : Nat) : Option SfRecord :=
  (((s.sfrq.filter (fun e => decide (e.2.launch ≠ 0) && decide (e.2.crew = u))).foldl (fun l e => sfInsert e l) []).head?).map (·.2)

/-- EXIT (R187, R31, R40): the crew's last EXIT waits and may raise STORE_FAULT, in the last of its strands. -/
def execExit (s : State) : Host.Outcome State Fault Refusal :=
  runNext .exit
    { hold := fun a => if lastExit a.s a.u a.s.cur.strands && !crewDrained a.s a.u then some .exitWait else none
      trap := fun a =>
        if lastExit a.s a.u a.s.cur.strands && crewDrained a.s a.u && decide (a.k = a.s.cur.strands.getLastD 0) then
          (a.s.crewRecord a.u).map (fun r => valueTrap a.st cStoreFault r.va)
        else none
      act := fun s u ks =>
        (onStrand {} (fun a =>
          let st := a.st.endThreads a.st.umask
          if st.live = 0 then st.done else st.seq) s u ks).checkRetire u } s

/-- The ticks of a WAIT: an S source, or the largest value among the live threads (R184). -/
def waitTicks (st : Strand) (x : Opnd) : Nat :=
  match x with
  | .s _ => (st.src x 0).toNat
  | _ => (threadsOf st.live).foldl (fun m t => max m (st.src x t).toNat) 0

/-- WAIT (R184): complete in the first issue period that begins at its deadline or later. -/
def execWait (x : Opnd) (s : State) : Host.Outcome State Fault Refusal :=
  runNext (.wait x)
    { use := { src := [x] }
      act := onStrand { src := [x] } (fun a =>
        let n := waitTicks a.st x
        if n = 0 then a.st.latchKill.seq else { a.st.latchKill with wait := .deadline (a.s.ltime + n) }) } s

/-- A MODE instruction that writes one field (R177). -/
def modeOp (i : Instr) (lo n v : Nat) (s : State) : Host.Outcome State Fault Refusal :=
  runNext i (strandOp {} (fun a => { a.st with mr := setField a.st.mr lo n v })) s

/-- MODE.GP (R177). -/
def execModeGp (g : Bool) (p : Fin 8) (s : State) : Host.Outcome State Fault Refusal :=
  modeOp (.modeGp g p) 0 4 (p.val + 8 * g.toNat) s
/-- MODE.ET (R177). -/
def execModeEt (e : Fin 16) (s : State) : Host.Outcome State Fault Refusal := modeOp (.modeEt e) 4 4 e.val s
/-- MODE.RM (R177). -/
def execModeRm (m : Fin 8) (s : State) : Host.Outcome State Fault Refusal := modeOp (.modeRm m) 8 3 m.val s
/-- MODE.SATFZ (R177). -/
def execModeSatfz (z a : Bool) (s : State) : Host.Outcome State Fault Refusal :=
  modeOp (.modeSatfz z a) 11 2 (a.toNat + 2 * z.toNat) s
/-- MODE.SCOPE (R177). -/
def execModeScope (c : Fin 8) (s : State) : Host.Outcome State Fault Refusal := modeOp (.modeScope c) 13 3 c.val s
/-- MODE.TE (R177). -/
def execModeTe (t : Fin 16) (s : State) : Host.Outcome State Fault Refusal := modeOp (.modeTe t) 16 4 t.val s
/-- MODE.DH (R177). -/
def execModeDh (h : Fin 4) (s : State) : Host.Outcome State Fault Refusal := modeOp (.modeDh h) 20 2 h.val s

/-- MODE.ALL (R177, R56): bits [31:22] set raise ILLEGAL_MODE and leave MR unchanged. -/
def execModeAll (r : Fin 32) (s : State) : Host.Outcome State Fault Refusal :=
  runNext (.modeAll r)
    { strandOp { sr := [r.val] } (fun a => { a.st with mr := (a.st.sreg r.val).setWidth 32 }) with
      trap := fun a => if nbits (a.st.sreg r.val).toNat 22 10 = 0 then none
        else some (wordTrap a.st cMode (wordOf (.modeAll r))) } s

/-- Continue after a BR at `a`: latches fall only when that is not the next instruction (R165). -/
def Strand.goto (st : Strand) (a : VAddr) : Strand := if a = st.next then st.seq else st.jump a

/-- The threads that a BR takes (R28). -/
def branchTaken (st : Strand) (onTrue : Bool) (p : Nat) : Word :=
  if onTrue then st.umask &&& st.pred p else st.umask &&& ~~~(st.pred p)

/-- The effect of BR and BRN (R28, R35). -/
def branchStrand (st : Strand) (h onTrue : Bool) (p : Nat) (tgt : VAddr) : Strand :=
  let m := st.umask
  let t := branchTaken st onTrue p
  let f := m &&& ~~~t
  let recon : StackEntry := ⟨false, m, 0⟩
  if t = 0 then { ({ st with stack := recon :: st.stack }).seq with favoured := h }
  else if f = 0 then { ({ st with stack := recon :: st.stack }).goto tgt with favoured := !h }
  else if h then
    { ({ st with stack := ⟨true, t, tgt⟩ :: recon :: st.stack, amask := f }).seq with favoured := true }
  else
    { ({ st with stack := ⟨true, f, st.next⟩ :: recon :: st.stack, amask := t }).goto tgt with favoured := true }

/-- The push of a BR overflows the stack (R30). -/
def branchOverflow (st : Strand) (onTrue : Bool) (p : Nat) : Bool :=
  let t := branchTaken st onTrue p
  let uniform := decide (t = 0) || decide (st.umask &&& ~~~t = 0)
  if uniform then decide (16 ≤ st.stack.length) else decide (15 ≤ st.stack.length)

/-- BR and BRN (R166). -/
def branchOp (i : Instr) (onTrue h : Bool) (p : Fin 8) (o : BitVec 21) (s : State) : Host.Outcome State Fault Refusal :=
  let x : Use := { branch := true, stack := fun st => branchOverflow st onTrue p.val }
  runNext i
    { use := x
      act := onStrand x (fun a => branchStrand a.st h onTrue p.val (branchTarget a.st o.toInt)) } s

/-- BR (R166). -/
def execBr (h : Bool) (p : Fin 8) (o : BitVec 21) (s : State) : Host.Outcome State Fault Refusal :=
  branchOp (.br h p o) true h p o s
/-- BRN (R166). -/
def execBrn (h : Bool) (p : Fin 8) (o : BitVec 21) (s : State) : Host.Outcome State Fault Refusal :=
  branchOp (.brn h p o) false h p o s

/-- The condition of BRU (R167). -/
def bruTaken (c : Nat) (v : Word64) : Bool :=
  match c with
  | 0 => decide (v = 0)
  | 1 => decide (v ≠ 0)
  | 2 => decide (v.toInt < 0)
  | _ => decide (0 ≤ v.toInt)

/-- BRU (R167). -/
def execBru (r : Fin 32) (c : Fin 4) (o : BitVec 18) (s : State) : Host.Outcome State Fault Refusal :=
  runNext (.bru r c o)
    { use := { sr := [r.val], branch := true }
      act := onStrand { sr := [r.val], branch := true } (fun a =>
        if bruTaken c.val (a.st.sreg r.val) then { a.st.jump (branchTarget a.st o.toInt) with favoured := true }
        else a.st.seq) } s

/-- JMP (R168). -/
def execJmp (o : BitVec 26) (s : State) : Host.Outcome State Fault Refusal :=
  runNext (.jmp o)
    { use := { branch := true }
      act := onStrand { branch := true } (fun a => a.st.jump (branchTarget a.st o.toInt)) } s

/-- CALL (R168): S31 receives the address of the next instruction. -/
def execCall (o : BitVec 26) (s : State) : Host.Outcome State Fault Refusal :=
  runNext (.call o)
    { use := { branch := true, sw := [31] }
      act := onStrand { branch := true, sw := [31] } (fun a =>
        (a.st.setS 31 (a.st.next.setWidth 64)).jump (branchTarget a.st o.toInt)) } s

/-- A bad target of JR, CALLR or RET (R169). -/
def targetTrap (st : Strand) (t : Word64) : Option Trap :=
  if nbits t.toNat 0 2 ≠ 0 then some (valueTrap st cMisalign t)
  else if nbits t.toNat 57 7 ≠ 0 then some (valueTrap st cFetch t)
  else none

/-- JR, CALLR and RET (R169). -/
def jumpRegOp (i : Instr) (x : Use) (n : Nat) (link : Bool) (s : State) : Host.Outcome State Fault Refusal :=
  runNext i
    { use := x
      trap := fun a => targetTrap a.st (a.st.sreg n)
      act := onStrand x (fun a =>
        let t := a.st.sreg n
        (if link then a.st.setS 31 (a.st.next.setWidth 64) else a.st).jump (t.setWidth 57)) } s

/-- RET (R169). -/
def execRet (s : State) : Host.Outcome State Fault Refusal :=
  jumpRegOp .ret { sr := [31], branch := true } 31 false s
/-- JR (R169). -/
def execJr (x : Opnd) (s : State) : Host.Outcome State Fault Refusal :=
  jumpRegOp (.jr x) { sin := [x], branch := true } x.num false s
/-- CALLR (R169): the link is written after the target is read. -/
def execCallr (x : Opnd) (s : State) : Host.Outcome State Fault Refusal :=
  jumpRegOp (.callr x) { sin := [x], branch := true, sw := [31] } x.num true s

/-- The body of a LOOP: its start and end (R172). -/
def loopEnd (st : Strand) (len : Nat) : VAddr := st.next + BitVec.ofNat 57 (4 * len)

/-- LOOP (R172). -/
def execLoop (len : Fin 256) (c : Opnd) (s : State) : Host.Outcome State Fault Refusal :=
  let x : Use := { sin := [c], branch := true }
  runNext (.loop len c)
    { use := x
      trap := fun a =>
        if 4 ≤ a.st.loops.length || a.st.loops.any (fun l => decide (l.fin.toNat < (loopEnd a.st len.val).toNat))
        then some (wordTrap a.st cLoop (wordOf (.loop len c))) else none
      act := onStrand x (fun a =>
        let n := (a.st.src c 0).toNat
        let e := loopEnd a.st len.val
        if n = 0 then a.st.inline e a.st.loops
        else { a.st.done with pc := a.st.next, loops := ⟨a.st.next, e, n⟩ :: a.st.loops }) } s

/-- JOIN on the top entry (R29). -/
def joinStrand (st : Strand) : Strand :=
  match st.stack with
  | [] => st
  | e :: r =>
    if e.pending then ({ st with stack := r, amask := e.mask }).jump e.pc
    else ({ st with stack := r, amask := e.mask &&& st.live }).seq

/-- JOIN (R170). -/
def execJoin (s : State) : Host.Outcome State Fault Refusal :=
  let x : Use := { branch := true, stack := fun st => st.stack.isEmpty }
  runNext .join { use := x, act := onStrand x (fun a => joinStrand a.st) } s

/-- WCONV (R36, R171): alone it passes; with every other sub-gang waiting, equal keys regang, at the period that follows (R33), and unequal
ones trap. DESIGN CHOICE: strands at level 1 pass it as sub-gangs of their own, which by R33 do not merge before ERET. -/
def execWconv (s : State) : Host.Outcome State Fault Refusal :=
  let u := s.cur.crew
  let c := s.crew u
  let ks := s.cur.strands
  let others := (c.weaveLive s.cur.weave).filter (fun k => !ks.contains k)
  let key := (c.st (ks.headD 0)).key
  if others.isEmpty then runNext .wconv (strandOp {} (fun a => a.st)) s
  else if others.all (fun k => decide ((c.st k).wait = .wconv)) then
    let all := c.weaveLive s.cur.weave
    if all.all (fun k => decide ((c.st k).key = key)) then
      .next (onStrand {} (fun a => a.st.latchKill.seq) s u all)
    else .next (s.takeTraps u (all.map (fun k => (k, wordTrap (c.st k) cConv (wordOf .wconv)))))
  else .next (ks.foldl (fun s k => s.setStrand u k { s.strand u k with wait := .wconv }) s)

/-- LBRK (R176). -/
def execLbrk (s : State) : Host.Outcome State Fault Refusal :=
  runNext .lbrk
    { trap := fun a => if a.st.loops.isEmpty then some (wordTrap a.st cLoop (wordOf .lbrk)) else none
      act := onStrand {} (fun a => match a.st.loops with
        | [] => a.st.seq
        | l :: r => a.st.inline l.fin r) } s

/-- A predicate function: written in the active set (R188). -/
def predOp (i : Instr) (d : Fin 8) (f : Strand → Word) (s : State) : Host.Outcome State Fault Refusal :=
  runNext i (strandOp {} (fun a => a.st.setPred d.val a.st.active (f a.st))) s

/-- PAND (R188). -/
def execPand (d a b : Fin 8) (s : State) : Host.Outcome State Fault Refusal :=
  predOp (.pand d a b) d (fun st => st.pred a.val &&& st.pred b.val) s
/-- POR (R188). -/
def execPor (d a b : Fin 8) (s : State) : Host.Outcome State Fault Refusal :=
  predOp (.por d a b) d (fun st => st.pred a.val ||| st.pred b.val) s
/-- PXOR (R188). -/
def execPxor (d a b : Fin 8) (s : State) : Host.Outcome State Fault Refusal :=
  predOp (.pxor d a b) d (fun st => st.pred a.val ^^^ st.pred b.val) s
/-- PNOT (R188). -/
def execPnot (d a : Fin 8) (s : State) : Host.Outcome State Fault Refusal :=
  predOp (.pnot d a) d (fun st => ~~~(st.pred a.val)) s

/-- P2S (R188): bits of inactive threads are 0. -/
def execP2s (d : Opnd) (p : Fin 8) (s : State) : Host.Outcome State Fault Refusal :=
  runNext (.p2s d p)
    (strandOp { sout := [d] } (fun a => a.st.setS d.num ((a.st.pred p.val &&& a.st.active).setWidth 64))) s

/-- S2P (R188). -/
def execS2p (d : Fin 8) (x : Opnd) (s : State) : Host.Outcome State Fault Refusal :=
  runNext (.s2p d x)
    (strandOp { sin := [x] } (fun a => a.st.setPred d.val a.st.active ((a.st.sreg x.num).setWidth 32))) s

/-- SEL (R189). -/
def execSel (k : Fin 8) (f : FR3) (s : State) : Host.Outcome State Fault Refusal :=
  runNext (.sel k f)
    (vecOp { src := [f.a, f.b], out := if f.n then [] else [f.d] } f.n f.d
      (fun a t => if tbit (a.st.pred k.val) t then a.st.src f.a t else a.st.src f.b t)) s

end Sys2Proof.Machine
end

