-- ==== Sys2Proof/Machine/Arith.lean ====
section
/-! DEFINITION. Integer arithmetic, logic, shifts, comparison, immediate forms and uniform arithmetic (R192..R204, R222..R225). -/

namespace Sys2Proof.Machine

/-- Names of a format with two sources; with N = 1 no destination is named. -/
def use3 (f : FR3) : Use := { src := [f.a, f.b], out := if f.n then [] else [f.d] }
/-- Names of a format with one source. -/
def use2 (f : FR2) : Use := { src := [f.a], out := if f.n then [] else [f.d] }
/-- Names of a format whose D is read and written. -/
def useA (f : FRA) : Use := { src := [f.a, f.b, f.d], out := [f.d] }

/-- A vector function of two sources, the strand's MR given. -/
def vec3 (i : Instr) (x : Use) (f : FR3) (g : Word → Word → Word → Word) (s : State) : Host.Outcome State Fault Refusal :=
  runNext i (vecOp x f.n f.d (fun a t => g a.st.mr (a.st.src f.a t) (a.st.src f.b t))) s
/-- A vector function of one source. -/
def vec2 (i : Instr) (x : Use) (f : FR2) (g : Word → Word → Word) (s : State) : Host.Outcome State Fault Refusal :=
  runNext i (vecOp x f.n f.d (fun a t => g a.st.mr (a.st.src f.a t))) s
/-- A vector function of two sources and D. -/
def vecA (i : Instr) (x : Use) (f : FRA) (g : Word → Word → Word → Word → Word) (s : State) :
    Host.Outcome State Fault Refusal :=
  runNext i (vecOp x false f.d (fun a t => g a.st.mr (a.st.src f.a t) (a.st.src f.b t) (a.st.src f.d t))) s

/-- An integer-family function (R192) with fit. -/
def intOp (i : Instr) (f : FR3) (g : Int → Int → Int) (s : State) : Host.Outcome State Fault Refusal :=
  vec3 i { use3 f with mode := etBad etInt } f (fun mr a b => mapInt (mrET mr) (mrSAT mr) g a b) s
/-- An integer-family function of one source. -/
def intOp1 (i : Instr) (f : FR2) (g : Bool → Int → Int) (s : State) : Host.Outcome State Fault Refusal :=
  vec2 i { use2 f with mode := etBad etInt } f
    (fun mr a => mapInt (mrET mr) (mrSAT mr) (fun x _ => g (etSigned (mrET mr)) x) a 0) s

/-- ADD (R197). -/
def execAdd (f : FR3) (s : State) : Host.Outcome State Fault Refusal := intOp (.add f) f (fun a b => a + b) s
/-- SUB (R197). -/
def execSub (f : FR3) (s : State) : Host.Outcome State Fault Refusal := intOp (.sub f) f (fun a b => a - b) s
/-- MUL (R197). -/
def execMul (f : FR3) (s : State) : Host.Outcome State Fault Refusal := intOp (.mul f) f (fun a b => a * b) s
/-- MULHI (R197): floor of the product by 2^w. -/
def execMulhi (f : FR3) (s : State) : Host.Outcome State Fault Refusal :=
  vec3 (.mulhi f) { use3 f with mode := etBad etInt } f
    (fun mr a b => mapInt (mrET mr) false (fun x y => (x * y) / ((2 ^ etWidth (mrET mr) : Nat) : Int)) a b) s
/-- MAD (R197). -/
def execMad (f : FRA) (s : State) : Host.Outcome State Fault Refusal :=
  vecA (.mad f) { useA f with mode := etBad etInt } f
    (fun mr a b d =>
      let et := mrET mr
      packElems (etWidth et) (etCount et) (fun k =>
        fitN (etWidth et) (etSigned et) (mrSAT mr) (elemInt et a k * elemInt et b k + elemInt et d k))) s

/-- Quotient and remainder of one element (R198). -/
def divRem (w : Nat) (sg sat : Bool) (a b : Int) : Nat × Nat :=
  if b = 0 then (wrapN w (if 0 ≤ a then intMax w sg else intMin w sg), wrapN w a)
  else if sg && decide (a = intMin w sg) && decide (b = -1) then (fitN w sg sat (-a), 0)
  else (wrapN w (a.tdiv b), wrapN w (a - a.tdiv b * b))

/-- DIV and REM: the result arrives 4 issue periods later, a zero divisor in an active thread sets DZ (R194, R198). -/
def divOp (i : Instr) (f : FR3) (pick : Nat × Nat → Nat) (s : State) : Host.Outcome State Fault Refusal :=
  runNext i
    (vecOp { use3 f with mode := etBad etInt } f.n f.d
      (fun a t =>
        let et := mrET a.st.mr
        packElems (etWidth et) (etCount et) (fun k =>
          pick (divRem (etWidth et) (etSigned et) (mrSAT a.st.mr) (elemInt et (a.st.src f.a t) k) (elemInt et (a.st.src f.b t) k))))
      (fun a st =>
        let et := mrET a.st.mr
        let dz := (threadsOf a.st.active).any (fun t => (List.range (etCount et)).any (fun k => elemBits et (a.st.src f.b t) k = 0))
        (st.orFlags (if dz then flagDZ else 0)).delay ((if f.n then [] else [f.d.code]) ++ [72]) (a.s.period + 4))) s
/-- DIV (R198). -/
def execDiv (f : FR3) (s : State) : Host.Outcome State Fault Refusal := divOp (.div f) f (·.1) s
/-- REM (R198). -/
def execRem (f : FR3) (s : State) : Host.Outcome State Fault Refusal := divOp (.rem f) f (·.2) s
/-- MIN (R197). -/
def execMin (f : FR3) (s : State) : Host.Outcome State Fault Refusal := intOp (.min f) f (fun a b => if a ≤ b then a else b) s
/-- MAX (R197). -/
def execMax (f : FR3) (s : State) : Host.Outcome State Fault Refusal := intOp (.max f) f (fun a b => if a ≤ b then b else a) s
/-- ABS (R197). -/
def execAbs (f : FR2) (s : State) : Host.Outcome State Fault Refusal :=
  intOp1 (.abs f) f (fun sg a => if sg && decide (a < 0) then -a else a) s
/-- NEG (R197). -/
def execNeg (f : FR2) (s : State) : Host.Outcome State Fault Refusal := intOp1 (.neg f) f (fun _ a => -a) s
/-- AVG (R197). -/
def execAvg (f : FR3) (s : State) : Host.Outcome State Fault Refusal := intOp (.avg f) f (fun a b => (a + b + 1) / 2) s

/-- A dot product of elements of width w accumulated into 32 bits (R199). -/
def dotWord (w : Nat) (mr a b d : Word) : Word :=
  let sg := etSigned (mrET mr)
  let el := fun (x : Word) (k : Nat) => if sg then sint w (nbits x.toNat (w * k) w) else ((nbits x.toNat (w * k) w : Nat) : Int)
  let base : Int := if sg then sint 32 d.toNat else (d.toNat : Int)
  BitVec.ofNat 32 (fitN 32 sg (mrSAT mr) ((List.range (32 / w)).foldl (fun x k => x + el a k * el b k) base))
/-- DOT4 (R199). -/
def execDot4 (f : FRA) (s : State) : Host.Outcome State Fault Refusal :=
  vecA (.dot4 f) { useA f with mode := etBad etInt } f (dotWord 8) s
/-- DOT2 (R199). -/
def execDot2 (f : FRA) (s : State) : Host.Outcome State Fault Refusal :=
  vecA (.dot2 f) { useA f with mode := etBad etInt } f (dotWord 16) s

/-- AND (R200). -/
def execAnd (f : FR3) (s : State) : Host.Outcome State Fault Refusal := vec3 (.and f) (use3 f) f (fun _ a b => a &&& b) s
/-- OR (R200). -/
def execOr (f : FR3) (s : State) : Host.Outcome State Fault Refusal := vec3 (.or f) (use3 f) f (fun _ a b => a ||| b) s
/-- XOR (R200). -/
def execXor (f : FR3) (s : State) : Host.Outcome State Fault Refusal := vec3 (.xor f) (use3 f) f (fun _ a b => a ^^^ b) s
/-- ANDN (R200). -/
def execAndn (f : FR3) (s : State) : Host.Outcome State Fault Refusal := vec3 (.andn f) (use3 f) f (fun _ a b => a &&& ~~~b) s
/-- NOT (R200). -/
def execNot (f : FR2) (s : State) : Host.Outcome State Fault Refusal := vec2 (.not f) (use2 f) f (fun _ a => ~~~a) s

/-- One shifted element of width w by n (R201): 0 SHL, 1 SHR, 2 SAR, 3 ROL. -/
def shiftElem (op w a n : Nat) : Nat :=
  match op with
  | 0 => if n < w then a * 2 ^ n % 2 ^ w else 0
  | 1 => if n < w then a / 2 ^ n else 0
  | 2 => wrapN w (sint w a / ((2 ^ min n w : Nat) : Int))
  | _ => (a * 2 ^ (n % w) % 2 ^ w) + a / 2 ^ (w - n % w)

/-- SHL, SHR, SAR and ROL (R201). -/
def shiftOp (i : Instr) (op : Nat) (f : FR3) (s : State) : Host.Outcome State Fault Refusal :=
  vec3 i { use3 f with mode := etBad etInt } f (fun mr a b => mapBits (mrET mr) (shiftElem op (etWidth (mrET mr))) a b) s
/-- SHL (R201). -/
def execShl (f : FR3) (s : State) : Host.Outcome State Fault Refusal := shiftOp (.shl f) 0 f s
/-- SHR (R201). -/
def execShr (f : FR3) (s : State) : Host.Outcome State Fault Refusal := shiftOp (.shr f) 1 f s
/-- SAR (R201). -/
def execSar (f : FR3) (s : State) : Host.Outcome State Fault Refusal := shiftOp (.sar f) 2 f s
/-- ROL (R201). -/
def execRol (f : FR3) (s : State) : Host.Outcome State Fault Refusal := shiftOp (.rol f) 3 f s

/-- Number of 1 bits. -/
def popCount (a : Word) : Nat := countMask a
/-- Number of leading 0 bits. -/
def leadZeros (a : Word) : Nat := if a = 0 then 32 else 31 - Nat.log2 a.toNat
/-- Bits reversed. -/
def bitRev (a : Word) : Word := maskOf (fun k => tbit a (31 - k))
/-- POPC (R200). -/
def execPopc (f : FR2) (s : State) : Host.Outcome State Fault Refusal :=
  vec2 (.popc f) (use2 f) f (fun _ a => BitVec.ofNat 32 (popCount a)) s
/-- CLZ (R200). -/
def execClz (f : FR2) (s : State) : Host.Outcome State Fault Refusal :=
  vec2 (.clz f) (use2 f) f (fun _ a => BitVec.ofNat 32 (leadZeros a)) s
/-- BREV (R200). -/
def execBrev (f : FR2) (s : State) : Host.Outcome State Fault Refusal := vec2 (.brev f) (use2 f) f (fun _ a => bitRev a) s

/-- Position and length of a bit field (R202). -/
def fieldPos (b : Word) : Nat := nbits b.toNat 0 5
/-- Length, at most 32. -/
def fieldLen (b : Word) : Nat := min 32 (nbits b.toNat 8 6)
/-- BFX (R202). -/
def execBfx (f : FR3) (s : State) : Host.Outcome State Fault Refusal :=
  vec3 (.bfx f) (use3 f) f (fun _ a b => BitVec.ofNat 32 (nbits a.toNat (fieldPos b) (fieldLen b))) s
/-- BFI (R202). -/
def execBfi (f : FRA) (s : State) : Host.Outcome State Fault Refusal :=
  vecA (.bfi f) (useA f) f (fun _ a b d =>
    let m : Word := BitVec.ofNat 32 ((2 ^ fieldLen b - 1) * 2 ^ fieldPos b)
    (d &&& ~~~m) ||| ((a <<< fieldPos b) &&& m)) s

/-- Eight steps of the CRC32C remainder (R203). -/
def crcBits : Nat → Word → Word
  | 0, c => c
  | n + 1, c => crcBits n (if c.getLsbD 0 then (c >>> 1) ^^^ 0x82F63B78 else c >>> 1)
/-- The remainder after `n` bytes of a word from byte `i` on. -/
def crcBytes : Nat → Nat → Word → Word → Word
  | 0, _, _, c => c
  | n + 1, i, a, c => crcBytes n (i + 1) a (crcBits 8 (c ^^^ BitVec.ofNat 32 (nbits a.toNat (8 * i) 8)))
/-- CRC (R203). -/
def execCrc (f : FRA) (s : State) : Host.Outcome State Fault Refusal :=
  vecA (.crc f) (useA f) f (fun _ a b d => crcBytes (min 4 (nbits b.toNat 0 3)) 0 a d) s

/-- A comparison that holds for every element, written in the active set (R204). -/
def icmpOp (i : Instr) (f : FCmp) (g : Int → Int → Bool) (neg : Bool) (s : State) : Host.Outcome State Fault Refusal :=
  runNext i
    (strandOp { src := [f.a, f.b], mode := etBad etInt }
      (fun a =>
        let et := mrET a.st.mr
        a.st.setPred f.p.val a.st.active (maskOf (fun t =>
          ((List.range (etCount et)).all (fun k => g (elemInt et (a.st.src f.a t) k) (elemInt et (a.st.src f.b t) k))) != neg)))) s
/-- ICMP.EQ (R204). -/
def execIcmpEq (f : FCmp) (s : State) : Host.Outcome State Fault Refusal := icmpOp (.icmpEq f) f (fun a b => decide (a = b)) false s
/-- ICMP.NE (R204). -/
def execIcmpNe (f : FCmp) (s : State) : Host.Outcome State Fault Refusal := icmpOp (.icmpNe f) f (fun a b => decide (a = b)) true s
/-- ICMP.LT (R204). -/
def execIcmpLt (f : FCmp) (s : State) : Host.Outcome State Fault Refusal := icmpOp (.icmpLt f) f (fun a b => decide (a < b)) false s
/-- ICMP.LE (R204). -/
def execIcmpLe (f : FCmp) (s : State) : Host.Outcome State Fault Refusal := icmpOp (.icmpLe f) f (fun a b => decide (a ≤ b)) false s
/-- ICMP.GT (R204). -/
def execIcmpGt (f : FCmp) (s : State) : Host.Outcome State Fault Refusal := icmpOp (.icmpGt f) f (fun a b => decide (b < a)) false s
/-- ICMP.GE (R204). -/
def execIcmpGe (f : FCmp) (s : State) : Host.Outcome State Fault Refusal := icmpOp (.icmpGe f) f (fun a b => decide (b ≤ a)) false s
/-- ICMP.TST (R204): ET is not read. -/
def execIcmpTst (f : FCmp) (s : State) : Host.Outcome State Fault Refusal :=
  runNext (.icmpTst f)
    (strandOp { src := [f.a, f.b] }
      (fun a => a.st.setPred f.p.val a.st.active (maskOf (fun t => decide ((a.st.src f.a t &&& a.st.src f.b t) ≠ 0))))) s

/-- Names of the F-I formats. -/
def useI (n : Bool) (d a : Opnd) : Use := { src := [a], out := if n then [] else [d] }
/-- ADDI (R222). -/
def execAddi (f : FImm) (s : State) : Host.Outcome State Fault Refusal :=
  runNext (.addi f)
    (vecOp { useI f.n f.d f.a with mode := etBad etInt } f.n f.d
      (fun a t => mapInt (mrET a.st.mr) (mrSAT a.st.mr) (fun x _ => x + f.i.toInt) (a.st.src f.a t) 0)) s
/-- ANDI (R222): whole register, ET-blind. -/
def execAndi (f : FImm) (s : State) : Host.Outcome State Fault Refusal :=
  runNext (.andi f) (vecOp (useI f.n f.d f.a) f.n f.d (fun a t => a.st.src f.a t &&& f.i.signExtend 32)) s
/-- ISHI (R222). -/
def ishiOp (i : Instr) (op : Nat) (f : FShi) (s : State) : Host.Outcome State Fault Refusal :=
  runNext i
    (vecOp { useI f.n f.d f.a with mode := etBad etInt } f.n f.d
      (fun a t => mapBits (mrET a.st.mr) (fun x _ => shiftElem op (etWidth (mrET a.st.mr)) x f.c.val) (a.st.src f.a t) 0)) s
/-- ISHI.SHL (R222). -/
def execIshiShl (f : FShi) (s : State) : Host.Outcome State Fault Refusal := ishiOp (.ishiShl f) 0 f s
/-- ISHI.SHR (R222). -/
def execIshiShr (f : FShi) (s : State) : Host.Outcome State Fault Refusal := ishiOp (.ishiShr f) 1 f s
/-- ISHI.SAR (R222). -/
def execIshiSar (f : FShi) (s : State) : Host.Outcome State Fault Refusal := ishiOp (.ishiSar f) 2 f s
/-- ISHI.ROL (R222). -/
def execIshiRol (f : FShi) (s : State) : Host.Outcome State Fault Refusal := ishiOp (.ishiRol f) 3 f s

/-- MOVI (R223): vector class with V or O, uniform with S. -/
def execMovi (n : Bool) (d : Opnd) (i : BitVec 18) (s : State) : Host.Outcome State Fault Refusal :=
  match d with
  | .s r => runNext (.movi n (.s r) i) (strandOp { sout := [.s r] } (fun a => a.st.setS r.val (i.signExtend 64))) s
  | o => runNext (.movi n o i) (vecOp { out := if n then [] else [o] } n o (fun _ _ => i.signExtend 32)) s

/-- A word with halfword j replaced. -/
def putHalf (x : Word64) (j : Nat) (v : BitVec 16) : Word64 :=
  (x &&& ~~~(0xFFFF#64 <<< (16 * j))) ||| ((v.setWidth 64) <<< (16 * j))
/-- MOVH (R223): the other bits of D are kept; an S destination is read as a source. -/
def execMovh (d : Opnd) (j : Fin 4) (v : BitVec 16) (s : State) : Host.Outcome State Fault Refusal :=
  match d with
  | .s r => runNext (.movh (.s r) j v)
      (strandOp { sin := [.s r], sout := [.s r] } (fun a => a.st.setS r.val (putHalf (a.st.sreg r.val) j.val v))) s
  | o => runNext (.movh o j v)
      (vecOp { out := [o] } false o (fun a t => (putHalf ((a.st.src o t).setWidth 64) j.val v).setWidth 32)) s

/-- A uniform function of two S registers (R225). -/
def uniOp (i : Instr) (d a b : Fin 32) (g : Word64 → Word64 → Word64) (s : State) : Host.Outcome State Fault Refusal :=
  runNext i
    (strandOp { sr := [a.val, b.val], sw := [d.val] } (fun x => x.st.setS d.val (g (x.st.sreg a.val) (x.st.sreg b.val)))) s
/-- 1 or 0 as a uniform value. -/
def bit64 (c : Bool) : Word64 := if c then 1 else 0
/-- UADD (R225). -/
def execUadd (d a b : Fin 32) (s : State) : Host.Outcome State Fault Refusal := uniOp (.uadd d a b) d a b (fun x y => x + y) s
/-- USUB (R225). -/
def execUsub (d a b : Fin 32) (s : State) : Host.Outcome State Fault Refusal := uniOp (.usub d a b) d a b (fun x y => x - y) s
/-- UMUL (R225). -/
def execUmul (d a b : Fin 32) (s : State) : Host.Outcome State Fault Refusal := uniOp (.umul d a b) d a b (fun x y => x * y) s
/-- UMULHI (R225): signed. -/
def execUmulhi (d a b : Fin 32) (s : State) : Host.Outcome State Fault Refusal :=
  uniOp (.umulhi d a b) d a b (fun x y => BitVec.ofInt 64 (x.toInt * y.toInt / 18446744073709551616)) s
/-- UAND (R225). -/
def execUand (d a b : Fin 32) (s : State) : Host.Outcome State Fault Refusal := uniOp (.uand d a b) d a b (fun x y => x &&& y) s
/-- UOR (R225). -/
def execUor (d a b : Fin 32) (s : State) : Host.Outcome State Fault Refusal := uniOp (.uor d a b) d a b (fun x y => x ||| y) s
/-- UXOR (R225). -/
def execUxor (d a b : Fin 32) (s : State) : Host.Outcome State Fault Refusal := uniOp (.uxor d a b) d a b (fun x y => x ^^^ y) s
/-- USHL (R225). -/
def execUshl (d a b : Fin 32) (s : State) : Host.Outcome State Fault Refusal :=
  uniOp (.ushl d a b) d a b (fun x y => x <<< nbits y.toNat 0 6) s
/-- USHR (R225). -/
def execUshr (d a b : Fin 32) (s : State) : Host.Outcome State Fault Refusal :=
  uniOp (.ushr d a b) d a b (fun x y => x >>> nbits y.toNat 0 6) s
/-- USAR (R225). -/
def execUsar (d a b : Fin 32) (s : State) : Host.Outcome State Fault Refusal :=
  uniOp (.usar d a b) d a b (fun x y => x.sshiftRight (nbits y.toNat 0 6)) s
/-- UMIN (R225). -/
def execUmin (d a b : Fin 32) (s : State) : Host.Outcome State Fault Refusal :=
  uniOp (.umin d a b) d a b (fun x y => if x.toInt ≤ y.toInt then x else y) s
/-- UMAX (R225). -/
def execUmax (d a b : Fin 32) (s : State) : Host.Outcome State Fault Refusal :=
  uniOp (.umax d a b) d a b (fun x y => if x.toInt ≤ y.toInt then y else x) s
/-- UCMPLT (R225). -/
def execUcmplt (d a b : Fin 32) (s : State) : Host.Outcome State Fault Refusal :=
  uniOp (.ucmplt d a b) d a b (fun x y => bit64 (decide (x.toInt < y.toInt))) s
/-- UCMPEQ (R225). -/
def execUcmpeq (d a b : Fin 32) (s : State) : Host.Outcome State Fault Refusal :=
  uniOp (.ucmpeq d a b) d a b (fun x y => bit64 (decide (x = y))) s
/-- UCMPLTN (R225). -/
def execUcmpltn (d a b : Fin 32) (s : State) : Host.Outcome State Fault Refusal :=
  uniOp (.ucmpltn d a b) d a b (fun x y => bit64 (decide (x.toNat < y.toNat))) s
/-- UADDI (R224). -/
def execUaddi (d a : Opnd) (i : BitVec 11) (s : State) : Host.Outcome State Fault Refusal :=
  runNext (.uaddi d a i)
    (strandOp { sin := [a], sout := [d] } (fun x => x.st.setS d.num (x.st.sreg a.num + i.signExtend 64))) s

end Sys2Proof.Machine
end

