-- ==== Sys2Proof/Machine/FloatOps.lean ====
section
/-! DEFINITION. Floating-point arithmetic and comparison of the vector units (R205..R211). -/

namespace Sys2Proof.Machine

/-- A thread's result: word, flags, stochastic state. -/
structure LaneRes where
  val : Word
  flags : BitVec 4
  sto : Word
  deriving DecidableEq, Repr, Inhabited

/-- The elements of one thread, lowest first; under RST each result advances the stochastic state (R69). -/
def laneElems (w n rm : Nat) (fz : Bool) (op : Rnd → Nat → FRes) (sto : Word) : LaneRes :=
  (List.range n).foldl (fun r k =>
    let st := if rm = 5 then nextSto r.sto else r.sto
    let x := op ⟨rm, st.toNat, fz⟩ k
    ⟨r.val ||| BitVec.ofNat 32 (x.1 % 2 ^ w * 2 ^ (w * k)), r.flags ||| x.2, st⟩) ⟨0, 0, sto⟩

/-- The flags of the active threads (R59, R193). -/
def laneFlags (act : Word) (l : Nat → LaneRes) : BitVec 4 := (threadsOf act).foldl (fun f t => f ||| (l t).flags) 0

/-- A vector instruction whose threads also set flags and advance stochastic states. -/
def laneOp (x : Use) (n : Bool) (d : Opnd) (l : Site → Nat → LaneRes) (fx : Site → Strand → Strand := fun _ st => st) : Meaning :=
  vecOp x n d (fun a t => (l a t).val)
    (fun a st => fx a { st.orFlags (laneFlags a.st.active (l a)) with
                        sto := writeThreads st.sto 0 a.st.active (fun t => (l a t).sto) 32 })

/-- The stochastic state of a thread. -/
def Strand.stoOf (st : Strand) (t : Nat) : Word := mget st.sto t

/-- An elementwise floating function of D, A and B in the element's own format. -/
def floatLane (st : Strand) (useRm : Bool) (op : Fmt → Rnd → Nat → Nat → Nat → FRes) (wa wb wd : Word) (t : Nat) : LaneRes :=
  let et := mrET st.mr
  laneElems (etWidth et) (etCount et) (if useRm then mrRM st.mr else 0) (mrFZ st.mr)
    (fun r k => op (etFmt et) r (elemBits et wa k) (elemBits et wb k) (elemBits et wd k)) (st.stoOf t)

/-- The checks of the floating family, with RM when it is read (R57, R192). -/
def fmode (useRm : Bool) (mr : Word) : Bool := etBad etFloat mr || (useRm && rmBad mr)

/-- A floating function of two sources. -/
def falu3 (i : Instr) (f : FR3) (useRm : Bool) (op : Fmt → Rnd → Nat → Nat → FRes)
    (fx : Site → Strand → Strand := fun _ st => st) (s : State) : Host.Outcome State Fault Refusal :=
  runNext i (laneOp { use3 f with mode := fmode useRm } f.n f.d
    (fun a t => floatLane a.st useRm (fun m r x y _ => op m r x y) (a.st.src f.a t) (a.st.src f.b t) 0 t) fx) s

/-- A floating function of one source. -/
def falu2 (i : Instr) (f : FR2) (useRm : Bool) (op : Fmt → Rnd → Nat → FRes)
    (fx : Site → Strand → Strand := fun _ st => st) (s : State) : Host.Outcome State Fault Refusal :=
  runNext i (laneOp { use2 f with mode := fmode useRm } f.n f.d
    (fun a t => floatLane a.st useRm (fun m r x _ _ => op m r x) (a.st.src f.a t) 0 0 t) fx) s

/-- A floating function that reads D as well. -/
def faluA (i : Instr) (f : FRA) (op : Fmt → Rnd → Nat → Nat → Nat → FRes) (s : State) : Host.Outcome State Fault Refusal :=
  runNext i (laneOp { useA f with mode := fmode true } false f.d
    (fun a t => floatLane a.st true op (a.st.src f.a t) (a.st.src f.b t) (a.st.src f.d t) t)) s

/-- The result arrives `n` issue periods after issue (R194). -/
def arrives (nf : Bool) (d : Opnd) (n : Nat) (a : Site) (st : Strand) : Strand :=
  st.delay ((if nf then [] else [d.code]) ++ [72]) (a.s.period + n)

/-- FADD (R205). -/
def execFadd (f : FR3) (s : State) : Host.Outcome State Fault Refusal :=
  falu3 (.fadd f) f true (fun m r a b => m.add r (m.value r.fz a) (m.value r.fz b)) (s := s)
/-- FSUB (R205). -/
def execFsub (f : FR3) (s : State) : Host.Outcome State Fault Refusal :=
  falu3 (.fsub f) f true (fun m r a b => m.add r (m.value r.fz a) (m.value r.fz b).neg) (s := s)
/-- FMUL (R205). -/
def execFmul (f : FR3) (s : State) : Host.Outcome State Fault Refusal :=
  falu3 (.fmul f) f true (fun m r a b => m.mulR r (m.value r.fz a) (m.value r.fz b)) (s := s)
/-- FMA (R206). -/
def execFma (f : FRA) (s : State) : Host.Outcome State Fault Refusal :=
  faluA (.fma f) f (fun m r a b d => m.fma r (m.value r.fz a) (m.value r.fz b) (m.value r.fz d)) s
/-- FMS (R206). -/
def execFms (f : FRA) (s : State) : Host.Outcome State Fault Refusal :=
  faluA (.fms f) f (fun m r a b d => m.fma r (m.value r.fz a) (m.value r.fz b) (m.value r.fz d).neg) s
/-- FMIN (R207). -/
def execFmin (f : FR3) (s : State) : Host.Outcome State Fault Refusal :=
  falu3 (.fmin f) f false (fun m r a b => m.minmax false r.fz a b) (s := s)
/-- FMAX (R207). -/
def execFmax (f : FR3) (s : State) : Host.Outcome State Fault Refusal :=
  falu3 (.fmax f) f false (fun m r a b => m.minmax true r.fz a b) (s := s)

/-- Set the sign of a source, canonical NaN apart (R64, R205). -/
def signOp (m : Fmt) (fz : Bool) (a : Nat) (sg : Bool → Bool) : FRes :=
  match m.value fz a with
  | .nan g => (m.nanBits, if g then flagIV else 0)
  | x => let b := m.flush fz a
         (b % 2 ^ (m.e + m.f) + m.signBit (sg x.sign), 0)
/-- FABS (R205). -/
def execFabs (f : FR2) (s : State) : Host.Outcome State Fault Refusal :=
  falu2 (.fabs f) f false (fun m r a => signOp m r.fz a (fun _ => false)) (s := s)
/-- FNEG (R205). -/
def execFneg (f : FR2) (s : State) : Host.Outcome State Fault Refusal :=
  falu2 (.fneg f) f false (fun m r a => signOp m r.fz a (fun x => !x)) (s := s)
/-- FRCP (R208). -/
def execFrcp (f : FR2) (s : State) : Host.Outcome State Fault Refusal :=
  falu2 (.frcp f) f false (fun m r a => m.rcp r.fz (m.value r.fz a)) (arrives f.n f.d 2) s
/-- FRSQ (R208). -/
def execFrsq (f : FR2) (s : State) : Host.Outcome State Fault Refusal :=
  falu2 (.frsq f) f false (fun m r a => m.rsq r.fz (m.value r.fz a)) (arrives f.n f.d 2) s
/-- FSQRT (R205). -/
def execFsqrt (f : FR2) (s : State) : Host.Outcome State Fault Refusal :=
  falu2 (.fsqrt f) f true (fun m r a => m.sqrt r (m.value r.fz a)) (arrives f.n f.d 4) s
/-- FDIV (R205). -/
def execFdiv (f : FR3) (s : State) : Host.Outcome State Fault Refusal :=
  falu3 (.fdiv f) f true (fun m r a b => m.div r (m.value r.fz a) (m.value r.fz b)) (arrives f.n f.d 4) s
/-- FEX2 (R208). -/
def execFex2 (f : FR2) (s : State) : Host.Outcome State Fault Refusal :=
  falu2 (.fex2 f) f false (fun m r a => m.ex2 r.fz (m.value r.fz a)) (arrives f.n f.d 2) s
/-- FLG2 (R208). -/
def execFlg2 (f : FR2) (s : State) : Host.Outcome State Fault Refusal :=
  falu2 (.flg2 f) f false (fun m r a => m.lg2 r.fz (m.value r.fz a)) (arrives f.n f.d 2) s

/-- a × 2^n rounded; a zero, an infinity or a NaN gives itself (R210). -/
def sclElem (m : Fmt) (r : Rnd) (a b : Nat) : FRes :=
  let n := max (-512) (min 512 (sint m.width b))
  match m.value r.fz a with
  | .fin s k x => if k = 0 then (m.zero s, 0) else m.round r s k (x + n) false
  | v => m.place r v
/-- FSCL (R210). -/
def execFscl (f : FR3) (s : State) : Host.Outcome State Fault Refusal := falu3 (.fscl f) f true sclElem (s := s)

/-- A floating comparison: per element the relation and the flags, over the element pairs (R211). -/
def fcmpOp (i : Instr) (f : FCmp) (g : Fl → Fl → Bool) (quiet : Bool) (fin : List Bool → Bool) (s : State) :
    Host.Outcome State Fault Refusal :=
  runNext i
    (strandOp { src := [f.a, f.b], mode := fmode false }
      (fun a =>
        let et := mrET a.st.mr
        let m := etFmt et
        let v := fun o t k => m.value (mrFZ a.st.mr) (elemBits et (a.st.src o t) k)
        let ks := List.range (etCount et)
        let fl := fun t => ks.foldl (fun (acc : BitVec 4) k =>
          let x := v f.a t k
          let y := v f.b t k
          acc ||| (if quiet then sigFlag x ||| sigFlag y else if x.isNan || y.isNan then flagIV else 0)) 0
        let st := a.st.setPred f.p.val a.st.active (maskOf (fun t => fin (ks.map (fun k => g (v f.a t k) (v f.b t k)))))
        st.orFlags ((threadsOf a.st.active).foldl (fun acc t => acc ||| fl t) 0))) s
/-- FCMP.EQ (R211). -/
def execFcmpEq (f : FCmp) (s : State) : Host.Outcome State Fault Refusal := fcmpOp (.fcmpEq f) f Fl.eq true (fun l => l.all id) s
/-- FCMP.NE (R211). -/
def execFcmpNe (f : FCmp) (s : State) : Host.Outcome State Fault Refusal := fcmpOp (.fcmpNe f) f Fl.eq true (fun l => !l.all id) s
/-- FCMP.LT (R211). -/
def execFcmpLt (f : FCmp) (s : State) : Host.Outcome State Fault Refusal := fcmpOp (.fcmpLt f) f Fl.lt false (fun l => l.all id) s
/-- FCMP.LE (R211). -/
def execFcmpLe (f : FCmp) (s : State) : Host.Outcome State Fault Refusal :=
  fcmpOp (.fcmpLe f) f (fun a b => a.lt b || a.eq b) false (fun l => l.all id) s
/-- FCMP.GT (R211). -/
def execFcmpGt (f : FCmp) (s : State) : Host.Outcome State Fault Refusal :=
  fcmpOp (.fcmpGt f) f (fun a b => b.lt a) false (fun l => l.all id) s
/-- FCMP.GE (R211). -/
def execFcmpGe (f : FCmp) (s : State) : Host.Outcome State Fault Refusal :=
  fcmpOp (.fcmpGe f) f (fun a b => b.lt a || b.eq a) false (fun l => l.all id) s
/-- FCMP.UN (R211). -/
def execFcmpUn (f : FCmp) (s : State) : Host.Outcome State Fault Refusal :=
  fcmpOp (.fcmpUn f) f (fun a b => a.isNan || b.isNan) true (fun l => l.any id) s

end Sys2Proof.Machine
end

