-- ==== Sys2Proof/Machine/Convert.lean ====
section
/-! DEFINITION. Conversions, quantisation, packing and plane transposition (R70, R77, R78, R212..R216). -/

namespace Sys2Proof.Machine

/-- KIND of a format slot (R77). -/
def slotKind (w : Word64) : Nat := nbits w.toNat 0 4
/-- The planes that P encodes. -/
def slotPlanes (w : Word64) : Nat := let p := nbits w.toNat 4 4; if p = 0 then 16 else p
/-- M. -/
def slotM (w : Word64) : Bool := nbit w.toNat 8
/-- SIGNED. -/
def slotSigned (w : Word64) : Bool := nbit w.toNat 9
/-- SCALED. -/
def slotScaled (w : Word64) : Bool := nbit w.toNat 10
/-- OFFSET. -/
def slotOffset (w : Word64) : Int := sint 8 (nbits w.toNat 16 8)

/-- A slot is well-formed and of the kind named (R78). -/
def slotOk (kind : Nat) (w : Word64) : Bool :=
  let x := w.toNat
  let p := nbits x 4 4
  decide (nbits x 24 40 = 0) && decide (nbits x 11 5 = 0) && decide (slotKind w = kind) &&
  (match kind with
    | 1 => decide (p = 0) && !slotM w
    | 2 => decide (p ≠ 1) && !slotSigned w
    | 3 => decide (p = 0) && !slotM w
    | 4 => (decide (p = 8) || decide (p = 0)) && !slotM w && !slotSigned w
    | _ => false)

/-- The conversion from one element type to another reads MR.RM (R70). -/
def convReadsRm (es et : Nat) : Bool :=
  if etInt es && etInt et then false
  else if etFloat es && etFloat et then (es != et && (et != 6))
  else true

/-- One element converted (R70). -/
def convElem (es et : Nat) (sat : Bool) (r : Rnd) (b : Nat) : FRes :=
  let i : Int := if etSigned es then sint (etWidth es) b else (b : Int)
  if etInt es then
    if etInt et then (fitN (etWidth et) (etSigned et) sat i, 0)
    else (etFmt et).ofInt r i
  else if etInt et then
    let v := floatToInt r (intMin (etWidth et) (etSigned et)) (intMax (etWidth et) (etSigned et)) ((etFmt es).value r.fz b)
    (wrapN (etWidth et) v.1, v.2)
  else (etFmt es).convert (etFmt et) r b

/-- Elements converted into a word of the target type; the elements beyond `n` are 0 (R212). -/
def convLane (st : Strand) (et n : Nat) (src : Nat → Nat) (sto : Word) : LaneRes :=
  let es := mrET st.mr
  laneElems (etWidth et) n (if convReadsRm es et then mrRM st.mr else 0) (mrFZ st.mr)
    (fun r k => convElem es et (mrSAT st.mr) r (src k)) sto

/-- The modes that a conversion reads (R57, R70, R192). -/
def convBad (et : Nat) (mr : Word) : Bool := decide (8 < mrET mr) || (convReadsRm (mrET mr) et && rmBad mr)

/-- CVT (R212). -/
def execCvt (f : FCvt) (s : State) : Host.Outcome State Fault Refusal :=
  runNext (.cvt f)
    (laneOp { src := [f.a], out := if f.n then [] else [f.d], mode := convBad f.e.val } f.n f.d
      (fun a t => convLane a.st f.e.val (min (etCount (mrET a.st.mr)) (etCount f.e.val))
        (fun k => elemBits (mrET a.st.mr) (a.st.src f.a t) k) (a.st.stoOf t))) s

/-- Registers of the group of PACK or UNPK (R213). -/
def groupSize (ns nt : Nat) : Nat := if ns ≤ nt then nt / ns else ns / nt
/-- The direction that PACK or UNPK does not allow (R213). -/
def packDir (pack : Bool) (et : Nat) (mr : Word) : Bool :=
  decide (8 < mrET mr) || (if pack then decide (etCount et < etCount (mrET mr)) else decide (etCount (mrET mr) < etCount et))

/-- Register j of the source group in thread t; an S register supplies both words of a pair (R213, R47). -/
def packSrc (st : Strand) (o : Opnd) (j t : Nat) : Word :=
  match o with
  | .s n => ((st.sreg n.val) >>> (32 * j)).setWidth 32
  | _ => if j = 0 then st.src o t else st.srcAt o j t

/-- PACK (R213). -/
def execPack (f : FCvt) (s : State) : Host.Outcome State Fault Refusal :=
  let g := fun (mr : Word) => groupSize (etCount (mrET mr)) (etCount f.e.val)
  runNext (.pack f)
    (laneOp { src := [f.a], out := if f.n then [] else [f.d], mode := convBad f.e.val, early := packDir true f.e.val
              grpMr := fun mr => if g mr = 4 then [(f.a, 4)] else []
              src64Mr := fun mr => if g mr = 2 then [f.a] else [] } f.n f.d
      (fun a t =>
        let ns := etCount (mrET a.st.mr)
        convLane a.st f.e.val (etCount f.e.val)
          (fun k => elemBits (mrET a.st.mr) (packSrc a.st f.a (k / ns) t) (k % ns)) (a.st.stoOf t))) s

/-- UNPK (R213): destination register j takes the elements from j × n_t on; with N = 1 only the first goes to L0 (R195). DESIGN CHOICE: the
elements of the registers that are not written then still set their flags and advance the stochastic state; the spec does not say. -/
def execUnpk (f : FCvt) (s : State) : Host.Outcome State Fault Refusal :=
  let nt := etCount f.e.val
  let g := fun (mr : Word) => groupSize (etCount (mrET mr)) nt
  let all := fun (a : Site) (t : Nat) =>
    (List.range (g a.st.mr)).foldl (fun (acc : List Word × BitVec 4 × Word) j =>
      let r := convLane a.st f.e.val nt (fun k => elemBits (mrET a.st.mr) (a.st.src f.a t) (j * nt + k)) acc.2.2
      (acc.1 ++ [r.val], acc.2.1 ||| r.flags, r.sto)) ([], 0, a.st.stoOf t)
  runNext (.unpk f)
    (laneOp { src := [f.a], out := if f.n then [] else [f.d], mode := convBad f.e.val, early := packDir false f.e.val
              grpMr := fun mr => if g mr = 1 || f.n then [] else [(f.d, g mr)] } f.n f.d
      (fun a t => let r := all a t; ⟨r.1.headD 0, r.2.1, r.2.2⟩)
      (fun a st => if f.n then st else
        (List.range (g a.st.mr - 1)).foldl
          (fun x j => x.writeV (f.d.num + j + 1) a.st.active (fun t => ((all a t).1.drop (j + 1)).headD 0)) st)) s

/-- The two blocks of a strand: threads 0..15 and 16..31 (R72). -/
def blockThreads (b : Nat) : List Nat := (List.range 16).map (fun i => 16 * b + i)

/-- The greater of two magnitudes; `none` stands for infinity. -/
def magMax (a b : Option (Nat × Int)) : Option (Nat × Int) :=
  match a, b with
  | some (m, x), some (n, y) =>
    if m * 2 ^ (x - min x y).toNat < n * 2 ^ (y - min x y).toNat then some (n, y) else some (m, x)
  | _, _ => none

/-- m × 2^x is at most q × 2^e. -/
def magLe (m : Nat) (x : Int) (q : Nat) (e : Int) : Bool :=
  decide (m * 2 ^ (x - min x e).toNat ≤ q * 2 ^ (e - min x e).toNat)

/-- The smallest integer e with m × 2^x ≤ q × 2^e, for m nonzero (R214). -/
def leastExp (m : Nat) (x : Int) (q : Nat) : Int :=
  let e0 := x + (Nat.log2 m : Nat) - (Nat.log2 q : Nat) - 1
  if magLe m x q e0 then e0 else if magLe m x q (e0 + 1) then e0 + 1 else e0 + 2

/-- What QNT finds for a block: NaN seen, exponent, scale byte, IV (R214). -/
structure BlockScale where
  any : Bool
  nan : Bool
  e : Int
  byte : Nat
  iv : Bool
  deriving DecidableEq, Repr

/-- The scale of block b (R214). -/
def blockScale (st : Strand) (x : Opnd) (slot : Word64) (b : Nat) : BlockScale :=
  let ts := (blockThreads b).filter (fun t => tbit st.active t)
  let v := fun t => fmtF32.value (mrFZ st.mr) (st.src x t).toNat
  let d := slotOffset slot
  let q := if slotSigned slot then 127 else 255
  let isInf := fun (f : Fl) => match f with | .inf _ => true | _ => false
  let nan := ts.any (fun t => (v t).isNan)
  let inf := ts.any (fun t => isInf (v t))
  let m := ts.foldl (fun acc t => magMax acc (match v t with | .fin _ k y => some (k, y) | _ => none)) (some (0, 0))
  let fromByte := fun (raw : Int) => let byte := max 0 (min 254 raw); (byte + d - 127, byte.toNat)
  let r : Int × Nat :=
    if !slotScaled slot then (d, 127)
    else match m with
      | none => (254 + d - 127, 254)
      | some (k, y) => if k = 0 then fromByte (127 - d) else fromByte (leastExp k y q + 127 - d)
  { any := !ts.isEmpty, nan := nan, e := r.1, byte := if nan then 255 else r.2, iv := nan || inf }

/-- A thread of QNT (R214). -/
def qntLane (st : Strand) (x : Opnd) (slot : Word64) (t : Nat) : LaneRes :=
  let b := blockScale st x slot (t / 16)
  let q : Int := if slotSigned slot then 127 else 255
  let lo : Int := if slotSigned slot then -127 else 0
  let sto := if mrRM st.mr = 5 then nextSto (st.stoOf t) else st.stoOf t
  let r : Rnd := ⟨mrRM st.mr, sto.toNat, false⟩
  let y : Int := match fmtF32.value (mrFZ st.mr) (st.src x t).toNat with
    | .nan _ => 0
    | .inf s => if s then lo else q
    | .fin s m e => max lo (min q (roundInt r s m (e - b.e)))
  ⟨BitVec.ofInt 32 (if b.nan then 0 else y), if b.iv then flagIV else 0, sto⟩

/-- QNT (R214): O6 of every thread of a block with an active thread receives the scale byte after D is written (R49). -/
def execQnt (f : FSlot) (s : State) : Host.Outcome State Fault Refusal :=
  let slot := fun (a : Site) => a.s.slotOf a.c f.s.val
  runNext (.qnt f)
    (laneOp { src := [f.a], out := (if f.n then [] else [f.d]) ++ [.o 6], mode := rmBad, slot := fun g => !slotOk 3 (g f.s.val) } f.n f.d
      (fun a t => qntLane a.st f.a (slot a) t)
      (fun a st =>
        let m := maskOf (fun t => (blockScale a.st f.a (slot a) (t / 16)).any)
        st.writeReg (.o 6) m (fun t => BitVec.ofNat 32 (blockScale a.st f.a (slot a) (t / 16)).byte))) s

/-- DQNT (R215). -/
def execDqnt (f : FSlot) (s : State) : Host.Outcome State Fault Refusal :=
  runNext (.dqnt f)
    (laneOp { src := [f.a, .o 6], out := if f.n then [] else [f.d], mode := rmBad, slot := fun g => !slotOk 3 (g f.s.val) } f.n f.d
      (fun a t =>
        let slot := a.s.slotOf a.c f.s.val
        let w := nbits (a.st.src f.a t).toNat 0 8
        let sc := nbits (a.st.oreg 6 t).toNat 0 8
        let q : Int := if slotSigned slot then sint 8 w else (w : Int)
        let e : Int := (if slotScaled slot then (sc : Int) else 127) + slotOffset slot - 127
        laneElems 32 1 (mrRM a.st.mr) (mrFZ a.st.mr)
          (fun r _ =>
            if slotScaled slot && decide (sc = 255) then (fmtF32.nanBits, flagIV)
            else if q = 0 then (fmtF32.zero false, 0)
            else fmtF32.round r (decide (q < 0)) q.natAbs e false) (a.st.stoOf t))) s

/-- NEST (R216). -/
def execNest (f : FSlot) (s : State) : Host.Outcome State Fault Refusal :=
  runNext (.nest f)
    (vecOp { src := [f.a], out := if f.n then [] else [f.d], slot := fun g => !slotOk 4 (g f.s.val) } f.n f.d
      (fun a t =>
        let p := slotPlanes (a.s.slotOf a.c f.s.val)
        let base := 16 * (t / 16)
        let i := t % 16
        let w := fun (n : Nat) => if tbit a.st.active (base + n) then (a.st.src f.a (base + n)).toNat else 0
        let plane := fun (bit : Nat) =>
          ((List.range 8).map (fun k => (nbits (w (8 * (i % 2) + k)) bit 1) * 2 ^ k)).sum
        BitVec.ofNat 32 (if p = 8 then plane (7 - i / 2) else plane (7 - i / 2) * 256 + plane (15 - i / 2)))) s

end Sys2Proof.Machine
end

