-- ==== Sys2Proof/Machine/Route.lean ====
section
/-! DEFINITION. The pod's topology and the choice of a path for a packet that leaves this device (R350..R352, R355), and the
path counters of ordered flags (R356). -/

namespace Sys2Proof.Machine

/-- The electrical group of a device (R350). -/
def groupNum (d : Nat) : Nat := d / 32
/-- Its member number. -/
def memberNum (d : Nat) : Nat := d % 32
/-- The port of a device that connects to member `m` of its own group (R350). -/
def memberPort (own m : Nat) : Nat := (m + 63 - own) % 32

/-- The route to another group: gateway member and optical port, when the entry is valid (R351). -/
def State.route (s : State) (g : Nat) : Option (Nat × Nat) :=
  let e := (mget s.groute g).toNat
  if nbit e 0 then some (nbits e 1 5, 31 + nbits e 6 3) else none

/-- Hops from member `m` of this device's group to a device by the minimal rule (R355). -/
def State.minHops (s : State) (m dst : Nat) : Nat :=
  if groupNum dst = groupNum s.dev then 1
  else match s.route (groupNum dst) with
    | some (gw, _) => (if m = gw then 0 else 1) + 1 + (if mget s.circuits (groupNum dst) = dst + 1 then 0 else 1)
    | none => 3

/-- The port of the minimal path's first hop, when its group is connected (R355). -/
def State.minPort (s : State) (dst : Nat) : Option Nat :=
  let own := memberNum s.dev
  if groupNum dst = groupNum s.dev then some (memberPort own (memberNum dst))
  else (s.route (groupNum dst)).map (fun r => if own = r.1 then r.2 else memberPort own r.1)

/-- The domain of a port: a packet of the other domain crosses the bridge to it (R350). -/
def portDom (p : Nat) : Nat := if p < 31 then p / 18 else 1

/-- A port can carry a packet. -/
def State.portUp (s : State) (p : Nat) : Bool := !(mget s.ports p).down

/-- Path `p` to a device has no hop down beyond the first. -/
def State.pathUp (s : State) (dst p : Nat) : Bool := !mget s.hopsDown (64 * dst + p)

/-- The intermediate member of the Valiant path: the shortest queue, ties to the lowest number (R355). -/
def State.valiant (s : State) (dst : Nat) : Option Nat :=
  let own := memberNum s.dev
  let ok := (List.range 32).filter (fun m => decide (m ≠ own)
    && !(decide (groupNum dst = groupNum s.dev) && decide (m = memberNum dst))
    && s.portUp (memberPort own m) && s.pathUp dst (1 + m))
  let q := fun m => (mget s.ports (memberPort own m)).queue
  ok.foldl (fun best m => match best with
    | some b => if q m < q b then some m else some b
    | none => some m) none

/-- The path and the port that a packet takes; none when the destination is unreachable (R352, R355). A Valiant path may be chosen before a minimal one
that is up only when `val`. -/
def State.choosePathBy (s : State) (val : Bool) (dst : Nat) : Option (Nat × Nat) :=
  let own := memberNum s.dev
  let cost := fun (port hops : Nat) => ((mget s.ports port).queue + 1) * hops
  match s.minPort dst with
  | none => none
  | some mp =>
    let minUp := s.portUp mp && s.pathUp dst 0
    match s.valiant dst with
    | none => if minUp then some (0, mp) else none
    | some m =>
      let vp := memberPort own m
      if !minUp then some (1 + m, vp)
      else if val && decide (cost vp (1 + s.minHops m dst) < cost mp (s.minHops own dst)) then some (1 + m, vp)
      else some (0, mp)

/-- The choice as FABCFG.VAL has it. -/
def State.choosePath (s : State) (dst : Nat) : Option (Nat × Nat) := s.choosePathBy (s.fabcfg.getLsbD 0) dst

/-- Flits of a packet with a payload of `n` bytes (R353). -/
def flitsOf (n : Nat) : Nat := max 1 ((n + 63) / 64)

/-- Payload bytes of a request: store data or atomic operands, a compare and swap's with its comparand; a load carries none (R353, R354). -/
def Req.payload (r : Req) : Nat :=
  let n := (r.accs.map (fun x => x.size)).sum
  match r.kind with
  | .load => 0
  | .atomic aop => if aop = 9 then 2 * n else n
  | .atomicW aop => if aop = 4 ∨ aop = 5 then 2 * n else n
  | _ => n

/-- Data bytes of a reply: what a load or an atomic returns; an acknowledgement carries none (R353). -/
def Req.replyBytes (r : Req) : Nat :=
  match r.kind with
  | .load => r.vals.length * (r.accs.headD default).size
  | .atomic _ => r.vals.length * (r.accs.headD default).size
  | .atomicW _ => r.vals.length * (r.accs.headD default).size
  | _ => 0

/-- The request is a write of its strand that an acknowledgement ends (R127). -/
def ReqKind.isWrite : ReqKind → Bool
  | .store => true
  | .put _ => true
  | .stx _ => true
  | .ack => true
  | _ => false

/-- The path held at the source (R356). -/
def pathHeld : Nat := 63

/-- Index of a path counter: domain of the switch, strand, destination device, path (R356). -/
def pathKey (dom u k dev path : Nat) : Nat := (((dom + 2 * u) * 1024 + k) * 1024 + dev) * 64 + path

/-- The counter of a request's write. -/
def Req.pathKey (r : Req) : Nat := Machine.pathKey (domOf r.core) r.crew r.strand (devOf r.pa) r.path

/-- Change a path counter. -/
def State.pathCount (s : State) (key : Nat) (f : Nat → Nat) : State :=
  { s with pathCnt := mset s.pathCnt key (f (mget s.pathCnt key)) }

/-- Counters of a strand and destination in the switch of a domain. -/
def State.pathSum (s : State) (dom u k dev : Nat) : Nat :=
  ((s.pathCnt.filter (fun e => decide (e.1 / 64 = pathKey dom u k dev 0 / 64))).map (·.2)).sum

/-- All 4,096 counters of a domain's switch are in use (R356). -/
def State.pathsFull (s : State) (dom : Nat) : Bool :=
  decide (4096 ≤ (s.pathCnt.filter (fun e => decide (e.1 / 2 ^ 26 % 2 = dom))).length)

/-- Number of a port among the blocks that keep a power budget (R380): slice k of core n at 16n + k, arrays from 2^14, ports from 2^15. -/
def portBlock (p : Nat) : Nat := 2 ^ 15 + p
/-- Number of a core's array. -/
def arrayBlock (core : Nat) : Nat := 2 ^ 14 + core

/-- Use a port: its queue grows by a packet's flits and it leaves its low-power state (R353, R378). -/
def State.usePort (s : State) (port flits : Nat) : State :=
  let p := mget s.ports port
  { s with ports := mset s.ports port { p with queue := p.queue + flits, lowPower := false, usedAt := s.time }
           activity := mset s.activity (portBlock port) (mget s.activity (portBlock port) + flits) }

/-- The path of an ordered flag that has not yet tried to leave. -/
def pathWaits : Nat := 62

/-- The path of a write that waits at the core's port for a path counter (R356). -/
def pathPort : Nat := 61

/-- The path of a request that waits at the router port of its core's chiplet (R379). -/
def pathRouter : Nat := 60

/-- The request counts on its path (R356). -/
def Req.counted (r : Req) : Bool :=
  r.kind.isWrite && decide (r.path ≠ pathWaits) && decide (r.path ≠ pathPort) && decide (r.path ≠ pathRouter)

/-- A router port is powered and awake. -/
def State.routerReady (s : State) (port : Nat) : Bool := !mget s.routerDown port && decide (mget s.routerUsed port ≤ s.time)

/-- A router port that is powered down wakes in 256 base cycles; one that went down in this base cycle stays powered (R378, R379). -/
def State.wakeRouter (s : State) (port : Nat) : State :=
  if mget s.routerDown port then
    { s with routerDown := mset s.routerDown port false
             routerUsed := mset s.routerUsed port (if mget s.routerUsed port = s.time then s.time else s.time + 256) }
  else s

/-- A router port carries a flit: its idle count restarts (R378). -/
def State.useRouter (s : State) (port : Nat) : State :=
  { s with routerUsed := mset s.routerUsed port (max s.time (mget s.routerUsed port)) }

/-- A write of strand k of crew u waits at the core's port for a path counter. -/
def State.portWaits (s : State) (u k : Nat) : Bool :=
  s.net.any (fun e => decide (e.2.path = pathPort) && !e.2.left && decide (e.2.dev = s.dev) && decide (e.2.crew = u) && decide (e.2.strand = k))

/-- The path and port of a request: a multicast copy goes by the minimal path, through the gateway or directly, while that is up (R355, R359). -/
def State.pathOf (s : State) (r : Req) : Option (Nat × Nat) :=
  if r.group = 0 then s.choosePath (devOf r.pa) else s.choosePathBy false (devOf r.pa)

/-- A packet leaves by a port; one that must cross the bridge during a retrain waits here for its end (R350, R370); domain 2 stands for the
port's own. -/
def State.leaveBy (s : State) (id port : Nat) (x : Sent) : State :=
  if s.bridgeDown && decide (x.dom < 2) && decide (portDom port ≠ x.dom) then { s with held := mset s.held id { x with port := port + 1 } }
  else { s with packetsOut := mset s.packetsOut id x }.usePort port x.flits

/-- A multicast copy that leaves at this time. -/
def Sent.copyNow (x : Sent) (now : Nat) : Bool := decide (x.at_ = now) && (match x.p with | .multicast _ _ => true | _ => false)

/-- The number of another copy of the same multicast that leaves for the same group now: one copy travels there (R359). -/
def State.groupCopy (s : State) (id : Nat) (r : Req) : Option Nat :=
  if r.group = 0 || groupNum (devOf r.pa) = groupNum s.dev then none
  else (s.net.find? (fun e => decide (e.1 ≠ id) && e.2.left && decide (e.2.group = r.group) && decide (e.2.mst = r.mst)
    && decide (localOf e.2.pa = localOf r.pa) && decide (groupNum (devOf e.2.pa) = groupNum (devOf r.pa))
    && ((mget s.packetsOut e.1).copyNow s.time || (mget s.held e.1).copyNow s.time))).map (·.1)

/-- The packet of a request: to another group a multicast copy, with the members that it is for and their numbers (R359). -/
def State.packetOf (s : State) (id : Nat) (r : Req) : Packet :=
  if r.group = 0 || groupNum (devOf r.pa) = groupNum s.dev then .request r else .multicast r [(devOf r.pa, id)]

/-- One more member of a multicast copy. -/
def Packet.addMember (p : Packet) (m id : Nat) : Packet :=
  match p with
  | .multicast r ids => .multicast r (ids ++ [(m, id)])
  | p => p

/-- One more member of the multicast copy with number j. -/
def State.joinCopy (s : State) (j m id : Nat) : State :=
  if (mget s.packetsOut j).p = .none then { s with held := mset s.held j { mget s.held j with p := (mget s.held j).p.addMember m id } }
  else { s with packetsOut := mset s.packetsOut j { mget s.packetsOut j with p := (mget s.packetsOut j).p.addMember m id } }

/-- A request leaves its switch for another device, or is held at its source when the device cannot be reached (R352, R355, R356). Its write counts on
the path that it takes, to which its count moves. A write that needs a new path counter while none is left waits at the port, or, when it counts
already, stays where it is counted. -/
def State.depart (s : State) (id : Nat) (r : Req) : State :=
  let r0 := { r with bornAt := if r.path = pathWaits ∨ r.path = pathRouter then s.time else r.bornAt }
  let s0 := if r.counted then s.pathCount r.pathKey (· - 1) else s
  let noCounter := fun (r : Req) => r.kind.isWrite && decide (mget s0.pathCnt r.pathKey = 0) && s0.pathsFull (domOf r.core)
  let count := fun (r : Req) (s : State) => if r.kind.isWrite then s.pathCount r.pathKey (· + 1) else s
  let waits : State := { s with net := mset s.net id { r0 with path := if r.counted then r.path else pathPort, left := false } }
  match s.pathOf r with
  | some (path, port) =>
    let r1 := { r0 with path := path, left := true }
    if noCounter r1 then waits
    else
      let s1 : State := { s0 with net := mset s0.net id r1 }
      count r1 (match s0.groupCopy id r1 with
        | some j => s1.joinCopy j (devOf r.pa) id
        | none => s1.leaveBy id port ⟨devOf r.pa, 0, s.packetOf id r1, flitsOf r.payload, s.time, 0, domOf r.core⟩)
  | none =>
    let r1 := { r0 with path := pathHeld, left := false }
    if noCounter r1 then waits else count r1 { s0 with net := mset s0.net id r1 }

/-- An earlier write of the strand to the device has not yet been counted on any path. -/
def State.uncounted (s : State) (id : Nat) (r : Req) : Bool :=
  s.net.any (fun e => decide (e.1 < id) && e.2.kind.isWrite && !e.2.left && !e.2.counted && decide (e.2.dev = s.dev) && decide (e.2.crew = r.crew)
    && decide (e.2.strand = r.strand) && decide (devOf e.2.pa = devOf r.pa))

/-- An ordered flag may leave: every counter of its strand and destination in its own switch is zero but for its own count, no earlier write is still
to be counted, and the other switch holds none or has answered so (R356). -/
def State.flagFree (s : State) (id : Nat) (r : Req) : Bool :=
  let d := domOf (s.crew r.crew).core
  let own := fun (dom : Nat) => if r.counted && decide (domOf r.core = dom) then 1 else 0
  !s.uncounted id r && decide (s.pathSum d r.crew r.strand (devOf r.pa) = own d)
  && (decide (s.pathSum (1 - d) r.crew r.strand (devOf r.pa) = own (1 - d)) && decide (mget s.flagAsk id ≠ 1)
      || decide (mget s.flagAsk id = 2))

/-- A packet of this device leaves for another, or is held here until a path to it is up (R355, R389). `dom` is the domain that it starts
from; `since` is the time of its first attempt. -/
def State.emitSince (s : State) (dom since dst flits : Nat) (p : Packet) : State :=
  let s1 := { s with nextId := s.nextId + 1 }
  match s.choosePath dst with
  | some (_, port) => s1.leaveBy s.nextId port ⟨dst, 0, p, flits, since, 0, dom⟩
  | none => { s1 with held := mset s1.held s.nextId ⟨dst, 0, p, flits, since, 0, dom⟩ }

/-- A packet leaves a domain for the first time. -/
def State.emit (s : State) (dom dst flits : Nat) (p : Packet) : State := s.emitSince dom s.time dst flits p

/-- Bytes of a grant (R357). -/
def grantBytes : Nat := 4096

/-- Use `n` bytes of a receiver's credit, when it has granted as many; this device itself needs none (R357). -/
def State.useCredit (s : State) (dev n : Nat) : Option State :=
  if dev = s.dev then some s
  else if n ≤ mget s.credits dev then some { s with credits := mset s.credits dev (mget s.credits dev - n) }
  else none

/-- Ask a receiver for credit for a transfer, unless an earlier demand of it is still open: a demand names its remaining bytes (R357). -/
def State.askCredit (s : State) (dom xfer dev n : Nat) : State :=
  let key := 1024 * xfer + dev
  if mget s.asked key = 0 then { s.emit dom dev 1 (.demand s.dev n) with asked := mset s.asked key n } else s

/-- A grant of a device goes to the first of the transfers that have asked it. -/
def State.grantTo (s : State) (dev : Nat) : State :=
  match s.asked.find? (fun e => decide (e.1 % 1024 = dev)) with
  | some e => { s with asked := mset s.asked e.1 (e.2 - grantBytes) }
  | none => s

/-- A request to another device is past its core's router port: it takes a path, an ordered flag when it may. -/
def State.sendOn (s : State) (id : Nat) (r : Req) : State :=
  let s1 := s.useRouter (chipOf r.core)
  if r.flagged && !s1.flagFree id r then { s1 with net := mset s1.net id { r with path := pathWaits, left := false } }
  else s1.depart id r

/-- Put a request on its way; its number gives its order (R112). One to another device passes the router port of its core's chiplet, which wakes for
it (R379). -/
def State.send (s : State) (r : Req) : State :=
  let id := s.nextId
  let s1 := { s with nextId := id + 1 }
  if devOf r.pa = s.dev then { s1 with net := mset s1.net id { r with left := true } }
  else if s1.routerReady (chipOf r.core) then s1.sendOn id { r with path := pathWaits }
  else { s1 with net := mset s1.net id { r with path := pathRouter, left := false } }.wakeRouter (chipOf r.core)

/-- Requests that waited for a router port go on when it is awake (R379). -/
def State.routerRetry (s : State) : State :=
  s.net.foldl (fun s e =>
    if decide (e.2.path = pathRouter) && !e.2.left && decide (e.2.kind ≠ .none)
    then (if s.routerReady (chipOf e.2.core) then s.sendOn e.1 e.2 else s.wakeRouter (chipOf e.2.core)) else s) s

/-- Release every held ordered flag that may leave (R356). -/
def State.flagsLeave (s : State) : State :=
  s.net.foldl (fun s e =>
    if e.2.flagged && !e.2.left && decide (e.2.path ≠ pathRouter) && decide (e.2.dev = s.dev) && s.flagFree e.1 e.2
    then { s.depart e.1 e.2 with flagAsk := mset s.flagAsk e.1 0 } else s) s

/-- Requests at their source that a test of their paths selects try again (R352). -/
def State.retryIf (s : State) (p : Nat → Bool) : State :=
  s.net.foldl (fun s e =>
    if !e.2.left && !e.2.flagged && decide (devOf e.2.pa ≠ s.dev) && decide (e.2.dev = s.dev) && decide (e.2.path ≠ pathRouter) && p e.2.path
    then s.depart e.1 e.2 else s) s

/-- Try again every request that is held at its source (R352). -/
def State.retryHeld (s : State) : State := s.retryIf (fun _ => true)

/-- Writes that wait at the port for a path counter try again (R356). -/
def State.portRetry (s : State) : State := s.retryIf (fun p => decide (p ≠ pathHeld))

/-- The domain of an Ethernet port (R367). -/
def ethDom (j : Nat) : Nat := j / 4

/-- A packet leaves by an Ethernet port, across the bridge when that is the other domain's (R367, R370); domain 2 stands for
the port's own, from which the transport's own packets start. -/
def State.leaveEth (s : State) (id j : Nat) (x : Sent) : State :=
  if s.bridgeDown && decide (x.dom < 2) && decide (ethDom j ≠ x.dom) then { s with held := mset s.held id { x with port := 65 + j } }
  else { s with packetsOut := mset s.packetsOut id x, ethUsed := mset s.ethUsed j s.time, ethLow := mset s.ethLow j false }

/-- A packet that waited for the bridge leaves by the port that it was given, or by another when that is down. -/
def State.crossBridge (s : State) (id : Nat) (x : Sent) : State :=
  let s1 : State := { s with held := mset s.held id default }
  if 64 < x.port && mget s.ethDown (x.port - 65) then { s1 with held := mset s1.held id { x with port := 0 } }
  else if 64 < x.port then
    { s1 with packetsOut := mset s1.packetsOut id { x with port := 0 }
              ethUsed := mset s1.ethUsed (x.port - 65) s.time
              ethLow := mset s1.ethLow (x.port - 65) false }
  else if s.portUp (x.port - 1) then { s1 with packetsOut := mset s1.packetsOut id { x with port := 0 } }.usePort (x.port - 1) x.flits
  else { s1 with packetsOut := mset s1.packetsOut id { x with port := 0 }, packetsIn := mset s1.packetsIn s1.nextId (.returned id)
                 nextId := s1.nextId + 1 }

/-- Send the packets that are held here and have a path again (R389). Those of an Ethernet session need a port of R367, those at the bridge
the end of its retrain (R370). -/
def State.sendHeld (s : State) : State :=
  s.held.foldl (fun s e =>
    if e.2.port ≠ 0 then (if s.bridgeDown then s else s.crossBridge e.1 e.2)
    else if e.2.sess ≠ 0 then
      (match (List.range 8).find? (fun j => !mget s.ethDown j) with
       | some j => { s with held := mset s.held e.1 default }.leaveEth e.1 j e.2
       | none => s)
    else match s.choosePath e.2.dst with
      | some (_, port) => { s with held := mset s.held e.1 default }.leaveBy e.1 port e.2
      | none => s) s

/-- Links or routes have changed: flags, held requests and held packets try again (R351, R389). -/
def State.linksChanged (s : State) : State := s.flagsLeave.retryHeld.sendHeld

end Sys2Proof.Machine
end

