-- ==== Sys2Proof/Machine/Access.lean ====
section
/-! DEFINITION. What global memory instructions share: addresses (R88, R227), alignment (R228), translation of the threads of a
strand, requests by line (R110..R113), the waits of ordered accesses (R123, R124), partial faults (R231), and the atomic ALU
(R233..R235, R238). -/

namespace Sys2Proof.Machine

/-- v[t] := trunc64(S[base] + sext(I)) (R227). -/
def threadAddr (st : Strand) (b : Nat) (i : Opnd) (t : Nat) : Word64 := st.sreg b + (st.src i t).signExtend 64

/-- Bytes of a size code (R147). -/
def zBytes (z : Nat) : Nat := match z with | 0 => 1 | 1 => 2 | 2 => 4 | 3 => 8 | 4 => 16 | 5 => 1 | _ => 2

/-- A reserved scope under a nonzero order code (R57, R229). -/
def scopeBad (o : Nat) (mr : Word) : Bool := decide (o ≠ 0) && decide (mrSCOPE mr = 7)

/-- The lowest active thread whose value is not aligned (R228). -/
def misaligned (act : Word) (n : Nat) (v : Nat → Word64) : Option Nat :=
  (threadsOf act).find? (fun t => decide ((v t).toNat % n ≠ 0))

/-- The misalignment trap of a data access: every active thread replays (R231, R299). -/
def alignTrap (st : Strand) (n : Nat) (v : Nat → Word64) : Option Trap :=
  (misaligned st.active n v).map (fun t => dataTrap st cMisalign (v t) st.active)

/-- The domain whose shared TLB a strand's miss goes to (R93). -/
def tlbDom (st : Strand) (c : Crew) : Nat :=
  if mrDH st.mr = 2 then 0 else if mrDH st.mr = 3 then 1 else domOf c.core

/-- Translation of one address of a strand: a fault that its walk found, or the TLBs (R337, R339). -/
def strandXl (a : Site) (dom need : Nat) (v : Word64) : Xl :=
  let l := a.s.crewLaunch a.c
  match a.st.walkFaults.find? (fun e => decide (e.1 = v.toNat / 2 ^ 16)) with
  | some e => .fault e.2
  | none => a.s.xlate a.c.core dom l.part l.space v.toNat need

/-- Translation of a load or atomic: a device outside the pod view is a TRANSLATION (R337). -/
def loadXl (a : Site) (dom need : Nat) (v : Word64) : Xl :=
  match strandXl a dom need v with
  | .ok pa => if a.s.inView (a.s.crewLaunch a.c).part (devOf pa) then .ok pa else .fault cTranslation
  | x => x

/-- Some active thread's address needs a walk. -/
def needsWalk (a : Site) (dom : Nat) (v : Nat → Word64) : Bool :=
  (threadsOf a.st.active).any (fun t => decide (strandXl a dom 0 (v t) = .miss))

/-- Ask for a walk of a page for a strand, joining one in progress for the same level-0, level-1 or level-2 region, the largest of which holds the
others (R339); a strand whose page the walk does not bring asks again. -/
def State.askWalk (s : State) (u k core dom part space va : Nat) : State :=
  match s.walks.find? (fun e => e.2.live && decide (e.2.dom = dom) && decide (e.2.part = part) && decide (e.2.space = space)
      && decide (e.2.va / 2 ^ 30 = va / 2 ^ 30)) with
  | some e =>
    if e.2.waiters.contains (u, k) then s
    else { s with walks := mset s.walks e.1 { e.2 with waiters := e.2.waiters ++ [(u, k)] } }
  | none =>
    { s with walks := mset s.walks s.nextId { live := true, dom := dom, part := part, space := space, va := va,
                                              waiters := [(u, k)], engines := [], core := core }
             nextId := s.nextId + 1 }

/-- Ask for the walks of every strand of a waiting sub-gang whose translations miss. -/
def askWalks (x : Use) (dom : Site → Nat) (v : Site → Nat → Word64) (s : State) (u : Nat) (ks : List Nat) : State :=
  ks.foldl (fun s k =>
    match s.site u k x.reads with
    | none => s
    | some a =>
      let l := s.crewLaunch a.c
      (threadsOf a.st.active).foldl (fun s t =>
        if strandXl a (dom a) 0 (v a t) = .miss then s.askWalk u k a.c.core (dom a) l.part l.space (v a t).toNat else s) s) s

/-- A write of strand k of crew u that is on its way, waits or is on its way back, to an address that passes a test. -/
def State.pendingWrite (s : State) (u k : Nat) (p : Nat → Bool) : Bool :=
  let f := fun (e : Nat × Req) => e.2.kind.isWrite && decide (e.2.dev = s.dev) && decide (e.2.crew = u) && decide (e.2.strand = k)
    && !e.2.dropped && p e.2.pa
  s.net.any f || s.home.any f || s.back.any f

/-- Every earlier write of the strand has completed for a release of a scope: acknowledged, or, for strand, weave and crew scope,
acknowledged if its home is on another device (R123). -/
def ordered (s : State) (u k scope : Nat) : Bool :=
  if 3 ≤ scope then decide ((s.strand u k).unacked = 0) else !s.pendingWrite u k (fun pa => decide (devOf pa ≠ s.dev))

/-- Writes of other strands of the crew to this device, sent before request n, have not performed: what they wrote may have been released to strand k
at crew scope, and is to come before what it releases further (R123, R125). -/
def State.crewWrites (s : State) (u k n : Nat) : Bool :=
  let f := fun (e : Nat × Req) => e.2.kind.isWrite && decide (e.1 < n) && decide (e.2.dev = s.dev) && decide (devOf e.2.pa = s.dev)
    && decide (e.2.crew = u) && decide (e.2.strand ≠ k) && !e.2.dropped
  s.net.any f || s.home.any f

/-- The wait for them; one that has begun keeps its number. -/
def crewHold (a : Site) (n : Nat) : Option Wait := if a.s.crewWrites a.u a.k n then some (.crewAcks n) else none

/-- The number of the requests that a wider release has to wait for. -/
def crewMark (a : Site) : Nat := match a.st.wait with | .crewAcks n => n | _ => a.s.nextId

/-- The waits of a release at a scope (R123, R125). -/
def relHold (scope : Nat) (a : Site) : Option Wait :=
  if !ordered a.s a.u a.k scope then some (if 3 ≤ scope then .acks else .remoteAcks)
  else if 3 ≤ scope then crewHold a (crewMark a) else none

/-- The wait of an access: an earlier SC store is unacknowledged (R124), or an order code that releases (R123). -/
def orderHold (a : Site) (releases : Bool) : Option Wait :=
  if a.st.scHold && decide (a.st.unacked ≠ 0) then some .acks
  else if releases then relHold (mrSCOPE a.st.mr) a else none

/-- A FENCE.REL beside those that are still to be satisfied (R126). -/
def fenceUp (old scope next : Nat) : Nat :=
  if 3 ≤ scope then 2 * next + 2 + old % 2 else if 2 ≤ old then old / 2 * 2 + 1 else 1

/-- An AB write after a FENCE.REL of crew scope or less whose condition does not hold yet; a wider one leaves AB accesses unordered (R126, R245). -/
def abFenceHold (a : Site) : Option Wait :=
  if a.st.fence % 2 = 1 && !ordered a.s a.u a.k 2 then some .remoteAcks else none

/-- A write or an atomic after a FENCE.REL whose condition does not hold yet (R126). -/
def fenceHold (a : Site) : Option Wait :=
  if 2 ≤ a.st.fence then
    (if !ordered a.s a.u a.k 4 then some .acks else crewHold a ((a.st.fence - 2) / 2))
  else abFenceHold a

/-- The fences that an AB write leaves to be satisfied: those of a wider scope. -/
def fenceLeft (old : Nat) : Nat := if 2 ≤ old then old / 2 * 2 else 0

/-- The request is one that a home slice serves. -/
def ReqKind.atHome : ReqKind → Bool
  | .load => true
  | .store => true
  | .atomic _ => true
  | .atomicW _ => true
  | _ => false

/-- A store or atomic of the core, or of the crew, to the line is on its way to the home or waits there. -/
def State.lineWrites (s : State) (core crew line : Nat) : Bool :=
  let p := fun (e : Nat × Req) => (decide (e.2.core = core) || decide (e.2.crew = crew)) && decide (e.2.dev = s.dev) && decide (e.2.pa = line)
    && e.2.kind.atHome && decide (e.2.kind ≠ .load)
  s.net.any p || s.home.any p

/-- A put of the crew into a descriptor of this device has not performed: its row may lie anywhere. -/
def State.crewPut (s : State) (crew : Nat) : Bool :=
  s.net.any (fun e => (match e.2.kind with | .put _ => true | _ => false) && decide (e.2.dev = s.dev) && decide (e.2.crew = crew)
    && !e.2.dropped && decide (devOf e.2.pa = s.dev))

/-- A put of strand k of crew u into a descriptor of a device has not been acknowledged: its row is not known to the strand. -/
def State.pendingPut (s : State) (u k dev : Nat) : Bool :=
  let f := fun (e : Nat × Req) => (match e.2.kind with | .put _ => true | _ => false) && decide (e.2.dev = s.dev) && decide (e.2.crew = u)
    && decide (e.2.strand = k) && !e.2.dropped && decide (devOf e.2.pa = dev)
  s.net.any f || s.back.any f

/-- The addresses on a device of the strand's writes that are not acknowledged. -/
def State.pendingTo (s : State) (u k dev : Nat) : List Nat :=
  ((s.net ++ s.back).filter (fun e => e.2.kind.isWrite && decide (e.2.dev = s.dev) && decide (e.2.crew = u) && decide (e.2.strand = k)
    && !e.2.dropped && decide (devOf e.2.pa = dev))).map (fun e => e.2.pa)

/-- An earlier write of the strand to one of these lines of other devices is unacknowledged, or an earlier put, whose row may lie there: a load, a store
or an atomic stays at the source until then (R113, R241). -/
def rowHold (a : Site) (pas : List Nat) : Option Wait :=
  if pas.any (fun pa => decide (devOf pa ≠ a.s.dev) && (a.s.pendingPut a.u a.k (devOf pa)
      || a.s.pendingWrite a.u a.k (fun q => decide (lineOf q = lineOf pa))))
  then some (.remoteLines pas) else none

/-- Take the first of two waits. -/
def orWait (a b : Option Wait) : Option Wait := if a.isSome then a else b

/-- The physical addresses of the active threads that translate. -/
def okAddrs (a : Site) (dom need : Nat) (v : Nat → Word64) : List Nat :=
  (threadsOf a.st.active).filterMap (fun t => match strandXl a dom need (v t) with | .ok pa => some pa | _ => none)

/-- The threads that fail, with the cause and address of the lowest (R300). -/
structure Faults where
  mask : Word
  cause : Nat
  tval : Word64
  deriving DecidableEq, Repr

/-- The faults of the active threads. -/
def faultsOf (a : Site) (v : Nat → Word64) (xl : Word64 → Xl) : Faults :=
  let bad := fun t => match xl (v t) with | .fault c => some c | _ => none
  let m := maskOf (fun t => tbit a.st.active t && (bad t).isSome)
  let low := lowThread m
  ⟨m, (bad low).getD 0, if m = 0 then 0 else v low⟩

/-- Threads and addresses that succeed, grouped by line in the order of their lowest threads. -/
def groupLines (l : List (Nat × Nat)) : List (Nat × List (Nat × Nat)) :=
  l.foldl (fun acc e =>
    let ln := lineOf e.2
    if acc.any (fun g => decide (g.1 = ln)) then acc.map (fun g => if g.1 = ln then (g.1, g.2 ++ [e]) else g)
    else acc ++ [(ln, [e])]) []

/-- The threads of the active set that translate, with their addresses. -/
def okThreads (a : Site) (v : Nat → Word64) (xl : Word64 → Xl) : List (Nat × Nat) :=
  (threadsOf a.st.active).filterMap (fun t => match xl (v t) with | .ok pa => some (t, pa) | _ => none)

/-- A request as it leaves a core's port: one packet for each line (R354). -/
def mkReq (a : Site) (kind : ReqKind) (line z x hint : Nat) (accs : List Access) : Req :=
  { (default : Req) with
    kind := kind, core := a.c.core, crew := a.u, strand := a.k, pc := a.st.pc, dev := a.s.dev
    part := (a.s.crewLaunch a.c).part, space := (a.s.crewLaunch a.c).space, pa := line, accs := accs, z := z, x := x
    hint := hint, left := true, readyAt := a.s.time, bornAt := a.s.time }

/-- One access of a thread. -/
def mkAccess (t pa size : Nat) (data cmp : BitVec 128) (va : Word64) : Access :=
  { thread := t, off := pa % 128, size := size, data := data, cmp := cmp, va := va }

/-! The atomic ALU. -/

/-- Whether pair (s1, n1) orders before (s2, n2): the scores as values, MAXP's rule (R234). -/
def pairBefore (s1 s2 : Fl) (n1 n2 : Nat) : Bool :=
  if s1.isNan then false
  else if s2.isNan then true
  else if s2.lt s1 then true
  else if s1.eq s2 && decide (n1 = n2) then (s2.sign && !s1.sign && s1.eq (.fin false 0 0))
  else s1.eq s2 && decide (n1 < n2)

/-- MAXP on a pair of a score in the high half and an index in the low half of `w` bits (R234, R238). -/
def maxpN (fmt : Fmt) (w m x : Nat) : Nat :=
  let h := w / 2
  if pairBefore (fmt.value false (nbits x h h)) (fmt.value false (nbits m h h)) (nbits x 0 h) (nbits m 0 h) then x else m

/-- A 32-bit atomic function by its ATOM code: old value, operand, second operand (R233). -/
def atomFn (aop m x c : Nat) : Nat :=
  match aop with
  | 0 => (m + x) % 2 ^ 32
  | 1 => if sint 32 x < sint 32 m then x else m
  | 2 => if sint 32 m < sint 32 x then x else m
  | 3 => min m x
  | 4 => max m x
  | 5 => m.land x
  | 6 => m.lor x
  | 7 => m.xor x
  | 8 => x
  | 9 => if m = x then c else m
  | 10 => if m < x then m + 1 else m
  | 11 => (add32 m x).1
  | 12 =>
    let h := fun (k : Nat) => (fmtBF16.add rneKeep (fmtBF16.value false (nbits m (16 * k) 16)) (fmtBF16.value false (nbits x (16 * k) 16))).1
    h 0 + 2 ^ 16 * h 1
  | 13 => (fmtF32.minmax true false m x).1
  | 14 => m - 1
  | _ => m

/-- A 64- or 128-bit atomic function by its ATOMW code (R233). -/
def atomwFn (aop m x c : Nat) : Nat :=
  match aop with
  | 0 => (m + x) % 2 ^ 64
  | 1 => if sint 64 x < sint 64 m then x else m
  | 2 => if sint 64 m < sint 64 x then x else m
  | 3 => x
  | 4 => if m = x then c else m
  | 5 => if m = x then c else m
  | 6 => maxpN fmtF32 64 m x
  | 7 => if m < x then m + 1 else m
  | _ => m

/-- The ATOMA functions (R238). -/
def atomaFn (aop m x c : Nat) : Nat :=
  match aop with
  | 0 => atomFn 0 m x c
  | 1 => atomFn 1 m x c
  | 2 => atomFn 2 m x c
  | 3 => atomFn 5 m x c
  | 4 => atomFn 6 m x c
  | 5 => atomFn 7 m x c
  | 6 => x
  | 7 => atomFn 9 m x c
  | 8 => atomFn 10 m x c
  | 9 => atomFn 11 m x c
  | 10 => maxpN fmtBF16 32 m x
  | _ => m

end Sys2Proof.Machine
end

