-- ==== Sys2Proof/Machine/Global.lean ====
section
/-! DEFINITION. Loads, stores, posted stores, atomics, hints and fences on global memory (R232, R233, R244, R245). -/

namespace Sys2Proof.Machine

/-- The V, O or S sources of store data by size (R227). -/
def storeUse (x : Opnd) (z : Nat) : Use :=
  if z = 3 then { src64 := [x] } else if z = 4 then { grp := [(x, 4)] } else { src := [x] }

/-- Store data of a thread (R227). -/
def storeData (st : Strand) (x : Opnd) (z t : Nat) : BitVec 128 :=
  if z = 3 then (st.src64 x t).setWidth 128 else if z = 4 then st.src128 x t else (st.src x t).setWidth 128

/-- A request to each line (R110, R354). -/
def State.sendLines (s : State) (rs : List Req) : State := rs.foldl State.send s

/-- Acknowledged accesses that requests will bring: one for each access. -/
def reqCount (rs : List Req) : Nat := (rs.map (fun r => r.accs.length)).sum

/-- The requests of an instruction: one for each line, threads in ascending order. -/
def lineReqs (a : Site) (kind : ReqKind) (z x hint : Nat) (data cmp : Nat → BitVec 128) (v : Nat → Word64)
    (ok : List (Nat × Nat)) : List Req :=
  (groupLines ok).map (fun g =>
    mkReq a kind g.1 z x hint (g.2.map (fun e => mkAccess e.1 e.2 (zBytes z) (data e.1) (cmp e.1) (v e.1))))

/-- The lines leave the issuing core's L1 (R113). -/
def State.dropLines (s : State) (core : Nat) (ok : List (Nat × Nat)) : State :=
  ok.foldl (fun s e => s.dropL1 core (lineOf e.2)) s

/-- A failing access of a store: it counts as a write and its failure arrives (R127, R304). -/
def State.failAccess (s : State) (a : Site) (va : Word64) (cause z : Nat) : State :=
  (s.setStrand a.u a.k ((s.strand a.u a.k).unack (domOf a.c.core) (· + 1))).addFailure a.u a.k a.c.core a.c.launch a.st.pc va cause z

/-! Loads. -/

/-- What LD names. -/
def ldUse (f : FM) : Use :=
  let z := f.z.val
  { src := [f.i], sr := [f.b.val]
    out := if z = 3 ∨ z = 4 then [] else [f.x]
    grp := if z = 3 then [(f.x, 2)] else if z = 4 then [(f.x, 4)] else []
    mode := fun mr => scopeBad f.o.val mr || decide (mrDH mr = 1) }

/-- The value of an access as it lies in memory. -/
def State.accessValue (s : State) (line : Nat) (x : Access) : BitVec 128 :=
  BitVec.ofNat 128 (s.rdNat (line + x.off) x.size)

/-- The strand waits for its replies, or ends the access when there are none (R231, R232). -/
def awaitReplies (st : Strand) (x z left : Nat) (flt : Faults) : Strand :=
  let st1 := st.latchKill
  if 0 < left then
    { st1 with wait := .reply
               mem := { live := true, x := x, z := z, left := left, faults := flt.mask, cause := flt.cause, tval := flt.tval } }
  else if flt.mask = 0 then st1.seq
  else { st1 with pending := some (dataTrap st flt.cause flt.tval flt.mask) }

/-- L1 answers a load of a line: not while a write of the core or of the crew to it, or a put of the crew, is on its way, so that the load comes
behind it, as after a resumption on another core (R96, R113, R123). -/
def l1Serves (a : Site) (line : Nat) : Bool :=
  a.s.l1Hit a.c.core line && !a.s.poisoned line && !a.s.lineWrites a.c.core a.u line && !a.s.crewPut a.u

/-- The effect of LD in a strand: lines that L1 holds answer after 4 issue periods, the others go to their homes (R232). -/
def ldAct (f : FM) (a : Site) : State :=
  let dom := tlbDom a.st a.c
  let v := threadAddr a.st f.b.val f.i
  let xl := loadXl a dom permR
  let flt := faultsOf a v xl
  let rs := lineReqs a .load f.z.val f.x.code f.h.val (fun _ => 0) (fun _ => 0) v (okThreads a v xl)
  let s1 := rs.foldl (fun s r =>
    if l1Serves a r.pa then
      { s with back := mset s.back s.nextId { r with readyAt := s.time + 64
                                                     vals := r.accs.map (fun x => (x.thread, s.accessValue r.pa x)) }
               nextId := s.nextId + 1 }
    else s.send r) a.s
  s1.setStrand a.u a.k (awaitReplies a.st f.x.code f.z.val rs.length flt)

/-- LD (R232). -/
def execLd (f : FM) (s : State) : Host.Outcome State Fault Refusal :=
  runNext (.ld f)
    { use := ldUse f
      trap := fun a => alignTrap a.st (zBytes f.z.val) (threadAddr a.st f.b.val f.i)
      hold := fun a =>
        let dom := tlbDom a.st a.c
        let v := threadAddr a.st f.b.val f.i
        orWait (orderHold a (decide (f.o.val = 3)))
          (if needsWalk a dom v then some .walk else rowHold a (okAddrs a dom permR v))
      ask := askWalks (ldUse f) (fun a => tlbDom a.st a.c) (fun a => threadAddr a.st f.b.val f.i)
      act := eachStrand (ldUse f) (ldAct f) } s

/-! Stores. -/

/-- What ST names. -/
def stUse (f : FM) : Use :=
  let d := storeUse f.x f.z.val
  { d with src := f.i :: d.src, sr := [f.b.val], mode := fun mr => scopeBad f.o.val mr }

/-- What STP names: when it is tagged O7 too, which it writes (R49, R117, R194). -/
def stpUse (f : FM) : Use := if f.h.val = 3 then { stUse f with out := [.o 7] } else stUse f

/-- The other device that an ordered-flag store addresses: code 2 at pod scope, every active thread's address on it (R128). -/
def flagDev (a : Site) (o : Nat) (pas : List Nat) : Option Nat :=
  if o = 2 && decide (mrSCOPE a.st.mr = 5) then
    match pas with
    | [] => none
    | p :: r => if decide (devOf p ≠ a.s.dev) && r.all (fun q => decide (devOf q = devOf p)) then some (devOf p) else none
  else none

/-- The waits of an ordered store before it leaves the core (R123, R124, R128). -/
def storeHold (a : Site) (o : Nat) (pas : List Nat) : Option Wait :=
  match flagDev a o pas with
  | some d =>
    orWait (orWait (orderHold a false) (fenceHold a))
      (if a.s.pendingWrite a.u a.k (fun pa => decide (devOf pa ≠ d)) then some (.flag d) else crewHold a (crewMark a))
  | none => orWait (orWait (orderHold a (decide (2 ≤ o))) (fenceHold a)) (rowHold a pas)

/-- A write of strand k of crew u waits at the core's port for a path counter: so does the strand (R356). -/
def State.portWait (s : State) (u k : Nat) : State :=
  if s.portWaits u k then s.setStrand u k { s.strand u k with wait := .remoteLines [] } else s

/-- Send the accesses of a store that translate, record those to devices outside the view, count them (R127, R299). -/
def sendStore (a : Site) (f : FM) (tag : Bool) (ok : List (Nat × Nat)) : State :=
  let l := a.s.crewLaunch a.c
  let v := threadAddr a.st f.b.val f.i
  let z := f.z.val
  let near := ok.filter (fun e => a.s.inView l.part (devOf e.2))
  let far := ok.filter (fun e => !a.s.inView l.part (devOf e.2))
  let flag := (flagDev a f.o.val (ok.map (·.2))).isSome
  let rs := (lineReqs a .store z 0 f.h.val (storeData a.st f.x z) (fun _ => 0) v near).map
    (fun r => { r with tag := tag, flagged := flag })
  let st1 := { a.st.unack (domOf a.c.core) (· + reqCount rs) with
    scHold := decide (f.o.val = 3), fence := 0
    tagWait := if tag then maskOf (fun t => near.any (fun e => decide (e.1 = t))) else a.st.tagWait }
  let s1 := ((a.s.setStrand a.u a.k st1).dropLines a.c.core near).sendLines rs
  far.foldl (fun s e => s.failAccess a (v e.1) cRemote z) s1

/-- The effect of ST in a strand (R231, R232). -/
def stAct (f : FM) (a : Site) : State :=
  let dom := domOf a.c.core
  let v := threadAddr a.st f.b.val f.i
  let xl := strandXl a dom permW
  let flt := faultsOf a v xl
  let s1 := sendStore a f false (okThreads a v xl)
  let st1 := s1.strand a.u a.k
  (s1.setStrand a.u a.k
    (if flt.mask = 0 then st1.seq else { st1 with pending := some (dataTrap st1 flt.cause flt.tval flt.mask) })).portWait a.u a.k

/-- ST (R232). -/
def execSt (f : FM) (s : State) : Host.Outcome State Fault Refusal :=
  let dom := fun (a : Site) => domOf a.c.core
  runNext (.st f)
    { use := stUse f
      trap := fun a => alignTrap a.st (zBytes f.z.val) (threadAddr a.st f.b.val f.i)
      hold := fun a =>
        let v := threadAddr a.st f.b.val f.i
        if needsWalk a (dom a) v then some .walk else storeHold a f.o.val (okAddrs a (dom a) permW v)
      ask := askWalks (stUse f) dom (fun a => threadAddr a.st f.b.val f.i)
      act := eachStrand (stUse f) (stAct f) } s

/-- Translation of a posted access, at the core's TLBs like any other: its faults are no traps (R127, R230). -/
def postXl (a : Site) (need : Nat) (v : Word64) : Xl := strandXl a (domOf a.c.core) need v

/-- What a posted store waits for before it leaves the core: the walks of its pages, its order. -/
def postHold (a : Site) (o need : Nat) (v : Nat → Word64) : Option Wait :=
  if needsWalk a (domOf a.c.core) v then some .walk else storeHold a o (okAddrs a (domOf a.c.core) need v)

/-- A store whose every thread is posted: the failing threads make records (R230, R304). -/
def recordFaults (a : Site) (v : Nat → Word64) (xl : Word64 → Xl) (z : Nat) (s : State) : State :=
  (threadsOf a.st.active).foldl (fun s t => match xl (v t) with | .fault c => s.failAccess a (v t) c z | _ => s) s

/-- The effect of STP in a strand. -/
def stpAct (f : FM) (a : Site) : State :=
  let v := threadAddr a.st f.b.val f.i
  let xl := postXl a permW
  let s1 := recordFaults a v xl f.z.val (sendStore a f (decide (f.h.val = 3)) (okThreads a v xl))
  (s1.setStrand a.u a.k (s1.strand a.u a.k).seq).portWait a.u a.k

/-- STP (R232). -/
def execStp (f : FM) (s : State) : Host.Outcome State Fault Refusal :=
  runNext (.stp f)
    { use := stpUse f
      posted := true
      trap := fun a => alignTrap a.st (zBytes f.z.val) (threadAddr a.st f.b.val f.i)
      hold := fun a => postHold a f.o.val permW (threadAddr a.st f.b.val f.i)
      ask := askWalks (stpUse f) (fun a => domOf a.c.core) (fun a => threadAddr a.st f.b.val f.i)
      act := eachStrand (stpUse f) (stpAct f) } s

/-! Atomics. -/

/-- O7 of an atomic with Q = 1, which writes the tag there (R49, R117, R194). -/
def tagOut (q : Bool) : List Opnd := if q then [.o 7] else []

/-- What ATOM names; CAS has an even pair X, X + 1 (R227, R233). -/
def atomUse (f : FMA) (cas : Bool) : Use :=
  { src := if cas then [f.i] else [f.i, f.x], out := (if cas then [] else [f.x]) ++ tagOut f.q, grp := if cas then [(f.x, 2)] else []
    sr := [f.b.val], mode := fun mr => scopeBad f.o.val mr }

/-- What ATOMW names: a group of V registers (R147, R233). -/
def atomwUse (f : FMA) (size : Nat) : Use :=
  { src := [f.i], out := tagOut f.q, grp := [(f.x, size)], sr := [f.b.val], mode := fun mr => scopeBad f.o.val mr }

/-- Registers j and j + 1 of a group as 64 bits. -/
def pairAt (st : Strand) (x : Opnd) (j t : Nat) : BitVec 64 := st.srcAt x (j + 1) t ++ st.srcAt x j t
/-- Registers j to j + 3 of a group as 128 bits. -/
def quadAt (st : Strand) (x : Opnd) (j t : Nat) : BitVec 128 := pairAt st x (j + 2) t ++ pairAt st x j t

/-- The effect of a global atomic in a strand: the accesses of a line go together, in thread order (R113, R235). `data` is the
operand, or the comparand of a compare and swap, whose new value is `cmp`. -/
def atomAct (f : FMA) (kind : ReqKind) (z : Nat) (data cmp : Site → Nat → BitVec 128) (a : Site) : State :=
  let dom := domOf a.c.core
  let v := threadAddr a.st f.b.val f.i
  let xl := loadXl a dom (permR + permW)
  let flt := faultsOf a v xl
  let ok := okThreads a v xl
  let rs := (lineReqs a kind z f.x.code 0 (data a) (cmp a) v ok).map (fun r => { r with tag := f.q })
  let s1 := rs.foldl State.send (a.s.dropLines a.c.core ok)
  s1.setStrand a.u a.k (awaitReplies { a.st with fence := 0 } f.x.code z rs.length flt)

/-- A global atomic (R233, R235). -/
def atomOp (i : Instr) (f : FMA) (x : Use) (kind : ReqKind) (z : Nat) (data cmp : Site → Nat → BitVec 128) (s : State) :
    Host.Outcome State Fault Refusal :=
  let dom := fun (a : Site) => domOf a.c.core
  runNext i
    { use := x
      trap := fun a => alignTrap a.st (zBytes z) (threadAddr a.st f.b.val f.i)
      hold := fun a =>
        let v := threadAddr a.st f.b.val f.i
        orWait (orWait (orderHold a (decide (2 ≤ f.o.val))) (fenceHold a))
          (if needsWalk a (dom a) v then some .walk else rowHold a (okAddrs a (dom a) (permR + permW) v))
      ask := askWalks x dom (fun a => threadAddr a.st f.b.val f.i)
      act := eachStrand x (atomAct f kind z data cmp) } s

/-- A 32-bit atomic with one operand. -/
def atom32 (i : Instr) (f : FMA) (aop : Nat) (s : State) : Host.Outcome State Fault Refusal :=
  atomOp i f (atomUse f false) (.atomic aop) 2 (fun a t => (a.st.src f.x t).setWidth 128) (fun _ _ => 0) s

/-- A 64-bit atomic with one operand. -/
def atom64 (i : Instr) (f : FMA) (aop : Nat) (s : State) : Host.Outcome State Fault Refusal :=
  atomOp i f (atomwUse f 2) (.atomicW aop) 3 (fun a t => (pairAt a.st f.x 0 t).setWidth 128) (fun _ _ => 0) s

/-- ATOM.ADD (R233). -/
def execAtomAdd (f : FMA) (s : State) : Host.Outcome State Fault Refusal := atom32 (.atomAdd f) f 0 s
/-- ATOM.MIN (R233). -/
def execAtomMin (f : FMA) (s : State) : Host.Outcome State Fault Refusal := atom32 (.atomMin f) f 1 s
/-- ATOM.MAX (R233). -/
def execAtomMax (f : FMA) (s : State) : Host.Outcome State Fault Refusal := atom32 (.atomMax f) f 2 s
/-- ATOM.MINU (R233). -/
def execAtomMinu (f : FMA) (s : State) : Host.Outcome State Fault Refusal := atom32 (.atomMinu f) f 3 s
/-- ATOM.MAXU (R233). -/
def execAtomMaxu (f : FMA) (s : State) : Host.Outcome State Fault Refusal := atom32 (.atomMaxu f) f 4 s
/-- ATOM.AND (R233). -/
def execAtomAnd (f : FMA) (s : State) : Host.Outcome State Fault Refusal := atom32 (.atomAnd f) f 5 s
/-- ATOM.OR (R233). -/
def execAtomOr (f : FMA) (s : State) : Host.Outcome State Fault Refusal := atom32 (.atomOr f) f 6 s
/-- ATOM.XOR (R233). -/
def execAtomXor (f : FMA) (s : State) : Host.Outcome State Fault Refusal := atom32 (.atomXor f) f 7 s
/-- ATOM.XCHG (R233). -/
def execAtomXchg (f : FMA) (s : State) : Host.Outcome State Fault Refusal := atom32 (.atomXchg f) f 8 s
/-- ATOM.INCB (R233). -/
def execAtomIncb (f : FMA) (s : State) : Host.Outcome State Fault Refusal := atom32 (.atomIncb f) f 10 s
/-- ATOM.FADD (R233). -/
def execAtomFadd (f : FMA) (s : State) : Host.Outcome State Fault Refusal := atom32 (.atomFadd f) f 11 s
/-- ATOM.FADDBF (R233). -/
def execAtomFaddbf (f : FMA) (s : State) : Host.Outcome State Fault Refusal := atom32 (.atomFaddbf f) f 12 s
/-- ATOM.FMAX (R233). -/
def execAtomFmax (f : FMA) (s : State) : Host.Outcome State Fault Refusal := atom32 (.atomFmax f) f 13 s
/-- ATOM.DECZ (R233). -/
def execAtomDecz (f : FMA) (s : State) : Host.Outcome State Fault Refusal := atom32 (.atomDecz f) f 14 s
/-- ATOMW.ADD (R233). -/
def execAtomwAdd (f : FMA) (s : State) : Host.Outcome State Fault Refusal := atom64 (.atomwAdd f) f 0 s
/-- ATOMW.MIN (R233). -/
def execAtomwMin (f : FMA) (s : State) : Host.Outcome State Fault Refusal := atom64 (.atomwMin f) f 1 s
/-- ATOMW.MAX (R233). -/
def execAtomwMax (f : FMA) (s : State) : Host.Outcome State Fault Refusal := atom64 (.atomwMax f) f 2 s
/-- ATOMW.XCHG (R233). -/
def execAtomwXchg (f : FMA) (s : State) : Host.Outcome State Fault Refusal := atom64 (.atomwXchg f) f 3 s
/-- ATOMW.MAXP (R233, R234). -/
def execAtomwMaxp (f : FMA) (s : State) : Host.Outcome State Fault Refusal := atom64 (.atomwMaxp f) f 6 s
/-- ATOMW.INCB (R233). -/
def execAtomwIncb (f : FMA) (s : State) : Host.Outcome State Fault Refusal := atom64 (.atomwIncb f) f 7 s
/-- ATOM.CAS (R233): comparand X, new value X + 1. -/
def execAtomCas (f : FMA) (s : State) : Host.Outcome State Fault Refusal :=
  atomOp (.atomCas f) f (atomUse f true) (.atomic 9) 2 (fun a t => (a.st.srcAt f.x 0 t).setWidth 128)
    (fun a t => (a.st.srcAt f.x 1 t).setWidth 128) s
/-- ATOMW.CAS (R233): comparand pair X, new value pair X + 2. -/
def execAtomwCas (f : FMA) (s : State) : Host.Outcome State Fault Refusal :=
  atomOp (.atomwCas f) f (atomwUse f 4) (.atomicW 4) 3 (fun a t => (pairAt a.st f.x 0 t).setWidth 128)
    (fun a t => (pairAt a.st f.x 2 t).setWidth 128) s
/-- ATOMW.CAS128 (R233): comparand quad X, new value quad X + 4. -/
def execAtomwCas128 (f : FMA) (s : State) : Host.Outcome State Fault Refusal :=
  atomOp (.atomwCas128 f) f (atomwUse f 8) (.atomicW 5) 4 (fun a t => quadAt a.st f.x 0 t)
    (fun a t => quadAt a.st f.x 4 t) s

/-! Hints. -/

/-- PREF (R244): brings the line into its home slice's L2; no state of the machine changes. -/
def execPref (b : Fin 32) (i : Opnd) (s : State) : Host.Outcome State Fault Refusal :=
  runNext (.pref b i) (strandOp { src := [i], sr := [b.val] } (fun a => a.st)) s

/-- The walk of an address in the issuing strand's address space. -/
def hintWalk (a : Site) (v : Word64) : WalkRes :=
  let l := a.s.crewLaunch a.c
  a.s.walk l.part l.space v.toNat

/-- The leaf that maps an address in the issuing strand's address space, when it is a 2 MiB leaf (R244). -/
def hintLeaf (a : Site) (v : Word64) : Option Nat :=
  match hintWalk a v with
  | .leaf addr _ 21 => some addr
  | _ => none

/-- PHINT (R244): sets RE, byte 1 of the leaf (R336), at the leaf's home slice; nothing waits for it. Its walk waits while the leaf is
busy (R337). -/
def execPhint (x : Opnd) (b : Fin 32) (i : Opnd) (s : State) : Host.Outcome State Fault Refusal :=
  let us : Use := { src := [x, i], sr := [b.val] }
  runNext (.phint x b i)
    { use := us
      hold := fun a =>
        if (threadsOf a.st.active).any (fun t => decide (hintWalk a (threadAddr a.st b.val i t) = .busy)) then some .walk else none
      act := eachStrand us (fun a =>
        let v := threadAddr a.st b.val i
        let s1 := (threadsOf a.st.active).foldl (fun s t =>
          match hintLeaf a (v t) with
          | some leaf =>
            s.send { mkReq a (.atomic 8) (lineOf leaf) 0 0 0
                      [mkAccess t (leaf + 1) 1 ((a.st.src x t).setWidth 128) 0 (v t)] with dropped := true }
          | none => s) a.s
        s1.setStrand a.u a.k a.st.seq) } s

/-- LDROP (R244): the lines of this device leave the core's L1. -/
def execLdrop (b : Fin 32) (i : Opnd) (s : State) : Host.Outcome State Fault Refusal :=
  let us : Use := { src := [i], sr := [b.val] }
  runNext (.ldrop b i)
    { use := us
      hold := fun a => if needsWalk a (domOf a.c.core) (threadAddr a.st b.val i) then some .walk else none
      ask := askWalks us (fun a => domOf a.c.core) (fun a => threadAddr a.st b.val i)
      act := eachStrand us (fun a =>
        let s1 := (threadsOf a.st.active).foldl (fun s t =>
          match postXl a 0 (threadAddr a.st b.val i t) with
          | .ok pa => s.dropL1 a.c.core (lineOf pa)
          | _ => s) a.s
        s1.setStrand a.u a.k a.st.seq) } s

/-! Fences. -/

/-- A fence that waits for the strand's earlier writes (R126, R245); earlier loads and atomics have performed when it issues. -/
def fenceOp (i : Instr) (w : Site → Option Wait) (s : State) : Host.Outcome State Fault Refusal :=
  runNext i { strandOp {} (fun a => a.st.latchKill) with hold := w } s

/-- FENCE.ACQ (R126). -/
def execFenceAcq (c : Fin 8) (s : State) : Host.Outcome State Fault Refusal := fenceOp (.fenceAcq c) (fun _ => none) s
/-- FENCE.REL (R126): loads are not held, so the strand goes on; its next write or atomic waits until every earlier access has completed. -/
def execFenceRel (c : Fin 8) (s : State) : Host.Outcome State Fault Refusal :=
  runNext (.fenceRel c)
    (strandOp {} (fun a => { a.st.latchKill with fence := fenceUp a.st.fence c.val a.s.nextId })) s
/-- FENCE.AR (R126). -/
def execFenceAr (c : Fin 8) (s : State) : Host.Outcome State Fault Refusal := fenceOp (.fenceAr c) (relHold c.val) s
/-- FENCE.SC (R126). -/
def execFenceSc (c : Fin 8) (s : State) : Host.Outcome State Fault Refusal := fenceOp (.fenceSc c) (relHold c.val) s
/-- FENCE.ACKS (R126): every write acknowledged, at any scope. -/
def execFenceAcks (c : Fin 8) (s : State) : Host.Outcome State Fault Refusal :=
  fenceOp (.fenceAcks c) (fun a => if a.st.unacked = 0 then none else some .acks) s

end Sys2Proof.Machine
end

