-- ==== Sys2Proof/Machine/Abuf.lean ====
section
/-! DEFINITION. The activation buffer: the crew's view (R97), its cost (R98, R99), and LDA, STA and ATOMA (R236..R238). -/

namespace Sys2Proof.Machine

/-- Size of the crew's view: the claim and the front bank (R97). -/
def Crew.view (c : Crew) : Nat := c.ab + c.xwin

/-- Where a view offset lies: the claim, or the bank that is the front one. -/
def Crew.abIndex (c : Crew) (o : Nat) : Nat := if o < c.ab then o else if c.swapped then o + c.xwin else o

/-- Where a window offset lies in the shadow bank (R101). -/
def Crew.shadowIndex (c : Crew) (o : Nat) : Nat := if c.swapped then c.ab + o else c.ab + c.xwin + o

/-- A byte of the buffer; one that nothing has written is free (R39). -/
def Crew.abByte (c : Crew) (i : Nat) : Byte := (mget c.abuf i).getD (Config.freeByte (c.abSeed * 2 ^ 21 + i))

/-- Bytes of the view. -/
def Crew.abRead (c : Crew) (o n : Nat) : List Byte := (List.range n).map (fun j => c.abByte (c.abIndex (o + j)))

/-- Write bytes of the view. -/
def Crew.abWrite (c : Crew) (o : Nat) (l : List Byte) : Crew :=
  { c with abuf := (List.zip (List.range l.length) l).foldl (fun m e => mset m (c.abIndex (o + e.1)) (some e.2)) c.abuf }

/-- The words that an access touches. -/
def abWords (o size : Nat) : List Nat := (List.range ((size + 3) / 4)).map (fun j => o / 4 + j)

/-- The cost of an AB instruction of one strand: the most distinct words that one bank delivers (R98). -/
def abCost (ws : List Nat) : Nat :=
  let d := ws.eraseDups
  ((List.range 64).map (fun b => (d.filter (fun w => decide (w % 64 = b))).length)).foldl max 0

/-- A bank conflict (R99). -/
def abConflict (z cost : Nat) : Bool := if z = 4 then decide (2 < cost) else decide (1 < cost)

/-- A TST of the strand's weave still holds bytes of the buffer (R266): the data and scale ranges of a busy tile. -/
def tstHolds (c : Crew) (w o size : Nat) : Bool :=
  c.tileBusy.any (fun e =>
    let overlap := fun (lo n : Nat) => decide (o < lo + n) && decide (lo < o + size)
    decide (e.2.kind = 2) && decide (e.2.weave = w) && (overlap e.2.data 8192 || overlap e.2.scale 512))

/-- A lock of R266 holds for a strand of weave `w` of crew `u`. -/
def State.locked (s : State) (u w : Nat) : Lock → Bool
  | .tile k => decide ((mget (s.crew u).tileBusy k).kind ≠ 0)
  | .tileRead k => s.ops.any (fun e => decide (e.2.crew = u) && (match e.2.kind with | .mma f => decide (f.tile.val = k) | _ => false))
  | .acc k commits => decide (mget (s.crew u).foldBusy k ≠ 0) || s.ops.any (fun e => decide (e.2.crew = u) && (match e.2.kind with
      | .mma f => decide (f.acc.val = k)
      | .aload j => decide (j = k)
      | .acommit j => commits && decide (j = k) && !e.2.readOut
      | _ => false))
  | .fold k => decide (mget (s.crew u).foldBusy k ≠ 0)
  | .bytes lo n => tstHolds (s.crew u) w lo n

/-- The interlock wait of an instruction that must wait for some locks (R266). -/
def lockHold (a : Site) (ls : List Lock) : Option Wait :=
  if ls.any (a.s.locked a.u (weaveOf a.k)) then some (.interlock ls) else none

/-- The waits of an AB access: an earlier SC store, a release's earlier writes, a FENCE.REL before a write (R122, R123, R126), a TST
(R266). -/
def abHold (a : Site) (releases writes : Bool) (size : Nat) (v : Nat → Word64) : Option Wait :=
  orWait (orWait (orderHold a releases) (if writes then abFenceHold a else none))
    (if a.c.tileBusy.isEmpty then none else lockHold a ((threadsOf a.st.active).map (fun t => .bytes (v t).toNat size)))

/-- An ordered AB access above crew scope (R236). -/
def abScopeBad (o : Nat) (mr : Word) : Bool := decide (o ≠ 0) && decide (2 < mrSCOPE mr)

/-- The threads whose access lies outside the view (R97), with the first address. -/
def abFaults (a : Site) (size : Nat) (v : Nat → Word64) : Faults :=
  faultsOf a v (fun x => if x.toNat + size ≤ a.c.view then .ok 0 else .fault cProtection)

/-- The threads whose access lies in the view. -/
def abThreads (a : Site) (size : Nat) (v : Nat → Word64) : List Nat :=
  (threadsOf a.st.active).filter (fun t => decide ((v t).toNat + size ≤ a.c.view))

/-- Continue after an AB access: in line, or a partial fault (R231). -/
def abEnd (st : Strand) (flt : Faults) : Strand :=
  if flt.mask = 0 then st.seq else { st with pending := some (dataTrap st flt.cause flt.tval flt.mask) }

/-- A loaded value in 32 bits or as the low bits of more: zero- or sign-extended by size code (R227). -/
def loadExt (z : Nat) (x : BitVec 128) : BitVec 128 :=
  if z = 5 then ((x.setWidth 8).signExtend 32).setWidth 128
  else if z = 6 then ((x.setWidth 16).signExtend 32).setWidth 128
  else x

/-- Word j of a value. -/
def word128 (x : BitVec 128) (j : Nat) : Word := (x >>> (32 * j)).setWidth 32

/-- Write a loaded value to its destination: one register, a pair or a quad (R227). -/
def Strand.writeLoaded (st : Strand) (x : Opnd) (z : Nat) (act : Word) (val : Nat → BitVec 128) : Strand :=
  let w := fun (j t : Nat) => word128 (loadExt z (val t)) j
  match x with
  | .v n =>
    let st1 := st.writeV n.val act (w 0)
    if z = 3 then st1.writeV (n.val + 1) act (w 1)
    else if z = 4 then ((st1.writeV (n.val + 1) act (w 1)).writeV (n.val + 2) act (w 2)).writeV (n.val + 3) act (w 3)
    else st1
  | _ => st.writeReg x act (w 0)

/-- The register codes of a destination by size. -/
def destCodes (x : Opnd) (z : Nat) : List Nat :=
  (List.range (if z = 3 then 2 else if z = 4 then 4 else 1)).map (fun j => x.code + j)

/-- The core cycle at which the buffer has served an access of `cost` cycles that a strand makes now: after those that it has been given
before, the strands of a sub-gang in ascending order (R99). -/
def State.abDone (s : State) (core cost : Nat) : Nat := if cost = 0 then s.clock else max s.clock (s.core core).abFree + cost

/-- The buffer serves an access of a strand (R99, R100); a period's are issued, and take effect, in the order of R100 (`State.portOrder`). -/
def State.useAb (s : State) (core cost : Nat) : State :=
  if cost = 0 then s else s.setCore core { s.core core with abFree := s.abDone core cost }

/-- A result that the buffer delivers at a core cycle is late when that lies beyond the present issue period (R237). -/
def abDelay (st : Strand) (codes : List Nat) (due clock period : Nat) : Strand :=
  if clock + 8 < due then st.delay codes (period + 1 + (due - clock - 1) / 8) else st

/-- What LDA names. -/
def ldaUse (f : FMz) : Use :=
  let z := f.z.val
  { src := [f.i], sr := [f.b.val]
    out := if z = 3 ∨ z = 4 then [] else [f.x]
    grp := if z = 3 then [(f.x, 2)] else if z = 4 then [(f.x, 4)] else []
    mode := scopeBad f.o.val, scope := abScopeBad f.o.val }

/-- LDA (R236, R237). -/
def execLda (f : FMz) (s : State) : Host.Outcome State Fault Refusal :=
  let z := f.z.val
  let n := zBytes z
  let v := fun (st : Strand) => threadAddr st f.b.val f.i
  runNext (.lda f)
    { use := ldaUse f
      trap := fun a => alignTrap a.st n (v a.st)
      hold := fun a => abHold a (decide (f.o.val = 3)) false n (v a.st)
      act := eachStrand (ldaUse f) (fun a =>
        let ok := abThreads a n (v a.st)
        let flt := abFaults a n (v a.st)
        let cost := abCost (ok.flatMap (fun t => abWords (v a.st t).toNat n))
        let st1 := a.st.writeLoaded f.x z (maskOf (fun t => ok.contains t))
          (fun t => BitVec.ofNat 128 (leNat (a.c.abRead (v a.st t).toNat n)))
        let st2 := abDelay st1 (destCodes f.x z) (a.s.abDone a.c.core cost) a.s.clock a.s.period
        (a.s.useAb a.c.core cost).setStrand a.u a.k (abEnd (if abConflict z cost then st2.latchKill else st2) flt)) } s

/-- What STA names. -/
def staUse (f : FMz) : Use :=
  let d := storeUse f.x f.z.val
  { d with src := f.i :: d.src, sr := [f.b.val], mode := scopeBad f.o.val, scope := abScopeBad f.o.val }

/-- STA (R236, R99): threads in ascending order, so that the highest remains. -/
def execSta (f : FMz) (s : State) : Host.Outcome State Fault Refusal :=
  let z := f.z.val
  let n := zBytes z
  let v := fun (st : Strand) => threadAddr st f.b.val f.i
  runNext (.sta f)
    { use := staUse f
      trap := fun a => alignTrap a.st n (v a.st)
      hold := fun a => abHold a (decide (2 ≤ f.o.val)) true n (v a.st)
      act := eachStrand (staUse f) (fun a =>
        let ok := abThreads a n (v a.st)
        let c1 := ok.foldl (fun c t => c.abWrite (v a.st t).toNat (leBytes n (storeData a.st f.x z t).toNat)) a.c
        (a.s.useAb a.c.core (abCost (ok.flatMap (fun t => abWords (v a.st t).toNat n)))).setCrew a.u
          (c1.setSt a.k (abEnd { a.st with fence := fenceLeft a.st.fence } (abFaults a n (v a.st))))) } s

/-- What ATOMA names. -/
def atomaUse (f : FMo) (cas : Bool) : Use :=
  { src := if cas then [f.i] else [f.i, f.x], out := if cas then [] else [f.x], grp := if cas then [(f.x, 2)] else []
    sr := [f.b.val], mode := scopeBad f.o.val, scope := abScopeBad f.o.val }

/-- One thread's ATOMA: the buffer and the old values collected so far (R238). -/
def atomaStep (a : Site) (f : FMo) (aop : Nat) (acc : Crew × FMap Word) (t : Nat) : Crew × FMap Word :=
  let o := (threadAddr a.st f.b.val f.i t).toNat
  let m := leNat (acc.1.abRead o 4)
  let n := atomaFn aop m (a.st.src f.x t).toNat (a.st.srcAt f.x 1 t).toNat
  (acc.1.abWrite o (leBytes 4 n), mset acc.2 t (BitVec.ofNat 32 m))

/-- ATOMA (R238): threads in ascending order, the old values in X. -/
def atomaOp (i : Instr) (f : FMo) (aop : Nat) (s : State) : Host.Outcome State Fault Refusal :=
  let us := atomaUse f (decide (aop = 7))
  let v := fun (st : Strand) => threadAddr st f.b.val f.i
  runNext i
    { use := us
      trap := fun a => alignTrap a.st 4 (v a.st)
      hold := fun a => abHold a (decide (2 ≤ f.o.val)) true 4 (v a.st)
      act := eachStrand us (fun a =>
        let ok := abThreads a 4 (v a.st)
        let r := ok.foldl (atomaStep a f aop) (a.c, [])
        let cost := abCost (ok.flatMap (fun t => abWords (v a.st t).toNat 4))
        let st1 := { a.st with fence := fenceLeft a.st.fence }.writeReg f.x (maskOf (fun t => ok.contains t)) (mget r.2)
        let st2 := abDelay st1 [f.x.code] (a.s.abDone a.c.core cost) a.s.clock a.s.period
        (a.s.useAb a.c.core cost).setCrew a.u
          (r.1.setSt a.k (abEnd (if abConflict 2 cost then st2.latchKill else st2) (abFaults a 4 (v a.st))))) } s

/-- ATOMA.ADD (R238). -/
def execAtomaAdd (f : FMo) (s : State) : Host.Outcome State Fault Refusal := atomaOp (.atomaAdd f) f 0 s
/-- ATOMA.MIN (R238). -/
def execAtomaMin (f : FMo) (s : State) : Host.Outcome State Fault Refusal := atomaOp (.atomaMin f) f 1 s
/-- ATOMA.MAX (R238). -/
def execAtomaMax (f : FMo) (s : State) : Host.Outcome State Fault Refusal := atomaOp (.atomaMax f) f 2 s
/-- ATOMA.AND (R238). -/
def execAtomaAnd (f : FMo) (s : State) : Host.Outcome State Fault Refusal := atomaOp (.atomaAnd f) f 3 s
/-- ATOMA.OR (R238). -/
def execAtomaOr (f : FMo) (s : State) : Host.Outcome State Fault Refusal := atomaOp (.atomaOr f) f 4 s
/-- ATOMA.XOR (R238). -/
def execAtomaXor (f : FMo) (s : State) : Host.Outcome State Fault Refusal := atomaOp (.atomaXor f) f 5 s
/-- ATOMA.XCHG (R238). -/
def execAtomaXchg (f : FMo) (s : State) : Host.Outcome State Fault Refusal := atomaOp (.atomaXchg f) f 6 s
/-- ATOMA.CAS (R238). -/
def execAtomaCas (f : FMo) (s : State) : Host.Outcome State Fault Refusal := atomaOp (.atomaCas f) f 7 s
/-- ATOMA.INCB (R238). -/
def execAtomaIncb (f : FMo) (s : State) : Host.Outcome State Fault Refusal := atomaOp (.atomaIncb f) f 8 s
/-- ATOMA.FADD (R238). -/
def execAtomaFadd (f : FMo) (s : State) : Host.Outcome State Fault Refusal := atomaOp (.atomaFadd f) f 9 s
/-- ATOMA.MAXP (R238). -/
def execAtomaMaxp (f : FMo) (s : State) : Host.Outcome State Fault Refusal := atomaOp (.atomaMaxp f) f 10 s

end Sys2Proof.Machine
end

