-- ==== Sys2Proof/Machine/Puts.lean ====
section
/-! DEFINITION. Exchange stores, expert puts and multicast stores as they leave the core (R239, R241, R243). -/

namespace Sys2Proof.Machine

/-- What STX, PUTA and MST name: data by size, a base register, an index. -/
def fmzUse (f : FMz) : Use :=
  let d := storeUse f.x f.z.val
  { d with src := f.i :: d.src, sr := [f.b.val], mode := scopeBad f.o.val }

/-- The waits of a posted store that is no ordered flag: its order (R123, R124), a FENCE.REL (R126). -/
def putHold (a : Site) (o : Nat) : Option Wait := orWait (orderHold a (decide (2 ≤ o))) (fenceHold a)

/-- Crews of an exchange launch; 0 when the launch has no exchange flag (R58, R101). -/
def xsize (l : Launch) : Nat := if nbit l.record.flags 2 then l.record.stages * l.record.gridSize else 0

/-- The window offset of an exchange store, exact (R239). -/
def stxOffset (st : Strand) (b : Nat) (i : Opnd) (t : Nat) : Int :=
  (nbits (st.sreg b).toNat 0 21 : Int) + (st.src i t).toInt

/-- Why an exchange store is not performed, or 0 (R102, R239). -/
def stxCause (l : Launch) (rank : Nat) (o : Int) (size : Nat) : Nat :=
  if !nbit l.record.flags 2 then cXflag
  else if xsize l ≤ rank then cXrank
  else if o < 0 || (l.record.xwin : Int) < o + size then cXbounds
  else 0

/-- The effect of STX in a strand: accesses in the window leave for the target, the others make records. The request's `x` names the
launch. -/
def stxAct (f : FMz) (a : Site) : State :=
  let z := f.z.val
  let n := zBytes z
  let l := a.s.crewLaunch a.c
  let rank := nbits (a.st.sreg f.b.val).toNat 48 16
  let o := stxOffset a.st f.b.val f.i
  let va := fun t => BitVec.ofInt 64 (o t)
  let good := (threadsOf a.st.active).filter (fun t => decide (stxCause l rank (o t) n = 0))
  let bad := (threadsOf a.st.active).filter (fun t => decide (stxCause l rank (o t) n ≠ 0))
  let r := mkReq a (.stx rank) (a.s.dev * 2 ^ 44) z a.c.launch 0
    (good.map (fun t => { (mkAccess t 0 n (storeData a.st f.x z t) 0 (va t)) with off := (o t).toNat }))
  let st1 := { a.st.unack (domOf a.c.core) (· + good.length) with scHold := decide (f.o.val = 3), fence := 0 }
  let s1 := a.s.setStrand a.u a.k st1
  let s2 := if good.isEmpty then s1 else s1.send r
  let s3 := bad.foldl (fun s t => s.failAccess a (va t) (stxCause l rank (o t) n) z) s2
  s3.setStrand a.u a.k (s3.strand a.u a.k).seq

/-- STX (R239). -/
def execStx (f : FMz) (s : State) : Host.Outcome State Fault Refusal :=
  runNext (.stx f)
    { use := fmzUse f
      posted := true
      trap := fun a => alignTrap a.st (zBytes f.z.val) (fun t => BitVec.ofInt 64 (stxOffset a.st f.b.val f.i t))
      hold := fun a => putHold a f.o.val
      act := eachStrand (fmzUse f) (stxAct f) } s

/-- The token of a put (R241). -/
def putToken (st : Strand) (i : Opnd) (t : Nat) : Nat := nbits (st.src i t).toNat 12 20
/-- The byte offset of a put within its row (R241). -/
def putOffset (st : Strand) (i : Opnd) (t : Nat) : Nat := nbits (st.src i t).toNat 0 12

/-- The effect of PUTA in a strand: one packet to the descriptor, the puts in thread order (R241, R354). `hint` 1 says that the
descriptor's page may be written (R338), `x` names the launch. -/
def putaAct (f : FMz) (once : Bool) (a : Site) : State :=
  let z := f.z.val
  let n := zBytes z
  let l := a.s.crewLaunch a.c
  let dva := a.st.sreg f.b.val
  let ts := threadsOf a.st.active
  let fails := fun (c : Nat) (s : State) => ts.foldl (fun s _ => s.failAccess a dva c z) s
  let st1 := { a.st with scHold := decide (f.o.val = 3), fence := 0 }
  let s1 := a.s.setStrand a.u a.k st1
  let s2 := if ts.isEmpty then s1 else match postXl a permR dva with
    | .ok pa =>
      if !a.s.inView l.part (devOf pa) then fails cRemote s1
      else
        let r := { mkReq a (.put once) pa z a.c.launch (match postXl a permW dva with | .ok _ => 1 | _ => 0)
                    (ts.map (fun t => { mkAccess t 0 n (storeData a.st f.x z t) (BitVec.ofNat 128 (putToken a.st f.i t)) dva with
                                        off := putOffset a.st f.i t })) with tag := false }
        (s1.setStrand a.u a.k (st1.unack (domOf a.c.core) (· + ts.length))).send r
    | .fault c => fails c s1
    | _ => s1
  (s2.setStrand a.u a.k (s2.strand a.u a.k).seq).portWait a.u a.k

/-- PUTA (R241). One to another device waits for every earlier write of the strand to that device: its row may lie on any line there (R113). -/
def execPuta (f : FMz) (once : Bool) (s : State) : Host.Outcome State Fault Refusal :=
  runNext (.puta f once)
    { use := fmzUse f
      posted := true
      trap := fun a => alignTrap a.st (zBytes f.z.val) (fun t => BitVec.ofNat 64 (putOffset a.st f.i t))
      hold := fun a =>
        let dva := a.st.sreg f.b.val
        orWait (putHold a f.o.val) (if a.st.active = 0 then none else match postXl a permR dva with
          | .ok pa =>
            let l := if devOf pa = a.s.dev then [] else a.s.pendingTo a.u a.k (devOf pa)
            if l.isEmpty then none else some (.remoteLines l)
          | .fault _ => none
          | _ => some .walk)
      ask := askWalks (fmzUse f) (fun a => domOf a.c.core) (fun a _ => a.st.sreg f.b.val)
      act := eachStrand (fmzUse f) (putaAct f once) } s

/-- Index of a device in a multicast group of a partition (R359). -/
def mgroupKey (part g dev : Nat) : Nat := (part * 128 + g) * 1024 + dev
/-- The members of a multicast group. -/
def State.members (s : State) (part g : Nat) : List Nat :=
  (List.range 1024).filter (fun d => mget s.mgroup (mgroupKey part g d))

/-- The multicast group of a thread's address (R243). -/
def mstGroup (v : Word64) : Nat := nbits v.toNat 57 7
/-- The virtual address in it. -/
def mstAddr (v : Word64) : Word64 := BitVec.ofNat 64 (v.toNat % 2 ^ 57)

/-- The translation of a thread's multicast address, or the cause of its record (R243); the page needs R and W (R338). -/
def mstXl (a : Site) (v : Word64) : Xl :=
  if mstGroup v = 0 || (a.s.members (a.s.crewLaunch a.c).part (mstGroup v)).isEmpty then .fault cMgroup
  else postXl a (permR + permW) (mstAddr v)

/-- The same local address on another device. -/
def onDevice (pa m : Nat) : Nat := m * 2 ^ 44 + localOf pa

/-- The threads of a multicast store whose group has a device as a member, with their addresses there. -/
def mstThreads (a : Site) (v : Nat → Word64) (ok : List (Nat × Nat)) (m : Nat) : List (Nat × Nat) :=
  let part := (a.s.crewLaunch a.c).part
  (ok.filter (fun e => mget a.s.mgroup (mgroupKey part (mstGroup (v e.1)) m))).map (fun e => (e.1, onDevice e.2 m))

/-- The devices that are members of a group of some thread. -/
def mstDevices (a : Site) (v : Nat → Word64) (ok : List (Nat × Nat)) : List Nat :=
  (List.range 1024).filter (fun m => !(mstThreads a v ok m).isEmpty)

/-- The accesses of the threads in their groups: each group with its threads, in order. -/
def mstGroups (v : Nat → Word64) (ok : List (Nat × Nat)) : List (Nat × List (Nat × Nat)) :=
  ((ok.map (fun e => mstGroup (v e.1))).eraseDups).map (fun g => (g, ok.filter (fun e => decide (mstGroup (v e.1) = g))))

/-- The copies of a multicast store: one packet for each line, group and member in view, the threads in ascending order, counted as writes and
acknowledged together; one record for every other member (R113, R243, R354, R359). -/
def mstSend (f : FMz) (a : Site) (v : Nat → Word64) (ok : List (Nat × Nat)) (s : State) : State :=
  let z := f.z.val
  let part := (a.s.crewLaunch a.c).part
  let near := (mstDevices a v ok).filter (a.s.inView part)
  let far := (mstDevices a v ok).filter (fun m => !a.s.inView part m)
  let rs := near.flatMap (fun m => (mstGroups v ok).flatMap (fun g =>
    (lineReqs a .store z 0 0 (storeData a.st f.x z) (fun _ => 0) (fun t => mstAddr (v t)) (mstThreads a v g.2 m)).map
      (fun r => { r with group := g.1, mst := s.nextId })))
  let s1 := (s.setStrand a.u a.k ((s.strand a.u a.k).unack (domOf a.c.core) (· + reqCount rs))).sendLines rs
  far.foldl (fun s m => s.failAccess a (mstAddr (v (((mstThreads a v ok m).headD default).1))) cMmember z) s1

/-- The effect of MST in a strand. -/
def mstAct (f : FMz) (a : Site) : State :=
  let v := threadAddr a.st f.b.val f.i
  let ok := okThreads a v (mstXl a)
  let s0 := (a.s.setStrand a.u a.k { a.st with scHold := decide (f.o.val = 3), fence := 0 }).dropLines a.c.core
    (ok.map (fun e => (e.1, onDevice e.2 a.s.dev)))
  let s1 := mstSend f a v ok s0
  let s2 := (threadsOf a.st.active).foldl (fun s t =>
    match mstXl a (v t) with | .fault c => s.failAccess a (mstAddr (v t)) c f.z.val | _ => s) s1
  (s2.setStrand a.u a.k (s2.strand a.u a.k).seq).portWait a.u a.k

/-- MST (R243). -/
def execMst (f : FMz) (s : State) : Host.Outcome State Fault Refusal :=
  runNext (.mst f)
    { use := fmzUse f
      posted := true
      trap := fun a => alignTrap a.st (zBytes f.z.val) (threadAddr a.st f.b.val f.i)
      hold := fun a =>
        let v := threadAddr a.st f.b.val f.i
        let ts := threadsOf a.st.active
        let part := (a.s.crewLaunch a.c).part
        orWait (putHold a f.o.val)
          (if ts.any (fun t => decide (mstXl a (v t) = .busy) || decide (mstXl a (v t) = .miss)) then some .walk
           else rowHold a (ts.flatMap (fun t => match mstXl a (v t) with
             | .ok pa => (a.s.members part (mstGroup (v t))).map (onDevice pa)
             | _ => [])))
      ask := fun s u ks => ks.foldl (fun s k => match s.site u k (fmzUse f).reads with
        | none => s
        | some a => (threadsOf a.st.active).foldl (fun s t =>
            if mstXl a (threadAddr a.st f.b.val f.i t) = .miss then
              s.askWalk u k a.c.core (domOf a.c.core) (s.crewLaunch a.c).part (s.crewLaunch a.c).space
                (mstAddr (threadAddr a.st f.b.val f.i t)).toNat
            else s) s) s
      act := eachStrand (fmzUse f) (mstAct f) } s

end Sys2Proof.Machine
end

