-- ==== Sys2Proof/Machine/Sync.lean ====
section
/-! DEFINITION. Weirs and barriers (R252..R256, R310) and the future instructions (R250, R251). -/

namespace Sys2Proof.Machine

/-! Weirs. -/

/-- The weir id in an S register (R253). -/
def weirId (st : Strand) (n : Nat) : Nat := nbits (st.sreg n).toNat 0 16

/-- Resident entries of a domain's table (R252). -/
def State.weirsOf (s : State) (dom : Nat) : List (Nat × Weir) :=
  s.weirs.filter (fun e => decide (e.2.state = 1) && decide (weirDom (e.1 % 2 ^ 16) = dom))

/-- A weir group of a partition has a crew resident on some core (R310). -/
def State.groupResident (s : State) (pg : Nat) : Bool :=
  s.crews.any (fun e => e.2.resident &&
    decide ((s.launchOf e.2.launch).part * 2 ^ 24 + (s.launchOf e.2.launch).group = pg))

/-- The least recently changed of some entries. -/
def leastChanged (l : List (Nat × Weir)) : Option (Nat × Weir) :=
  l.foldl (fun b e => match b with
    | some x => if e.2.changed < x.2.changed then some e else some x
    | none => some e) none

/-- The suggested victim of a full table (R310). -/
def State.weirVictim (s : State) (dom own : Nat) : Nat :=
  let l := s.weirsOf dom
  let pick := fun (p : Nat → Bool) => leastChanged (l.filter (fun e => p (e.1 / 2 ^ 16)))
  let v := ((pick (fun g => !s.groupResident g)).orElse (fun _ => pick (fun g => decide (g ≠ own)))).orElse (fun _ => pick (fun _ => true))
  (v.map (·.1)).getD 0

/-- TVAL of WEIR_SPILL (R310). -/
def spillValue (full : Bool) (group id : Nat) : Word64 :=
  BitVec.ofNat 64 ((if full then 2 ^ 40 else 0) + group % 2 ^ 24 * 2 ^ 16 + id % 2 ^ 16)

/-- The exact trap of a weir instruction on id `n`, which needs an entry unless it creates one (R253, R254, R310). -/
def weirTrap (i : Instr) (n : Site → Nat) (create : Bool) (a : Site) : Option Trap :=
  let id := n a
  let w := mget a.s.weirs (a.s.crewWeir a.c id)
  if id = 0 then some (wordTrap a.st cOperand (wordOf i))
  else if w.state = 2 then some (valueTrap a.st cWeirSpill (spillValue false (a.s.groupOf a.c) id))
  else if w.state = 1 then none
  else if !create then some (wordTrap a.st cOperand (wordOf i))
  else if (a.s.weirsOf (weirDom id)).length < 4096 then none
  else
    let l := a.s.crewLaunch a.c
    let v := a.s.weirVictim (weirDom id) (l.part * 2 ^ 24 + l.group)
    some (valueTrap a.st cWeirSpill (spillValue true (v / 2 ^ 16) v))

/-- The effect of a weir instruction in a strand; an earlier strand of the sub-gang may have changed the entry, and then it traps. -/
def weirAct (x : Use) (trap : Site → Option Trap) (f : Site → State) : State → Nat → List Nat → State :=
  eachStrand x (fun a => match trap a with
    | some t => a.s.setStrand a.u a.k { a.st with pending := some t }
    | none => f a)

/-- Replace a weir entry and note the change. -/
def State.setWeir (s : State) (key : Nat) (w : Weir) : State :=
  { s with weirs := mset s.weirs key { w with changed := s.nextId }, nextId := s.nextId + 1 }

/-- The wait of a release at a scope (R123). -/
def releaseHold (scope : Nat) (a : Site) : Option Wait := relHold scope a

/-- WINIT (R253). -/
def execWinit (x y z : Fin 32) (s : State) : Host.Outcome State Fault Refusal :=
  let i := Instr.winit x y z
  let us : Use := { sr := [x.val, y.val, z.val] }
  let trap := fun (a : Site) =>
    if nbits (a.st.sreg y.val).toNat 0 32 = 0 && decide (nbits (a.st.sreg z.val).toNat 0 48 = 0)
    then some (wordTrap a.st cOperand (wordOf i)) else weirTrap i (fun a => weirId a.st x.val) true a
  runNext i
    { use := us
      trap := trap
      act := weirAct us trap (fun a =>
        let key := a.s.crewWeir a.c (weirId a.st x.val)
        let w := mget a.s.weirs key
        let w1 : Weir := { w with state := 1, ea := (a.st.sreg y.val).setWidth 32, eb := (a.st.sreg z.val).setWidth 48 }
        (a.s.setWeir key w1.eval).setStrand a.u a.k a.st.seq) } s

/-- WARR (R253): a release at device scope (R137). An arrival of 0 changes nothing in the entry. -/
def execWarr (d x y : Fin 32) (s : State) : Host.Outcome State Fault Refusal :=
  let i := Instr.warr d x y
  let us : Use := { sr := [x.val, y.val], sw := [d.val] }
  let trap := weirTrap i (fun a => weirId a.st x.val) false
  runNext i
    { use := us
      trap := trap
      hold := releaseHold 4
      act := weirAct us trap (fun a =>
        let key := a.s.crewWeir a.c (weirId a.st x.val)
        let w := mget a.s.weirs key
        let n := nbits (a.st.sreg y.val).toNat 0 32
        (if n = 0 then a.s else a.s.setWeir key (w.credit n 0)).setStrand a.u a.k
          (a.st.setS d.val (w.ph.setWidth 64)).seq) } s

/-- The phase that WWAIT waits for has completed: trunc32(PH - S[b]) in 1..2^31 (R253). -/
def phasePassed (ph v : Word) : Bool := decide (1 ≤ (ph - v).toNat) && decide ((ph - v).toNat ≤ 2 ^ 31)

/-- WWAIT (R253). -/
def execWwait (x y : Fin 32) (s : State) : Host.Outcome State Fault Refusal :=
  let i := Instr.wwait x y
  let us : Use := { sr := [x.val, y.val] }
  let trap := weirTrap i (fun a => weirId a.st x.val) false
  runNext i
    { use := us
      trap := trap
      hold := fun a =>
        let v := (a.st.sreg y.val).setWidth 32
        if phasePassed (mget a.s.weirs (a.s.crewWeir a.c (weirId a.st x.val))).ph v then none
        else some (.weir (BitVec.ofNat 16 (weirId a.st x.val)) v (wordOf i))
      act := onStrand us (fun a => a.st.latchKill.seq) } s

/-- WTEST (R253). -/
def execWtest (d x y : Fin 32) (s : State) : Host.Outcome State Fault Refusal :=
  let i := Instr.wtest d x y
  let us : Use := { sr := [x.val, y.val], sw := [d.val] }
  let trap := weirTrap i (fun a => weirId a.st x.val) false
  runNext i
    { use := us
      trap := trap
      act := onStrand us (fun a =>
        let p := phasePassed (mget a.s.weirs (a.s.crewWeir a.c (weirId a.st x.val))).ph ((a.st.sreg y.val).setWidth 32)
        (a.st.setS d.val (if p then 1 else 0)).seq) } s

/-- The word of a WWAIT at which a strand waits on the weir with an index. -/
def State.waitsOn (s : State) (c : Crew) (st : Strand) (key : Nat) : Option Word64 :=
  match st.wait with
  | .weir id _ word => if s.crewWeir c id.toNat = key && st.pending.isNone then some word else none
  | _ => none

/-- A packet of bulk data that has arrived credits no weir that is gone. -/
def Packet.dropCredit (p : Packet) (part : Nat → Nat) (key : Nat) : Packet :=
  let n := fun (own weir credit : Nat) => if weirKey own (weir / 2 ^ 16 % 2 ^ 24) (weir % 2 ^ 16) = key then 0 else credit
  match p with
  | .bulk src op virt q space addr l credit weir => .bulk src op virt q space addr l (n (weir / 2 ^ 40) weir credit) weir
  | .sealed i number c bytes (.bulk src op virt q space addr l credit weir) =>
    .sealed i number c bytes (.bulk src op virt q space addr l (n (part i) weir credit) weir)
  | x => x

/-- A weir entry goes: who waits on it at a WWAIT raises ILLEGAL_OPERAND there, and what is in flight to it is credited to no later
entry of its id (R254, R275). -/
def State.dropWeir (s : State) (key : Nat) : State :=
  { s with
    weirs := mset s.weirs key default
    crews := s.crews.map (fun e => (e.1, if !e.2.resident then e.2 else
      { e.2 with strand := e.2.strand.map (fun x => (x.1, match s.waitsOn e.2 x.2 key with
        | some word => { x.2 with pending := some (wordTrap x.2 cOperand word) }
        | none => x.2)) }))
    ops := s.ops.map (fun e => (e.1, match e.2.kind with
      | .copy _ => if weirKey e.2.part (s.launchOf e.2.launchId).group (copyWeir e.2.c) = key then { e.2 with weirGone := true } else e.2
      | _ => e.2))
    colls := s.colls.map (fun e => (e.1, if e.2.live && decide (e.2.weir = key) then { e.2 with weirGone := true } else e.2))
    packetsIn := s.packetsIn.map (fun e => (e.1, e.2.dropCredit (fun i => (mget s.sessTab (256 * i + 80)).toNat % 8) key)) }

/-- WDROP (R253, R254). -/
def execWdrop (x : Fin 32) (s : State) : Host.Outcome State Fault Refusal :=
  let i := Instr.wdrop x
  let us : Use := { sr := [x.val] }
  let trap := weirTrap i (fun a => weirId a.st x.val) false
  runNext i
    { use := us
      trap := trap
      act := weirAct us trap (fun a =>
        (a.s.setStrand a.u a.k a.st.seq).dropWeir (a.s.crewWeir a.c (weirId a.st x.val))) } s

/-! Barriers. -/

/-- Every live strand of the crew is marked (R255). -/
def Crew.allArrived (c : Crew) (m : FMap Bool) : Bool :=
  c.keys.all (fun k => decide ((c.st k).live = 0) || mget m k)

/-- The greatest byte count that the live strands expect of an exchange swap (R256). -/
def Crew.xgreatest (c : Crew) (m : FMap Nat) : Nat :=
  c.keys.foldl (fun n k => if (c.st k).live = 0 then n else max n (mget m k)) 0

/-- Mark strands. -/
def markAll (m : FMap Bool) (ks : List Nat) : FMap Bool := ks.foldl (fun m k => mset m k true) m

/-- The live strands of a crew. -/
def Crew.liveKeys (c : Crew) : List Nat := c.keys.filter (fun k => decide ((c.st k).live ≠ 0))

/-- Strands that a barrier has released pass it: retire in line, latches invalid. -/
def passBarrier (s : State) (u : Nat) (ks : List Nat) : State :=
  ks.foldl (fun s k =>
    let c := s.crew u
    s.setCrew u ({ c with passed := mset c.passed k false }.setSt k (c.st k).latchKill.seq)) s

/-- Those of some strands that a barrier has released pass it; the others, which have come to it only now, are what is left. -/
def passReleased (s : State) (u : Nat) (ks : List Nat) : State × List Nat :=
  let out := fun (k : Nat) => mget (s.crew u).passed k
  (passBarrier s u (ks.filter out), ks.filter (fun k => !out k))

/-- Strands arrive at a crew barrier: the last arrival releases all (R255). -/
def cbarAct (s0 : State) (u : Nat) (ks0 : List Nat) : State :=
  let s := (passReleased s0 u ks0).1
  let ks := (passReleased s0 u ks0).2
  let c := s.crew u
  if ks.isEmpty then s
  else
    let arr := markAll c.cbar ks
    if c.allArrived arr then passBarrier (s.setCrew u { c with cbar := [], passed := markAll [] c.liveKeys }) u ks
    else ks.foldl (fun s k => s.setStrand u k { s.strand u k with wait := .cbar }) (s.setCrew u { c with cbar := arr })

/-- CBAR (R255): FENCE.AR at crew scope before the arrival (R137). -/
def execCbar (s : State) : Host.Outcome State Fault Refusal :=
  runNext .cbar { hold := releaseHold 2, act := cbarAct } s

/-- The swap of R256 when every live strand has arrived and the bytes are counted; else the strands wait. The futures that the strands
read are delivered first (R53). -/
def xswapAct (x : Fin 32) (s0 : State) (u : Nat) (ks0 : List Nat) : State :=
  let p := passReleased s0 u ks0
  let ks := p.2
  let s := ks.foldl (fun s k => match s.site u k [x.val] with | some a => s.setStrand u k a.st | none => s) p.1
  let c := s.crew u
  if ks.isEmpty then s
  else
    let arr := markAll c.xarr ks
    let expect := ks.foldl (fun m k => mset m k (nbits ((c.st k).sreg x.val).toNat 0 48)) c.xmax
    let m := c.xgreatest expect
    if c.allArrived arr && decide (m ≤ c.cx) then
      passBarrier (s.setCrew u { c with xarr := [], xmax := [], cx := c.cx - m, swapped := !c.swapped
                                        passed := markAll [] c.liveKeys }) u ks
    else
      ks.foldl (fun s k => s.setStrand u k { s.strand u k with wait := .xswap }) (s.setCrew u { c with xarr := arr, xmax := expect })

/-- XSWAP (R256). -/
def execXswap (x : Fin 32) (s : State) : Host.Outcome State Fault Refusal :=
  runNext (.xswap x)
    { use := { sr := [x.val] }
      trap := fun a => if nbit (a.s.crewLaunch a.c).record.flags 2 then none else some (wordTrap a.st cOperand (wordOf (.xswap x)))
      hold := releaseHold 2
      act := xswapAct x } s

/-! Futures and timelines. -/

/-- FWAIT (R250). -/
def execFwait (d x : Fin 32) (s : State) : Host.Outcome State Fault Refusal :=
  runNext (.fwait d x)
    (strandOp { sr := [x.val], sw := [d.val] } (fun a => a.st.latchKill.setS d.val (a.st.sreg x.val))) s

/-- FTEST (R250): it never waits. -/
def execFtest (d x : Fin 32) (s : State) : Host.Outcome State Fault Refusal :=
  runNext (.ftest d x)
    (strandOp { bad := fun _ _ => decide (d = x), sw := [d.val, x.val] } (fun a =>
      if a.st.isFut x.val then
        match a.s.futureValue a.st (a.st.sreg x.val) with
        | some v => (a.st.setS x.val v).setS d.val 1
        | none => a.st.setS d.val 0
      else a.st.setS d.val 1)) s

/-- Ask for the cancellation of an operation: a copy and a list stop at their next boundary; a launch still in its queue is removed
(R250). -/
def State.cancelOp (s : State) (h : Word64) : State :=
  let op := mget s.ops h.toNat
  match op.kind with
  | .copy _ => { s with ops := mset s.ops h.toNat { op with cancel := true } }
  | .clrun => { s with ops := mset s.ops h.toNat { op with cancel := true } }
  | .launch =>
    match s.dlq.find? (fun e => decide (e.2.handle = h)) with
    | some e => { s with dlq := mset s.dlq e.1 { e.2 with cancelled := true } }
    | none => s
  | _ => s

/-- FCANCEL (R250). -/
def execFcancel (x : Fin 32) (s : State) : Host.Outcome State Fault Refusal :=
  runNext (.fcancel x)
    { use := { nm := [x.val] }
      act := eachStrand {} (fun a =>
        (if a.st.isFut x.val then a.s.cancelOp (a.st.sreg x.val) else a.s).setStrand a.u a.k a.st.seq) } s

/-- A timeline selector is legal (R251). -/
def selectorOk (v : Word64) (issuedOk : Bool) : Bool :=
  let n := v.toNat
  let kind := nbits n 0 4
  decide (nbits n 16 48 = 0) && decide (nbits n 4 2 = 0)
  && decide (1 ≤ kind) && decide (kind ≤ 5)
  && (if kind = 5 then decide (nbits n 8 8 < 64) else decide (nbits n 8 8 = 0))
  && !(nbit n 7 && decide (kind ≤ 2))
  && (issuedOk || !nbit n 6)

/-- The count that a selector names, seen from a core (R251). -/
def State.timelineOf (s : State) (core : Nat) (v : Word64) : Nat :=
  let n := v.toNat
  let kind := nbits n 0 4
  let dom := if nbit n 7 then 1 - domOf core else domOf core
  if kind = 5 then (mget s.signals (64 * dom + nbits n 8 8)).toNat
  else
    let c := mget s.ctxs (ctxKey kind (if kind ≤ 2 then core else dom))
    if nbit n 6 then c.issued else c.timeline

/-- TLREAD (R250). -/
def execTlread (d x : Fin 32) (s : State) : Host.Outcome State Fault Refusal :=
  runNext (.tlread d x)
    { strandOp { sw := [d.val], nm := [x.val] } (fun a => a.st.setS d.val (BitVec.ofNat 64 (a.s.timelineOf a.c.core (a.st.sreg x.val)))) with
      trap := fun a => if selectorOk (a.st.sreg x.val) true then none else some (wordTrap a.st cOperand (wordOf (.tlread d x))) } s

/-- TLWAIT (R250). -/
def execTlwait (x y : Fin 32) (s : State) : Host.Outcome State Fault Refusal :=
  runNext (.tlwait x y)
    { use := { nm := [x.val, y.val] }
      trap := fun a => if selectorOk (a.st.sreg x.val) false && !a.st.isFut y.val then none
        else some (wordTrap a.st cOperand (wordOf (.tlwait x y)))
      hold := fun a =>
        if (a.st.sreg y.val).toNat ≤ a.s.timelineOf a.c.core (a.st.sreg x.val) then none
        else some (.timeline (a.st.sreg x.val) (a.st.sreg y.val))
      act := onStrand {} (fun a => a.st.latchKill.seq) } s

/-- A source of a join (R250): a value, a handle, or the sources of a join. -/
def joinSrcs (st : Strand) (n : Nat) : List JoinSrc :=
  let h := st.sreg n
  if !st.isFut n then [.val h] else if handleKind h = 6 then (mget st.joins (handleCtx h)).srcs else [.fut h]

/-- A join slot is live: a register other than S[d] holds its handle, or one did at trap entry (R250). -/
def slotLive (st : Strand) (d j : Nat) : Bool :=
  (List.range 32).any (fun n => decide (n ≠ d) && st.isFut n && decide (st.sreg n = mkHandle 6 j 0))
  || st.heldAtEntry.any (fun e => decide (e.2 = mkHandle 6 j 0))

/-- A slot for a new join. -/
def freeJoin (st : Strand) (d : Nat) : Option Nat := (List.range 4).find? (fun j => !slotLive st d j)

/-- FJOIN (R250). DESIGN CHOICE: it makes no release, being no engine operation (R133), although R247 says so of every instruction that returns a
future. -/
def execFjoin (d x y : Fin 32) (s : State) : Host.Outcome State Fault Refusal :=
  runNext (.fjoin d x y)
    { use := { sw := [d.val], nm := [x.val, y.val] }
      trap := fun a => if (freeJoin a.st d.val).isNone then some (wordTrap a.st cOperand (wordOf (.fjoin d x y))) else none
      act := onStrand {} (fun a =>
        match freeJoin a.st d.val with
        | some j =>
          (({ a.st with joins := mset a.st.joins j ⟨joinSrcs a.st x.val ++ joinSrcs a.st y.val⟩ }).setFut d.val (mkHandle 6 j 0)).latchKill.seq
        | none => a.st) } s

end Sys2Proof.Machine
end

