-- ==== Sys2Proof/Machine/Engines.lean ====
section
/-! DEFINITION. The issue of engine operations: copies (R257), collective lists and signals (R272), device launches (R273); and the
engines' reads and writes of virtual memory. -/

namespace Sys2Proof.Machine

/-! Virtual memory as engines see it. -/

/-- What an engine's read gives: bytes, a cause with the offset of the byte that failed, or a page that is being moved. -/
inductive RdRes where
  | ok (l : List Byte)
  | fault (cause off : Nat)
  | busy
  deriving DecidableEq, Repr

/-- The parts of a range that lie in one 64 KiB page each: offset, address and length. -/
def pageSpans (va n : Nat) : List (Nat × Nat × Nat) :=
  (List.range ((va % 2 ^ 16 + n + 2 ^ 16 - 1) / 2 ^ 16)).map (fun i =>
    let lo := if i = 0 then va else (va / 2 ^ 16 + i) * 2 ^ 16
    let hi := min (va + n) ((va / 2 ^ 16 + i + 1) * 2 ^ 16)
    (lo - va, lo, hi - lo))

/-- An engine's translation: the shared TLB of its domain, and a walk at once on a miss, which its own walk has come before (`State.withWalks`); a
device outside the pod view is a TRANSLATION (R337, R339). -/
def State.engineXl (s : State) (core part space va need : Nat) : Xl :=
  let xl := match s.xlate noCore (engDom core) part space (va % 2 ^ 64) need with
    | .miss => s.xlateNow noCore part space (va % 2 ^ 64) need
    | r => r
  match xl with
  | .ok pa => if s.inView part (devOf pa) then .ok pa else .fault cTranslation
  | x => x

/-- Ask for a walk of a page for an engine operation, by its number, joining one in progress (R339). -/
def State.askEngineWalk (s : State) (tok dom part space va : Nat) : State :=
  match s.walks.find? (fun e => e.2.live && decide (e.2.dom = dom) && decide (e.2.part = part) && decide (e.2.space = space)
      && decide (e.2.va / 2 ^ 30 = va / 2 ^ 30)) with
  | some e =>
    if e.2.engines.contains tok then s
    else { s with walks := mset s.walks e.1 { e.2 with engines := e.2.engines ++ [tok] } }
  | none =>
    { s with walks := mset s.walks s.nextId { live := true, dom := dom, part := part, space := space, va := va,
                                              waiters := [], engines := [tok], core := noCore }
             nextId := s.nextId + 1 }

/-- The pages of some ranges that an engine has to have walked: those that the shared TLB of its domain does not hold and whose walk has not failed
for it. -/
def State.pagesMissed (s : State) (tok core part space : Nat) (ranges : List (Nat × Nat)) : List Nat :=
  (ranges.flatMap (fun r => (pageSpans r.1 r.2).map (fun p => p.2.1 % 2 ^ 64))).filter (fun va =>
    decide (s.xlate noCore (engDom core) part space va 0 = .miss) && !s.engineFaults.contains (tok, va / 2 ^ 16))

/-- An engine operation forgets the walks that have failed for it. -/
def State.walksDone (s : State) (tok : Nat) : State := { s with engineFaults := s.engineFaults.filter (fun e => decide (e.1 ≠ tok)) }

/-- A step of an engine operation that uses some ranges of virtual memory, once the pages are in the shared TLB of its domain or their walks have failed
for it: until then it waits for its walks (R339). -/
def State.withWalks (s : State) (tok core part space : Nat) (ranges : List (Nat × Nat)) (f : State → State) : State :=
  let missed := if engDom core = noCore then [] else s.pagesMissed tok core part space ranges
  if missed.isEmpty then f (s.walksDone tok)
  else missed.foldl (fun s va => s.askEngineWalk tok (engDom core) part space va) s

/-- The offset of the first poisoned line of a physical range. -/
def State.poisonAt (s : State) (pa n : Nat) : Option Nat :=
  (List.range ((pa % 128 + n + 127) / 128)).findSome? (fun i =>
    if s.poisoned (lineOf pa + 128 * i) then some (lineOf pa + 128 * i - pa) else none)

/-- Read virtual memory (R135, R338). -/
def State.rdVirt (s : State) (core part space va n : Nat) : RdRes :=
  (pageSpans va n).foldl (fun r p =>
    match r with
    | .ok l =>
      match s.engineXl core part space p.2.1 permR with
      | .ok pa =>
        match s.poisonAt pa p.2.2 with
        | some o => .fault cDataError (p.1 + o)
        | none => .ok (l ++ s.rdBytes pa p.2.2)
      | .fault c => .fault c p.1
      | _ => .busy
    | x => x) (.ok [])

/-- What an engine's write gives: done, a cause with an offset, or a wait for a lease, a queue at the home or a page move. -/
inductive WrRes where
  | ok (s : State)
  | fault (cause off : Nat)
  | busy

/-- The lines of a physical range. -/
def linesOf (pa n : Nat) : List Nat := (List.range ((pa % 128 + n + 127) / 128)).map (fun i => lineOf pa + 128 * i)

/-- Requests that wait at the home of a line, in the order of their arrival (R95). -/
def State.waitingAt (s : State) (line : Nat) : List (Nat × Req) :=
  let ins := fun (l : List (Nat × Req)) (e : Nat × Req) =>
    l.takeWhile (fun x => decide (x.2.stamp ≤ e.2.stamp)) ++ [e] ++ l.dropWhile (fun x => decide (x.2.stamp ≤ e.2.stamp))
  (s.home.filter (fun e => decide (e.2.kind ≠ .none) && decide (e.2.pa = line))).foldl ins []

/-- A write waits at the home of a line (R95, R96). -/
def State.writeWaits (s : State) (line : Nat) : Bool :=
  s.home.any (fun e => decide (e.2.pa = line) && decide (e.2.kind ≠ .load))

/-- An engine may write a physical range now: no lease, no write waiting before it (R95). -/
def State.mayWrite (s : State) (pa n : Nat) : Bool :=
  s.rangeFree pa n && (List.range ((pa % 128 + n + 127) / 128)).all (fun i => !s.writeWaits (lineOf pa + 128 * i))

/-- The number by which a merge unit or a copy, a put, or a host's access keeps its place at the home of a line. -/
def opToken (h : Nat) : Nat := 4 * h
/-- That of a put. -/
def putToken_ (id : Nat) : Nat := 4 * id + 1
/-- That of a host's access. -/
def hostToken (k : Nat) : Nat := 4 * k + 2

/-- The writer with a number may write these lines now: no lease, and nothing waits there before it (R95). -/
def State.mayWriteBy (s : State) (tok : Nat) (lines : List Nat) : Bool :=
  lines.all (fun l => s.leaseFree l && (match s.waitingAt l with
    | [] => true
    | (_, r) :: _ => decide (r.kind = .hold) && decide (r.peerId = tok)))

/-- A writer takes its place in the order of each line, once (R95): loads of its core wait behind it (R96). -/
def State.queueWrite (s : State) (tok core dev : Nat) (lines : List Nat) : State :=
  lines.foldl (fun s l =>
    if s.home.any (fun e => decide (e.2.kind = .hold) && decide (e.2.peerId = tok) && decide (e.2.pa = l)) then s
    else { s with home := mset s.home s.nextId { (default : Req) with kind := .hold, core := core, dev := dev, pa := l, peerId := tok, left := true
                                                                      stamp := s.nextId }
                  nextId := s.nextId + 1 }) s

/-- A writer leaves its places at some lines. -/
def State.unqueue (s : State) (tok : Nat) (at_ : Nat → Bool) : State :=
  { s with home := s.home.filter (fun e => !(decide (e.2.kind = .hold) && decide (e.2.peerId = tok) && at_ e.2.pa)) }

/-- A partial write of a poisoned line cannot be made (R375): its offset. -/
def State.poisonBlocks (s : State) (pa : Nat) (l : List Byte) : Option Nat :=
  (lineSpans pa l).findSome? (fun x => if x.2.length ≠ 128 && s.poisoned x.1 then some (x.1 - pa) else none)

/-- Write virtual memory line by line (R136), by the writer with a number; a write that has counted for its line already does not count
again (R117). -/
def State.wrVirtBy (s : State) (tok : Nat) (counts : Bool) (core part space va : Nat) (l : List Byte) : WrRes :=
  (pageSpans va l.length).foldl (fun r p =>
    match r with
    | .ok s1 =>
      let d := (l.drop p.1).take p.2.2
      match s1.engineXl core part space p.2.1 permW with
      | .ok pa =>
        match s1.poisonBlocks pa d with
        | some o => .fault cDataError (p.1 + o)
        | none =>
          if s1.mayWriteBy tok (linesOf pa d.length) then .ok (if counts then s1.wrEngine pa d else { s1.wrEngine pa d with seqs := s1.seqs })
          else .busy
      | .fault c => .fault c p.1
      | _ => .busy
    | x => x) (.ok s)

/-- Write virtual memory for a writer that keeps no place at a home. -/
def State.wrVirt (s : State) (core part space va : Nat) (l : List Byte) : WrRes := s.wrVirtBy 3 true core part space va l

/-- The physical lines of a virtual range, as far as it translates. -/
def State.virtLines (s : State) (core part space va n need : Nat) : List Nat :=
  (pageSpans va n).flatMap (fun p => match s.engineXl core part space p.2.1 need with
    | .ok pa => linesOf pa p.2.2
    | _ => [])

/-! Issue. -/

/-- Room in an engine context for n more operations (R247). -/
def State.ctxRoom (s : State) (kind num n : Nat) : Bool :=
  let c := mget s.ctxs (ctxKey kind num)
  decide (c.issued - c.timeline - c.done.length + n ≤ ctxLimit kind)

/-- The waits of every instruction that returns a future: a release at device scope and room in its context (R133, R247). -/
def engineHold (kind num n : Nat) (a : Site) : Option Wait :=
  orWait (releaseHold 4 a) (if a.s.ctxRoom kind num n then none else some (.context kind))

/-- The place of a strand among those of the sub-gang that issue an engine operation now, in strand order from 1: those whose futures have
resolved and whose earlier writes are complete (R34, R53, R133). -/
def engineTurn (us : Use) (a : Site) : Nat :=
  ((a.s.cur.strands.takeWhile (fun j => decide (j ≠ a.k))).filter (fun j => match a.s.site a.u j us.reads with
    | some b => (releaseHold 4 b).isNone
    | none => false)).length + 1

/-- An operation of a strand. -/
def mkOp (a : Site) (kind : OpKind) (x y z : Word64) : Op :=
  let l := a.s.crewLaunch a.c
  { (default : Op) with
    kind := kind, crew := a.u, weave := weaveOf a.k, strand := a.k, core := a.c.core, part := l.part, space := l.space
    launchId := a.c.launch, a := x, b := y, c := z, issuedAt := a.s.time }

/-- Return a future to the strand: the handle in S[d], the latches invalid, on to the next instruction (R51, R53). -/
def returnFuture (s : State) (a : Site) (d : Nat) (h : Word64) : State :=
  s.setStrand a.u a.k (a.st.latchKill.setFut d h).seq

/-- CPY (R257). -/
def cpyOp (i : Instr) (fn : Nat) (d x y z : Fin 32) (s : State) : Host.Outcome State Fault Refusal :=
  let us : Use := { sr := [x.val, y.val, z.val], sw := [d.val] }
  runNext i
    { use := us
      hold := fun a => engineHold 1 a.c.core (engineTurn us a) a
      act := eachStrand us (fun a =>
        let r := a.s.issueOp 1 a.c.core (mkOp a (.copy fn) (a.st.sreg x.val) (a.st.sreg y.val) (a.st.sreg z.val))
        returnFuture r.1 a d.val r.2) } s

/-- CPY.G2A (R260). -/
def execCpyG2a (d x y z : Fin 32) (s : State) : Host.Outcome State Fault Refusal := cpyOp (.cpyG2a d x y z) 0 d x y z s
/-- CPY.A2G (R260). -/
def execCpyA2g (d x y z : Fin 32) (s : State) : Host.Outcome State Fault Refusal := cpyOp (.cpyA2g d x y z) 1 d x y z s
/-- CPY.G2C (R260). -/
def execCpyG2c (d x y z : Fin 32) (s : State) : Host.Outcome State Fault Refusal := cpyOp (.cpyG2c d x y z) 2 d x y z s
/-- CPY.TCPY (R260). -/
def execCpyTcpy (d x y z : Fin 32) (s : State) : Host.Outcome State Fault Refusal := cpyOp (.cpyTcpy d x y z) 3 d x y z s
/-- CPY.GATH (R260). -/
def execCpyGath (d x y z : Fin 32) (s : State) : Host.Outcome State Fault Refusal := cpyOp (.cpyGath d x y z) 4 d x y z s
/-- CPY.C2G (R260). -/
def execCpyC2g (d x y z : Fin 32) (s : State) : Host.Outcome State Fault Refusal := cpyOp (.cpyC2g d x y z) 5 d x y z s

/-- CLRUN (R272): a misaligned list resolves at once. -/
def execClrun (d x y : Fin 32) (s : State) : Host.Outcome State Fault Refusal :=
  let us : Use := { sr := [x.val, y.val], sw := [d.val] }
  runNext (.clrun d x y)
    { use := us
      hold := fun a => engineHold 3 (domOf a.c.core) (engineTurn us a) a
      act := eachStrand us (fun a =>
        let list := a.st.sreg x.val
        let r := a.s.issueOp 3 (domOf a.c.core) (mkOp a .clrun list (a.st.sreg y.val) 0)
        let s1 := if list.toNat % 32 ≠ 0 then r.1.resolveOp r.2 (mkResult 2 0 0)
          else { r.1 with colls := mset r.1.colls r.1.nextId { (default : CollRun) with live := true, handle := r.2 }
                          nextId := r.1.nextId + 1 }
        returnFuture s1 a d.val r.2) } s

/-- CLSIG (R272): a release at device scope. -/
def execClsig (x y : Fin 32) (s : State) : Host.Outcome State Fault Refusal :=
  let us : Use := { sr := [x.val, y.val] }
  runNext (.clsig x y)
    { use := us
      hold := releaseHold 4
      act := eachStrand us (fun a =>
        let key := 64 * domOf a.c.core + nbits (a.st.sreg x.val).toNat 0 6
        { a.s.setStrand a.u a.k a.st.seq with signals := mset a.s.signals key (mget a.s.signals key + a.st.sreg y.val) }) } s

/-- Entries of a domain's DLQ that are in use (R324). -/
def State.dlqCount (s : State) (dom : Nat) : Nat := (s.dlq.filter (fun e => decide (e.2.dom = dom) && !e.2.cancelled)).length

/-- The pages of a launch record whose translation needs a walk. -/
def launchPages (x : Nat) (a : Site) : List Nat :=
  ((pageSpans (a.st.sreg x).toNat 256).map (fun p => p.2.1 % 2 ^ 64)).filter
    (fun va => decide (strandXl a (domOf a.c.core) 0 (BitVec.ofNat 64 va) = .miss))

/-- The record of a LAUNCH as the DLQ copies it. -/
def launchRead (x : Nat) (a : Site) : RdRes :=
  let l := a.s.crewLaunch a.c
  a.s.rdVirt a.c.core l.part l.space (a.st.sreg x).toNat 256

/-- LAUNCH (R273): the DLQ copies the record as the instruction retires. -/
def execLaunch (d x : Fin 32) (s : State) : Host.Outcome State Fault Refusal :=
  let us : Use := { sr := [x.val], sw := [d.val] }
  runNext (.launch d x)
    { use := us
      hold := fun a =>
        let dom := domOf a.c.core
        orWait (engineHold 4 dom (engineTurn us a) a)
          (if 256 < a.s.dlqCount dom + engineTurn us a then some .dlq
           else if (a.st.sreg x.val).toNat % 64 = 0 && (!(launchPages x.val a).isEmpty || decide (launchRead x.val a = .busy)) then some .walk
           else none)
      ask := fun s u ks => ks.foldl (fun s k => match s.site u k us.reads with
        | none => s
        | some a => (launchPages x.val a).foldl (fun s va =>
            s.askWalk u k a.c.core (domOf a.c.core) (s.crewLaunch a.c).part (s.crewLaunch a.c).space va) s) s
      act := eachStrand us (fun a =>
        let l := a.s.crewLaunch a.c
        let va := a.st.sreg x.val
        let r := a.s.issueOp 4 (domOf a.c.core) (mkOp a .launch va 0 0)
        let s1 :=
          if va.toNat % 64 ≠ 0 then r.1.resolveOp r.2 (mkResult 2 0 0)
          else match launchRead x.val a with
            | .ok bytes =>
              { r.1 with dlq := mset r.1.dlq r.1.nextId { dom := domOf a.c.core, bytes := bytes, part := l.part,
                                                          space := l.space, handle := r.2, cancelled := false }
                         nextId := r.1.nextId + 1 }
            | .fault c _ => r.1.resolveOp r.2 (mkResult 3 c 0)
            | .busy => r.1
        returnFuture s1 a d.val r.2) } s

/-- LQTRY (R273). -/
def execLqtry (d : Fin 32) (s : State) : Host.Outcome State Fault Refusal :=
  runNext (.lqtry d)
    (strandOp { sw := [d.val] } (fun a => a.st.setS d.val (BitVec.ofNat 64 (256 - a.s.dlqCount (domOf a.c.core))))) s

end Sys2Proof.Machine
end

