-- ==== Sys2Proof/Machine/Matrix.lean ====
section
/-! DEFINITION. The matrix path: tiles (R261..R263), accumulators and ranked lists (R84, R85, R267..R269), and the issue of
MMA, ACOMMIT and ALOAD (R264, R270, R271). -/

namespace Sys2Proof.Machine

/-! Ranked lists. -/

/-- The value of an FP32 pattern, subnormals kept. -/
def f32 (w : Word) : Fl := fmtF32.value false w.toNat

/-- Pair (v1, n1) orders before (v2, n2) (R84). -/
def rankBefore (a b : Word × Word) : Bool :=
  (f32 b.1).lt (f32 a.1) || ((f32 a.1).eq (f32 b.1) && decide (a.2.toNat < b.2.toNat))

/-- Insert a pair in order. -/
def rankInsert (p : Word × Word) : List (Word × Word) → List (Word × Word)
  | [] => [p]
  | q :: r => if rankBefore p q then p :: q :: r else q :: rankInsert p r

/-- Offer a pair to a list of length at most `len`: the list, and whether a NaN was refused (R85). -/
def rankOffer (len : Nat) (l : List (Word × Word)) (p : Word × Word) : List (Word × Word) × Bool :=
  if (f32 p.1).isNan then (l, true)
  else
    let room := fun (r : List (Word × Word)) =>
      if r.length < len then rankInsert p r
      else match r.getLast? with
        | some q => if rankBefore p q then rankInsert p r.dropLast else r
        | none => r
    match l.find? (fun q => decide (q.2 = p.2)) with
    | some q =>
      if (f32 q.1).lt (f32 p.1) || (decide (p.1 = 0) && decide (q.1 = 0x80000000))
      then (room (l.filter (fun x => decide (x.2 ≠ p.2))), false) else (l, false)
    | none => (room l, false)

/-- Offer pairs in turn. -/
def rankOffers (len : Nat) (l : List (Word × Word)) (ps : List (Word × Word)) : List (Word × Word) × Bool :=
  ps.foldl (fun acc p => let r := rankOffer len acc.1 p; (r.1, acc.2 || r.2)) (l, false)

/-- The threshold of a list (R84). -/
def rankThreshold (len : Nat) (l : List (Word × Word)) : Word :=
  if l.length < len then 0xFF800000 else match l.getLast? with | some q => q.1 | none => 0xFF800000

/-! Access to tiles and accumulators. -/

/-- The entries of a table from `lo` on, `n` keys, moved to 0. -/
def mslice {α : Type} (m : FMap α) (lo n : Nat) : FMap α :=
  (m.filter (fun e => decide (lo ≤ e.1) && decide (e.1 < lo + n))).map (fun e => (e.1 - lo, e.2))

/-- Bytes of a tile with its side band. -/
def tileSize : Nat := 8704
/-- The tile's bytes. -/
def Crew.tileBytes (c : Crew) (k : Nat) : FMap Byte := mslice c.tile (tileSize * k) tileSize
/-- Elements of a plain accumulator. -/
def accSize : Nat := 32768
/-- Row i of plain accumulator k. -/
def Crew.accRow (c : Crew) (k i : Nat) : FMap Word := mslice c.acc (accSize * k + 256 * i) 256
/-- List of row i of ranked accumulator k. -/
def Crew.rankRow (c : Crew) (k i : Nat) : List (Word × Word) := mget c.ranked (128 * k + i)
/-- The form of accumulator k. -/
def Crew.accForm (c : Crew) (k : Nat) : AccForm := mget c.form k
/-- Replace the lists of accumulator k. -/
def Crew.setLists (c : Crew) (k : Nat) (f : Nat → List (Word × Word)) : Crew :=
  { c with ranked := mreplace c.ranked (128 * k) 128 f }
/-- Accumulator k becomes plain with every element +0. -/
def Crew.azero (c : Crew) (k : Nat) : Crew :=
  { c with acc := mcut c.acc (accSize * k) (accSize * (k + 1)), form := mset c.form k default
           ranked := mcut c.ranked (128 * k) (128 * (k + 1)) }
/-- Write word w of row r of tile k. -/
def Crew.tileWord (c : Crew) (k r w : Nat) (x : Word) : Crew :=
  { c with tile := msetList c.tile (tileSize * k + 64 * r + 4 * w) (leBytes 4 x.toNat) }

/-! Weave instructions. -/

/-- The effect of a weave instruction: the futures that its strands read are delivered, the effect is made once from the live strand
of lowest SID, and each strand continues (R37, R390). -/
def weaveAct {β : Type} (x : Use) (f : Site → State × β) (fin : β → State → Nat → Strand → Strand) (none' : β) :
    State → Nat → List Nat → State := fun s u ks =>
  let s1 := ks.foldl (fun s k => match s.site u k x.reads with | some a => s.setStrand u k a.st | none => s) s
  let r := match s1.site u (ks.headD 0) x.reads with | some a => f a | none => (s1, none')
  ks.foldl (fun s k => s.setStrand u k (fin r.2 s k (s.strand u k)).seq) r.1

/-- The live strand of lowest SID of the sub-gang (R390), with its futures delivered. -/
def leadSite (x : Use) (a : Site) : Site := (a.s.site a.u (a.s.cur.strands.headD 0) x.reads).getD a

/-- The interlock of a TILE instruction (R266). -/
def tileHold (k : Nat) (writes : Bool) (a : Site) : Option Wait :=
  lockHold a (if writes then [.tile k, .tileRead k] else [.tile k])

/-- The interlock of an ACC instruction (R266, R268). -/
def accHold (k : Nat) (commits : Bool) (a : Site) : Option Wait := lockHold a [.acc k commits]

/-- Tile k lies outside the crew's claim (R45). -/
def tileBad (k : Nat) (c : Crew) (_ : Strand) : Bool := decide (c.tiles ≤ k)
/-- Accumulator k lies outside the crew's claim (R45). -/
def accBad (k : Nat) (c : Crew) (_ : Strand) : Bool := decide (c.accs ≤ k)

/-- The threads of a weave's strand, for a write that ignores the guard. -/
def allThreads : Word := 0xFFFFFFFF

/-- TZERO (R261). -/
def execTzero (k : Fin 16) (s : State) : Host.Outcome State Fault Refusal :=
  let x : Use := { bad := tileBad k.val, weave := true }
  runNext (.tzero k)
    { use := x
      hold := tileHold k.val true
      act := weaveAct x (fun a =>
        (a.s.setCrew a.u { a.c with tile := mreplace a.c.tile (tileSize * k.val) tileSize (fun i => if i < 8192 then 0 else 0x7F) }, ()))
        (fun _ _ _ st => st) () } s

/-- The data and scale offsets of TLD and TST (R262). -/
def tileOffsets (st : Strand) (n : Nat) : Nat × Nat := (nbits (st.sreg n).toNat 0 21, nbits (st.sreg n).toNat 32 21)

/-- The trap of TLD and TST: misalignment, then the view, data before scales (R262, R299). -/
def tileTrap (x : Use) (n : Nat) (a : Site) : Option Trap :=
  let l := leadSite x a
  let o := tileOffsets l.st n
  let v := a.c.view
  let first := fun (lo len : Nat) => if lo < v && v < lo + len then v else lo
  if o.1 % 64 ≠ 0 then some (valueTrap a.st cMisalign (BitVec.ofNat 64 o.1))
  else if o.2 % 64 ≠ 0 then some (valueTrap a.st cMisalign (BitVec.ofNat 64 o.2))
  else if v < o.1 + 8192 then some (valueTrap a.st cProtection (BitVec.ofNat 64 (first o.1 8192)))
  else if v < o.2 + 512 then some (valueTrap a.st cProtection (BitVec.ofNat 64 (first o.2 512)))
  else none

/-- The AB cycles of TLD and TST (R262). -/
def tileCycles : Nat := 34

/-- The core cycle at which the buffer is done with a TLD or TST that is issued now: after those before it, ahead of the strands (R100). -/
def State.tileDone (s : State) (core : Nat) : Nat := max s.clock (s.core core).tileFree + tileCycles

/-- The buffer serves a TLD or TST; the strands' accesses come after it (R100). -/
def State.useTileAb (s : State) (core : Nat) : State :=
  let c := s.core core
  s.setCore core { c with tileFree := s.tileDone core, abFree := max s.clock c.abFree + tileCycles }

/-- TLD and TST hold their tile until their AB cycles are done (R266). -/
def Crew.useTile (c : Crew) (k kind w : Nat) (o : Nat × Nat) (due : Nat) : Crew :=
  { c with tileBusy := mset c.tileBusy k { kind := kind, weave := w, data := o.1, scale := o.2, due := due } }

/-- The waits of TLD and TST: a busy tile (R266), a TST of the weave that writes the bytes it uses, an earlier SC store (R124), and for a TST, which
writes the buffer, a FENCE.REL (R126, R245). -/
def tileAbHold (x : Use) (k n : Nat) (writes : Bool) (a : Site) : Option Wait :=
  let o := tileOffsets (leadSite x a).st n
  orWait (orWait (orderHold a false) (if writes then none else abFenceHold a))
    (orWait (tileHold k writes a) (lockHold a [.bytes o.1 8192, .bytes o.2 512]))

/-- TLD (R262). -/
def execTld (k : Fin 16) (n : Fin 32) (s : State) : Host.Outcome State Fault Refusal :=
  let x : Use := { bad := tileBad k.val, weave := true, sr := [n.val] }
  runNext (.tld k n)
    { use := x
      trap := tileTrap x n.val
      hold := tileAbHold x k.val n.val true
      act := weaveAct x (fun a =>
        let o := tileOffsets a.st n.val
        let byte := fun (i : Nat) => a.c.abByte (a.c.abIndex (if i < 8192 then o.1 + i else o.2 + (i - 8192)))
        let c1 := { a.c with tile := mreplace a.c.tile (tileSize * k.val) tileSize byte }
        ((a.s.useTileAb a.c.core).setCrew a.u (c1.useTile k.val 1 (weaveOf a.k) o (2 * a.s.tileDone a.c.core)), ())) (fun _ _ _ st => st) () } s

/-- TST (R262). -/
def execTst (k : Fin 16) (n : Fin 32) (s : State) : Host.Outcome State Fault Refusal :=
  let x : Use := { bad := tileBad k.val, weave := true, sr := [n.val] }
  runNext (.tst k n)
    { use := x
      trap := tileTrap x n.val
      hold := tileAbHold x k.val n.val false
      act := weaveAct x (fun a =>
        let o := tileOffsets a.st n.val
        let t := a.c.tileBytes k.val
        let c1 := (a.c.abWrite o.1 (mflat 0 8192 t)).abWrite o.2 (mgetList t 8192 512)
        ((a.s.useTileAb a.c.core).setCrew a.u (c1.useTile k.val 2 (weaveOf a.k) o (2 * a.s.tileDone a.c.core)), ())) (fun _ _ _ st => st) () } s

/-- A slice index of a strand (R261, R269, R390). -/
def sliceIndex (st : Strand) (x n : Nat) : Nat := (nbits (st.sreg x).toNat 0 32 + n) % 2 ^ 32

/-- The row and first word that weave thread u writes (R263). -/
def tmovPlace (wide rc : Bool) (q u : Nat) : Nat × Nat :=
  if wide then (if rc then (u % 128, 4 * ((q + u / 128) % 4)) else ((q + u / 4) % 128, 4 * (u % 4)))
  else if rc then (u % 128, (q + u / 128) % 16)
  else ((q + u / 16) % 128, u % 16)

/-- The writes of a strand of TMOV and TMOVW, threads ascending (R263). -/
def tmovStrand (f : FTile) (wide : Bool) (a : Site) : State :=
  let q := sliceIndex a.st f.x.val f.n.val
  let c1 := (List.range 32).foldl (fun (c : Crew) t =>
    let p := tmovPlace wide f.rc q (32 * sidOf a.k + t)
    (List.range (if wide then 4 else 1)).foldl (fun (c : Crew) j =>
      c.tileWord f.k.val p.1 (p.2 + j) (if wide then a.st.srcAt f.d j t else a.st.src f.d t)) c) a.c
  a.s.setCrew a.u (c1.setSt a.k a.st.seq)

/-- TMOV (R263). -/
def execTmov (f : FTile) (s : State) : Host.Outcome State Fault Refusal :=
  let x : Use := { src := [f.d], bad := tileBad f.k.val, weave := true, sr := [f.x.val] }
  runNext (.tmov f) { use := x, hold := tileHold f.k.val true, act := eachStrand x (tmovStrand f false) } s

/-- TMOVW (R263). -/
def execTmovw (f : FTile) (s : State) : Host.Outcome State Fault Refusal :=
  let x : Use := { grp := [(f.d, 4)], bad := tileBad f.k.val, weave := true, sr := [f.x.val] }
  runNext (.tmovw f) { use := x, hold := tileHold f.k.val true, act := eachStrand x (tmovStrand f true) } s

/-- TSCL (R263). -/
def execTscl (d : Opnd) (k : Fin 16) (r : Fin 32) (n : Fin 16) (s : State) : Host.Outcome State Fault Refusal :=
  let x : Use := { src := [d], bad := tileBad k.val, weave := true, sr := [r.val] }
  runNext (.tscl d k r n)
    { use := x
      hold := tileHold k.val true
      act := eachStrand x (fun a =>
        let q := sliceIndex a.st r.val n.val
        let c1 := (List.range 32).foldl (fun (c : Crew) t =>
          let row := (q + (32 * sidOf a.k + t)) % 128
          { c with tile := msetList c.tile (tileSize * k.val + 8192 + 4 * row) (leBytes 4 (a.st.src d t).toNat) }) a.c
        a.s.setCrew a.u (c1.setSt a.k a.st.seq)) } s

/-! Matrix multiply. -/

/-- MMA's checks of step 3: the claims, and K on a plain accumulator (R264). -/
def mmaBad (f : FX) (c : Crew) (st : Strand) : Bool :=
  tileBad f.tile.val c st || accBad f.acc.val c st || (f.k && !(c.accForm f.acc.val).ranked)

/-- MMA's slot check (R78, R264). -/
def mmaSlot (f : FX) (slots : Nat → Word64) : Bool :=
  let b := slots f.slotB.val
  !slotOk 1 (slots f.slotA.val) || !slotOk 2 b || (if f.w then decide (slotPlanes b < 9) else decide (8 < slotPlanes b))

/-- What MMA names. -/
def mmaUse (f : FX) : Use :=
  { sr := [f.b.val], sw := [f.sf.val], bad := mmaBad f, slot := mmaSlot f, weave := true }

/-- Issue one matrix operation for the weave: the same handle to every strand (R278). -/
def issueMatrix (x : Use) (d : Nat) (kind : OpKind) (val : Site → Word64) : State → Nat → List Nat → State :=
  weaveAct x (fun a => a.s.issueOp 2 a.c.core (mkOp a kind (val a) 0 0))
    (fun h _ _ st => st.latchKill.setFut d h) 0

/-- MMA (R264). -/
def execMma (f : FX) (s : State) : Host.Outcome State Fault Refusal :=
  let x := mmaUse f
  runNext (.mma f)
    { use := x
      trap := fun a =>
        let r := nbits ((leadSite x a).st.sreg f.b.val).toNat 0 32
        if (a.s.crewLaunch a.c).record.cistern < r + (if f.w then 8 else 4)
        then some (valueTrap a.st cProtection (BitVec.ofNat 64 r)) else none
      hold := fun a =>
        orWait (engineHold 2 a.c.core 1 a) (lockHold a [.tile f.tile.val])
      act := issueMatrix x f.sf.val (.mma f) (fun a => a.st.sreg f.b.val) } s

/-! Accumulators. -/

/-- AZERO (R267). -/
def execAzero (k : Fin 4) (s : State) : Host.Outcome State Fault Refusal :=
  let x : Use := { bad := accBad k.val, weave := true }
  runNext (.azero k)
    { use := x
      hold := accHold k.val true
      act := weaveAct x (fun a => (a.s.setCrew a.u (a.c.azero k.val), ())) (fun _ _ _ st => st) () } s

/-- What ACOMMIT and ALOAD name. -/
def commitUse (d : Opnd) (k : Nat) (n : Fin 32) : Use :=
  { sout := [d], sr := [n.val], bad := accBad k, weave := true }

/-- The waits of ACOMMIT and ALOAD: those of every engine issue, and an ARFOLD into the accumulator (R266, R268). -/
def commitHold (k : Nat) (a : Site) : Option Wait :=
  orWait (engineHold 2 a.c.core 1 a) (lockHold a [.fold k])

/-- ACOMMIT (R270). -/
def execAcommit (d : Opnd) (k : Fin 4) (n : Fin 32) (s : State) : Host.Outcome State Fault Refusal :=
  let x := commitUse d k.val n
  runNext (.acommit d k n)
    { use := x
      hold := commitHold k.val
      act := issueMatrix x d.num (.acommit k.val) (fun a => a.st.sreg n.val) } s

/-- ALOAD (R271). -/
def execAload (d : Opnd) (k : Fin 4) (n : Fin 32) (s : State) : Host.Outcome State Fault Refusal :=
  let x := commitUse d k.val n
  runNext (.aload d k n)
    { use := x
      hold := commitHold k.val
      act := issueMatrix x d.num (.aload k.val) (fun a => a.st.sreg n.val) } s

/-- The fields of ARANK's word: base, KEEP, length; none when it breaks a rule (R268). -/
def arankFields (w : Word64) (ranked : Bool) : Option (Word × Bool × Nat) :=
  let n := w.toNat
  let len := nbits n 0 6
  let keep := nbit n 8
  if nbits n 9 23 ≠ 0 || decide (nbits n 6 2 ≠ 0) || decide (len = 0) || decide (32 < len) || (keep && !ranked) then none
  else some (BitVec.ofNat 32 (nbits n 32 32), keep, len)

/-- ARANK (R268). -/
def execArank (k : Fin 4) (n : Fin 32) (s : State) : Host.Outcome State Fault Refusal :=
  let x : Use := { bad := accBad k.val, weave := true, sr := [n.val] }
  runNext (.arank k n)
    { use := x
      trap := fun a =>
        if (arankFields ((leadSite x a).st.sreg n.val) (a.c.accForm k.val).ranked).isNone
        then some (wordTrap a.st cOperand (wordOf (.arank k n))) else none
      hold := accHold k.val true
      act := weaveAct x (fun a =>
        match arankFields (a.st.sreg n.val) (a.c.accForm k.val).ranked with
        | none => (a.s, ())
        | some (base, keep, len) =>
          let c0 := if keep then a.c else a.c.azero k.val
          let c1 := if keep then c0.setLists k.val (fun i => (a.c.rankRow k.val i).take len) else c0
          (a.s.setCrew a.u { c1 with form := mset c1.form k.val ⟨true, len, base⟩ }, ())) (fun _ _ _ st => st) () } s

/-- The pairs that a row of values offers at an index base (R265, R268). -/
def rowOffers (base : Word) (v : Nat → Word) : List (Word × Word) :=
  (List.range 256).map (fun j => (v j, base + BitVec.ofNat 32 j))

/-- Core cycles of ARFOLD, in base cycles (R268). -/
def foldCycles : Nat := 512

/-- ARFOLD (R268): its operands are checked as they stand. -/
def execArfold (j k : Fin 4) (s : State) : Host.Outcome State Fault Refusal :=
  let x : Use := { bad := fun c st => accBad k.val c st || accBad j.val c st, weave := true }
  runNext (.arfold j k)
    { use := x
      trap := fun a =>
        if j = k || !(a.c.accForm k.val).ranked || (a.c.accForm j.val).ranked
        then some (wordTrap a.st cOperand (wordOf (.arfold j k))) else none
      hold := fun a => orWait (accHold k.val true a) (accHold j.val false a)
      act := weaveAct x (fun a =>
        let fm := a.c.accForm k.val
        let rows := (List.range 128).map (fun i =>
          let v := a.c.accRow j.val i
          rankOffers fm.len (a.c.rankRow k.val i) (rowOffers fm.base (mget v)))
        let c1 := a.c.setLists k.val (fun i => ((rows.drop i).headD ([], false)).1)
        (a.s.setCrew a.u { c1 with
            foldBusy := mset c1.foldBusy k.val (a.s.time + foldCycles),
            foldWeave := mset c1.foldWeave k.val (weaveOf a.k) }, rows.any (·.2)))
        (fun nan _ _ st => if nan then st.orFlags flagIV else st) false } s

/-- The value of an accumulator element. -/
def accElem (c : Crew) (k i j : Nat) : Word := mget c.acc (accSize * k + 256 * i + j)

/-- The element that weave thread u receives in register c (R269). -/
def amovElem (cr : Crew) (k : Nat) (wide rc : Bool) (q u c : Nat) : Word :=
  if wide then
    (if rc then accElem cr k (4 * (u % 32) + c) ((q + u / 32) % 256) else accElem cr k ((q + u / 64) % 128) (4 * (u % 64) + c))
  else if rc then accElem cr k (u % 128) ((q + u / 128) % 256)
  else accElem cr k ((q + u / 256) % 128) (u % 256)

/-- Results of the matrix path: every thread's destination, available two issue periods later (R269). -/
def matrixResult (st : Strand) (d : Opnd) (n period : Nat) (val : Nat → Nat → Word) : Strand :=
  let st1 := match d with
    | .v r => (List.range n).foldl (fun (x : Strand) c => x.writeV (r.val + c) allThreads (val c)) st
    | _ => st.writeReg d allThreads (val 0)
  (st1.delay ((List.range n).map (fun c => d.code + c)) (period + 2)).seq

/-- AMOV and AMOVW (R269). DESIGN CHOICE: the check of the accumulator's form comes after the other checks of R157, as for ATHR, ARREAD, ARFOLD and
ARANK; step 3 of R157 does not list it. -/
def amovOp (i : Instr) (f : FAcc) (wide : Bool) (s : State) : Host.Outcome State Fault Refusal :=
  let n := if wide then 4 else 1
  let x : Use := { out := if wide then [] else [f.d], grp := if wide then [(f.d, 4)] else [], sr := [f.x.val]
                   bad := accBad f.k.val, weave := true }
  runNext i
    { use := x
      trap := fun a => if (a.c.accForm f.k.val).ranked then some (wordTrap a.st cOperand (wordOf i)) else none
      hold := accHold f.k.val true
      act := onStrand x (fun a =>
        matrixResult a.st f.d n a.s.period (fun c t =>
          amovElem a.c f.k.val wide f.rc (sliceIndex a.st f.x.val f.n.val) (32 * sidOf a.k + t) c)) } s

/-- AMOV (R269). -/
def execAmov (f : FAcc) (s : State) : Host.Outcome State Fault Refusal := amovOp (.amov f) f false s
/-- AMOVW (R269). -/
def execAmovw (f : FAcc) (s : State) : Host.Outcome State Fault Refusal := amovOp (.amovw f) f true s

/-- ATHR and ARREAD on a plain accumulator (R267). -/
def plainTrap (i : Instr) (k : Nat) (a : Site) : Option Trap :=
  if (a.c.accForm k).ranked then none else some (wordTrap a.st cOperand (wordOf i))

/-- ATHR (R269). -/
def execAthr (d : Opnd) (k : Fin 4) (s : State) : Host.Outcome State Fault Refusal :=
  let x : Use := { out := [d], bad := accBad k.val, weave := true }
  runNext (.athr d k)
    { use := x
      trap := plainTrap (.athr d k) k.val
      hold := accHold k.val false
      act := onStrand x (fun a => matrixResult a.st d 1 a.s.period (fun _ t =>
        rankThreshold (a.c.accForm k.val).len (a.c.rankRow k.val ((32 * sidOf a.k + t) % 128)))) } s

/-- ARREAD (R269). -/
def execArread (d : Opnd) (k : Fin 4) (n : Fin 32) (s : State) : Host.Outcome State Fault Refusal :=
  let x : Use := { grp := [(d, 2)], sr := [n.val], bad := accBad k.val, weave := true }
  runNext (.arread d k n)
    { use := x
      trap := plainTrap (.arread d k n) k.val
      hold := accHold k.val false
      act := onStrand x (fun a => matrixResult a.st d 2 a.s.period (fun c t =>
        let u := 32 * sidOf a.k + t
        let rank := nbits (a.st.sreg n.val).toNat 0 32 + u / 128
        match ((a.c.rankRow k.val (u % 128)).drop rank).head? with
        | some p => if c = 0 then p.1 else p.2
        | none => if c = 0 then 0x7FC00000 else 0xFFFFFFFF)) } s

end Sys2Proof.Machine
end

