-- ==== Sys2Proof/Machine/Psys.lean ====
section
/-! DEFINITION. The privileged instructions (R288..R295): at level 0 each of them is an illegal instruction (R281). -/

namespace Sys2Proof.Machine

/-- ERET (R289, R303). -/
def execEret (s : State) : Host.Outcome State Fault Refusal :=
  runNext .eret { use := { priv := true }, act := eachStrand {} (fun a => a.s.returnTrap a.u a.k) } s

/-- A privileged register as SPRP reads it (R283, R284). -/
def sprpValue (a : Site) (n : Nat) : Nat :=
  let core := a.s.core a.c.core
  match n with
  | 0 => a.st.tcause.toNat
  | 1 => a.st.tepc.toNat
  | 2 => a.st.tval.toNat
  | 3 => a.st.tmask.toNat
  | 4 => core.tvec.toNat
  | 5 => a.st.flags.toNat
  | 6 => core.mxov.toNat
  | 7 => core.mxuf.toNat
  | 8 => core.mxnan.toNat
  | 9 => core.mxskip.toNat
  | 10 => a.s.groupOf a.c
  | 11 => min 127 (a.s.ownRecords a.u a.k) * 256 + a.s.sfrqCount a.c.core
  | _ => a.c.savebase.toNat

/-- A privileged register after SPW: RW fields take the bits, RO and Z fields stay (R284, R290). -/
def spwStrand (st : Strand) (n : Nat) (v : Word64) : Strand :=
  match n with
  | 0 => { st with tcause := (st.tcause &&& ~~~(1#64 <<< 20)) ||| (v &&& (1#64 <<< 20)) }
  | 1 => { st with tepc := (v.setWidth 57).setWidth 64 }
  | 2 => { st with tval := v }
  | 3 => { st with tmask := v.setWidth 32 }
  | 5 => { st with flags := v.setWidth 4 }
  | _ => st

/-- SPW (R290). -/
def execSpw (d : Fin 128) (x : Opnd) (s : State) : Host.Outcome State Fault Refusal :=
  runNext (.spw d x)
    (strandOp { priv := true, sin := [x], bad := fun _ _ => decide (12 < d.val) }
      (fun a => spwStrand a.st d.val (a.st.sreg x.num))) s

/-- SPRP (R290). -/
def execSprp (d : Opnd) (n : Fin 128) (s : State) : Host.Outcome State Fault Refusal :=
  runNext (.sprp d n)
    (strandOp { priv := true, sout := [d], bad := fun _ _ => decide (12 < n.val) }
      (fun a => a.st.setS d.num (BitVec.ofNat 64 (sprpValue a n.val)))) s

/-- The strands that TERM ends: the strand, its weave, its crew (R291). -/
def termKeys (c : Crew) (k scope : Nat) : List Nat :=
  if scope = 0 then [k] else if scope = 1 then c.keys.filter (fun j => decide (weaveOf j = weaveOf k)) else c.keys

/-- TERM (R291). -/
def execTerm (d code : Fin 128) (s : State) : Host.Outcome State Fault Refusal :=
  runNext (.term d code)
    { use := { priv := true }
      act := eachStrand {} (fun a =>
        a.s.termStrands a.u (termKeys a.c a.k d.val) (decide (2 ≤ d.val)) code.val 0) } s

/-- The TLBs without the entries that a TLBINV selects, a page of a partition or the whole partition; the walks in flight that could install
one have ended, and who waited for them asks afresh (R292, R295). -/
def State.tlbDrop (s : State) (part va : Nat) (all : Bool) : State :=
  { s with tlb := s.tlb.filter (fun e => !(decide (e.part = part) && (all || decide (e.page = va / 2 ^ e.pageBits))))
           walks := s.walks.filter (fun e => !(decide (e.2.part = part) && (all || decide (e.2.va / 2 ^ 30 = va / 2 ^ 30)))) }

/-- TLBINV (R292): a release at device scope. -/
def execTlbinv (x y : Opnd) (s : State) : Host.Outcome State Fault Refusal :=
  let us : Use := { priv := true, sin := [x, y] }
  runNext (.tlbinv x y)
    { use := us
      trap := fun a => if 1 < (a.st.sreg y.num).toNat then some (wordTrap a.st cOperand (wordOf (.tlbinv x y))) else none
      hold := releaseHold 4
      act := eachStrand us (fun a =>
        (a.s.tlbDrop (a.s.crewLaunch a.c).part (a.st.sreg x.num).toNat (decide (a.st.sreg y.num = 1))).setStrand a.u a.k
          a.st.latchKill.seq) } s

/-- The two words of a popped record (R293). -/
def popWords (s : State) (r : SfRecord) : Word64 × Word64 :=
  let c := s.crew r.crew
  let slice := ((mget c.slices (weaveOf r.strand)).drop (sidOf r.strand)).headD 0
  (BitVec.ofNat 64 (r.cause * 2 ^ 60 + r.z % 8 * 2 ^ 57 + r.va.toNat % 2 ^ 57),
   BitVec.ofNat 64 (2 ^ 63 + slice % 16 * 2 ^ 59 + mget c.ctx (weaveOf r.strand) % 4 * 2 ^ 57 + r.pc.toNat))

/-- SFRQPOP (R293). -/
def execSfrqpop (d : Opnd) (s : State) : Host.Outcome State Fault Refusal :=
  let us : Use := { priv := true, sout := [d], sw := [d.num + 1], bad := fun _ _ => decide (d.num % 2 = 1) || decide (d.num = 0) }
  runNext (.sfrqpop d)
    { use := us
      act := eachStrand us (fun a =>
        match a.s.oldestRecord a.u a.k with
        | some e =>
          let w := popWords a.s e.2
          let s1 := a.s.dropRecord e
          s1.setStrand a.u a.k (((s1.strand a.u a.k).setS d.num w.1).setS (d.num + 1) w.2).seq
        | none => a.s.setStrand a.u a.k ((a.st.setS d.num 0).setS (d.num + 1) 0).seq) } s

/-- A spill record (R294). -/
def spillBytes (w : Weir) (group id : Nat) : List Byte :=
  leBytes 6 w.eb.toNat ++ leBytes 2 id ++ leBytes 4 w.ea.toNat ++ leBytes 4 w.ph.toNat
  ++ leBytes 8 (w.ca + group * 2 ^ 40) ++ leBytes 8 w.cb

/-- Spilled ids of a domain (R294). -/
def State.spilledOf (s : State) (dom : Nat) : Nat :=
  (s.weirs.filter (fun e => decide (e.2.state = 2) && decide (weirDom (e.1 % 2 ^ 16) = dom))).length

/-- What WSPILL does: a status, and the state when it is 0; none while the record cannot be written yet (R294). DESIGN CHOICE: of several statuses that
apply an absent entry (2) comes first, then a full list (1), then a bad address (3); the spec gives no order. -/
def wspill (a : Site) (v addr : Word64) : Option (Nat × State) :=
  let l := a.s.crewLaunch a.c
  let id := nbits v.toNat 0 16
  let group := nbits v.toNat 16 24
  let key := weirKey l.part group id
  let w := mget a.s.weirs key
  if w.state ≠ 1 then some (2, a.s)
  else if 1024 ≤ a.s.spilledOf (weirDom id) then some (1, a.s)
  else if addr.toNat % 32 ≠ 0 then some (3, a.s)
  else match a.s.wrVirt a.c.core l.part l.space addr.toNat (spillBytes w group id) with
    | .ok s1 => some (0, s1.setWeir key { (default : Weir) with state := 2 })
    | .fault _ _ => some (3, a.s)
    | .busy => none

/-- WSPILL (R294). -/
def execWspill (d x y : Opnd) (s : State) : Host.Outcome State Fault Refusal :=
  let us : Use := { priv := true, sout := [d], sin := [x, y] }
  runNext (.wspill d x y)
    { use := us
      hold := fun a => if (wspill a (a.st.sreg x.num) (a.st.sreg y.num)).isNone then some .walk else none
      act := eachStrand us (fun a =>
        match wspill a (a.st.sreg x.num) (a.st.sreg y.num) with
        | some (n, s1) => s1.setStrand a.u a.k (a.st.latchKill.setS d.num (BitVec.ofNat 64 n)).seq
        | none => a.s) } s

/-- The fields of a spill record: id, group, entry; none when a zero field is set (R294). -/
def spillFields (b : List Byte) : Option (Nat × Nat × Weir) :=
  let q := fun (o n : Nat) => leNat ((b.drop o).take n)
  if nbits (q 16 8) 33 7 ≠ 0 || decide (nbits (q 24 8) 49 15 ≠ 0) then none
  else some (q 6 2, nbits (q 16 8) 40 24,
    { state := 1, ea := BitVec.ofNat 32 (q 8 4), eb := BitVec.ofNat 48 (q 0 6), ca := nbits (q 16 8) 0 33, cb := nbits (q 24 8) 0 49
      ph := BitVec.ofNat 32 (q 12 4), changed := 0 })

/-- What WFILL does: a status and the state; none while the record's page is being moved (R294, R311). DESIGN CHOICE: of several statuses that apply a bad
address (3) comes first, then a zero field or an id that is not spilled (2), then a full table (1); the spec gives no order. -/
def wfill (a : Site) (addr : Word64) : Option (Nat × State) :=
  let l := a.s.crewLaunch a.c
  if addr.toNat % 32 ≠ 0 then some (3, a.s)
  else match a.s.rdVirt a.c.core l.part l.space addr.toNat 32 with
    | .fault _ _ => some (3, a.s)
    | .busy => none
    | .ok b =>
      match spillFields b with
      | none => some (2, a.s)
      | some (id, group, w) =>
        let key := weirKey l.part group id
        let delta := mget a.s.weirs key
        if delta.state ≠ 2 then some (2, a.s)
        else if 4096 ≤ (a.s.weirsOf (weirDom id)).length then some (1, a.s)
        else some (0, a.s.setWeir key (w.credit delta.ca delta.cb))

/-- WFILL (R294). -/
def execWfill (d x : Opnd) (s : State) : Host.Outcome State Fault Refusal :=
  let us : Use := { priv := true, sout := [d], sin := [x] }
  runNext (.wfill d x)
    { use := us
      hold := fun a => if (wfill a (a.st.sreg x.num)).isNone then some .walk else none
      act := eachStrand us (fun a =>
        match wfill a (a.st.sreg x.num) with
        | some (n, s1) => s1.setStrand a.u a.k (a.st.setS d.num (BitVec.ofNat 64 n)).seq
        | none => a.s) } s

end Sys2Proof.Machine
end

