-- ==== Sys2Proof/Machine/Home.lean ====
section
/-! DEFINITION. What happens at the home slices and at the descriptors of puts, and what comes back to the strand: loads, writes,
atomics, leases, replies, acknowledgements, puts and exchange stores (R94..R96, R102, R110..R117, R127, R235, R240..R242, R304). -/

namespace Sys2Proof.Machine

/-- The request has still to reach its slice: a put that has reached the descriptor's has a stamp. -/
def Req.underWay (r : Req) : Bool := r.kind.atHome || ((match r.kind with | .put _ => true | _ => false) && decide (r.stamp = 0))

/-- A request of this device that left the same core's port earlier for the same home slice has not arrived (R112). -/
def State.behind (s : State) (k : Nat) (r : Req) : Bool :=
  decide (r.dev = s.dev) && s.net.any (fun e => decide (e.1 < k) && decide (e.2.dev = s.dev) && decide (e.2.core = r.core)
    && e.2.underWay && decide (devOf e.2.pa = s.dev) && decide (s.homeSlice e.2.pa = s.homeSlice r.pa))

/-- An earlier write of the same crew to the line, perhaps sent from another core before the crew resumed here, has not arrived, or an earlier put of it,
whose row may lie there, has not performed (R113, R123, R125). -/
def State.crewBehind (s : State) (k : Nat) (r : Req) : Bool :=
  decide (r.dev = s.dev) && s.net.any (fun e => decide (e.1 < k) && decide (e.2.dev = s.dev) && decide (e.2.crew = r.crew)
    && decide (e.2.crew ≠ 0) && decide (devOf e.2.pa = s.dev)
    && (match e.2.kind with
      | .put _ => true
      | .none => false
      | .load => false
      | _ => e.2.kind.atHome && decide (e.2.pa = r.pa)))

/-- The domain from which a request comes to its home: that of its core, or of the port by which another device's arrives. DEDUCED: that of the
minimal path to the device. -/
def State.reqDom (s : State) (r : Req) : Nat := if r.dev = s.dev then domOf r.core else portDom ((s.minPort r.dev).getD 0)

/-- A packet for or from a home slice of this device waits for the bridge (R370). -/
def State.bridgeHolds (s : State) (r : Req) : Bool :=
  s.bridgeDown && decide (devOf r.pa = s.dev) && decide (s.reqDom r ≠ s.homeSlice r.pa / 256)

/-- The router port that carries a packet of this device's cores, or of another device: the port of the core's chiplet, or that of the switch
of a domain, from 64 on. -/
def State.routerPort (s : State) (r : Req) : Nat := if r.dev = s.dev then chipOf r.core else 64 + s.homeSlice r.pa / 256

/-- A request of this kind can go on to its home on this device, but for the power states on its way. -/
def State.reaches (s : State) (k : Nat) (r : Req) : Bool :=
  r.kind.atHome && decide (devOf r.pa = s.dev) && r.left && !s.behind k r && !s.crewBehind k r && !s.bridgeHolds r

/-- What is on a request's way wakes: a flit that arrives at a port that is down or waking is held, never dropped (R379). -/
def State.wakeWay (s : State) (r : Req) : State := (s.wakeRouter (s.routerPort r)).wakeChannels [r.pa]

/-- The request may reach its home on this device now. -/
def State.arrives (s : State) (k : Nat) (r : Req) : Bool :=
  s.reaches k r && s.routerReady (s.routerPort r) && s.channelsReady [r.pa]

/-- A request reaches a slice: its router port and, in the near tier, its pseudo-channel are in use (R378). -/
def State.touchSlice (s : State) (r : Req) : State :=
  (s.useRouter (s.routerPort r)).useChannels [r.pa]

/-- A reply or acknowledgement for a core waits for the bridge, or for the router port of the core's chiplet (R370, R379). -/
def State.replyHeld (s : State) (r : Req) : Bool :=
  (s.bridgeDown && decide (devOf r.pa = s.dev) && decide (domOf r.core ≠ s.homeSlice r.pa / 256)) || !s.routerReady (chipOf r.core)

/-- The reply or acknowledgement leaves: to the strand, or to the device that asked (R354). -/
def State.respond (s : State) (k : Nat) (r : Req) : State :=
  let s1 := { s with net := mset s.net k default, home := mset s.home k default }
  if r.dev = s.dev then { s1 with back := mset s1.back k { r with readyAt := 0 } }
  else s1.emitSince (s.homeSlice r.pa / 256) s.time r.dev (flitsOf r.replyBytes) (.answer r.peerId r)

/-- The request waits at its home, behind those that came before it. -/
def State.enqueue (s : State) (k : Nat) (r : Req) : State :=
  { s with net := mset s.net k default, home := mset s.home k { r with stamp := s.nextId }, nextId := s.nextId + 1 }

/-- Length of a lease in ticks by hint (R94). -/
def leaseTicks (h : Nat) : Nat := match h with | 0 => 64 | 1 => 16 | 2 => 0 | _ => 1024

/-- Lines of a core's L1 data cache: 256 KiB. -/
def l1Lines : Nat := 2048

/-- Room for one more line in a core's L1, newest first: when it is full, a line that a Streaming load brought goes, the oldest of them,
else the oldest line (R94). DESIGN CHOICE: apart from that the spec gives no order of eviction. -/
def l1Room (l : List L1Line) : List L1Line :=
  if l.length < l1Lines then l
  else
    let r := l.reverse
    match r.findIdx? (·.streaming) with
    | some i => (r.eraseIdx i).reverse
    | none => l.dropLast

/-- A load of this device takes a lease and its line enters L1 (R94): not without a lease hint, not while a write waits on the line
(R96). While a write of its core to the line is on its way the line does not answer the core's loads (`l1Serves`), which go behind the write (R113). -/
def State.grantLease (s : State) (r : Req) : State :=
  if decide (r.dev = s.dev) && decide (r.hint ≠ 2) && !s.writeWaits r.pa then
    let e := s.ltime + leaseTicks r.hint
    let own := s.l1.filter (fun x => decide (x.core = r.core) && decide (x.line ≠ r.pa))
    { s with lease := mset s.lease r.pa (max (mget s.lease r.pa) e)
             l1 := { core := r.core, line := r.pa, expiry := e, streaming := decide (r.hint = 1) } :: l1Room own
               ++ s.l1.filter (fun x => decide (x.core ≠ r.core)) }
  else s

/-- The access has 16 bytes of which each half performs by itself (R116). -/
def Req.splits (r : Req) : Bool := decide (r.z = 4) && (match r.kind with | .load => true | .store => true | _ => false)

/-- The request performs whole in its next step: it does not split, or its first halves have performed. DESIGN CHOICE: the halves at the
lower addresses perform first. -/
def Req.last (r : Req) : Bool := !r.splits || r.half

/-- The part of an access that the next step performs. -/
def Req.piece (r : Req) (x : Access) : Access :=
  if r.splits then (if r.half then { x with off := x.off + 8, size := 8, data := x.data >>> 64 } else { x with size := 8 }) else x

/-- A request stays where it is with its first halves done. -/
def State.keepHalf (s : State) (k : Nat) (r : Req) : State :=
  if (mget s.home k).kind ≠ .none then { s with home := mset s.home k r } else { s with net := mset s.net k r }

/-- The values of a load with those of its next part. -/
def State.loadVals (s : State) (r : Req) : List (Nat × BitVec 128) :=
  let old := fun (t : Nat) => ((r.vals.find? (fun e => decide (e.1 = t))).map (·.2)).getD 0
  r.accs.map (fun x =>
    let v := s.accessValue r.pa (r.piece x)
    (x.thread, if r.splits && r.half then old x.thread ||| (v <<< 64) else v))

/-- Serve a load at its home (R96, R110, R116, R375). -/
def State.serveLoad (s : State) (k : Nat) (r : Req) : State :=
  if s.poisoned r.pa then s.respond k { r with fail := cDataError, vals := [] }
  else if r.last then (s.grantLease r).respond k { r with vals := s.loadVals r }
  else s.keepHalf k { r with vals := s.loadVals r, half := true }

/-- The tier pump's halving of a leaf's RE byte, as an atomic of the pump (R343); PHINT's byte atomic is an exchange (R244). -/
def halveAop : Nat := 15

/-- The new value of an atomic access (R233). -/
def atomicNew (kind : ReqKind) (m : Nat) (x : Access) : Nat :=
  match kind with
  | .atomic aop => if x.size = 1 then (if aop = halveAop then m / 2 else x.data.toNat % 256) else atomFn aop m x.data.toNat x.cmp.toNat
  | .atomicW aop => atomwFn aop m x.data.toNat x.cmp.toNat
  | _ => m

/-- One thread's atomic step: the memory, the old values and tags so far (R117, R235). -/
def atomicStep (kind : ReqKind) (line : Nat) (acc : State × List (Nat × BitVec 128) × List (Nat × Nat)) (x : Access) :
    State × List (Nat × BitVec 128) × List (Nat × Nat) :=
  let s := acc.1
  let m := s.rdNat (line + x.off) x.size
  let n := atomicNew kind m x
  let s1 := if n = m then s else (s.wrBytes (line + x.off) (leBytes x.size n)).bumpSeq line
  (s1, acc.2.1 ++ [(x.thread, BitVec.ofNat 128 m)], acc.2.2 ++ [(x.thread, (mget s1.seqs line).toNat)])

/-- The atomic accesses of a request in thread order (R113). -/
def State.atomicRun (s : State) (r : Req) : State × List (Nat × BitVec 128) × List (Nat × Nat) :=
  r.accs.foldl (atomicStep r.kind r.pa) (s, [], [])

/-- One thread's store: bytes, count and tag (R113, R117). -/
def storeStep (counts : Bool) (line : Nat) (acc : State × List (Nat × Nat)) (x : Access) : State × List (Nat × Nat) :=
  let s1 := acc.1.wrBytes (line + x.off) (leBytes x.size x.data.toNat)
  let s2 := if counts then s1.bumpSeq line else s1
  (s2, acc.2 ++ [(x.thread, (mget s2.seqs line).toNat)])

/-- The write at the head of its line's queue performs, or fails on a poisoned line (R95, R375). -/
def State.performWrite (s : State) (k : Nat) (r : Req) : State :=
  if s.poisoned r.pa then s.respond k { r with fail := cDataError }
  else match r.kind with
    | .store =>
      let x := (r.accs.map r.piece).foldl (storeStep r.last r.pa) (s, [])
      if r.last then x.1.respond k { r with tags := if r.tag then x.2 else [] } else x.1.keepHalf k { r with half := true }
    | _ =>
      let x := s.atomicRun r
      x.1.respond k { r with vals := x.2.1, tags := if r.tag then x.2.2 else [] }

/-- No thread of an atomic changes a byte of the line (R235). -/
def State.changesNothing (s : State) (r : Req) : Bool := decide ((s.atomicRun r).1.seqs = s.seqs)

/-- The write need not wait for the line's lease: it has expired, or no thread of the atomic changes a byte, or the line is poisoned (R95,
R235). -/
def State.writeFree (s : State) (r : Req) : Bool :=
  s.leaseFree r.pa || s.poisoned r.pa ||
    (match r.kind with
      | .atomic _ => s.changesNothing r
      | .atomicW _ => s.changesNothing r
      | _ => false)

/-- The requests that wait on a line and may be handled now, in order; at most `n` of them. The second halves of 16-byte accesses are a step of
their own (R116). -/
def State.drainLine (s : State) (line : Nat) : Nat → State
  | 0 => s
  | n + 1 =>
    match s.waitingAt line with
    | [] => s
    | (k, r) :: _ =>
      if r.kind = .hold then s
      else if r.kind = .load then (if r.last || s.poisoned line then (s.serveLoad k r).drainLine line n else s.serveLoad k r)
      else if s.writeFree r then
        (if r.last || s.poisoned line then (s.performWrite k r).drainLine line n else s.performWrite k r)
      else s

/-- LOAD_AT_HOME (R96): behind a waiting write of the same core or of the same crew (R113, R123), else served at once. -/
def execLoadAtHome (k : Nat) (s : State) : Host.Outcome State Fault Refusal :=
  let r := mget s.net k
  if r.kind = .load && s.arrives k r then
    let s1 := s.touchSlice r
    if (s.waitingAt r.pa).any (fun e => decide (e.2.dev = r.dev) && (decide (e.2.core = r.core) || decide (e.2.crew = r.crew)))
    then .next (s1.enqueue k r) else .next (s1.serveLoad k r)
  else if r.kind = .load && s.reaches k r then .next (s.wakeWay r)
  else .next s

/-- A write reaches its home: it joins the line's queue, which is handled as far as it may be (R95). -/
def State.writeArrives (s : State) (k : Nat) (r : Req) : State :=
  ((s.touchSlice r).enqueue k r).drainLine r.pa (s.home.length + 1)

/-- WRITE_AT_HOME (R95). -/
def execWriteAtHome (k : Nat) (s : State) : Host.Outcome State Fault Refusal :=
  let r := mget s.net k
  if r.kind = .store && s.arrives k r then .next (s.writeArrives k r)
  else if r.kind = .store && s.reaches k r then .next (s.wakeWay r) else .next s

/-- ATOMIC_AT_HOME (R235). -/
def execAtomicAtHome (k : Nat) (s : State) : Host.Outcome State Fault Refusal :=
  let r := mget s.net k
  let isAtomic := match r.kind with | .atomic _ => true | .atomicW _ => true | _ => false
  if isAtomic && s.arrives k r then .next (s.writeArrives k r)
  else if isAtomic && s.reaches k r then .next (s.wakeWay r) else .next s

/-- LEASE_EXPIRY (R95): the line with address k; waiting writes perform once LTIME has reached its expiry. -/
def execLeaseExpiry (k : Nat) (s : State) : Host.Outcome State Fault Refusal :=
  if s.leaseFree k then
    let s1 := { s with l1 := s.l1.filter (fun e => decide (e.line ≠ lineOf k) || decide (s.ltime < e.expiry))
                       lease := mset s.lease (lineOf k) 0 }
    .next (s1.drainLine (lineOf k) s1.home.length)
  else .next s

/-! Replies. -/

/-- Register n of a class: the destination of a loaded half or of an old value. -/
def replyReg (x j : Nat) : Opnd := Opnd.ofCode (x + j)

/-- The threads of a reply's values. -/
def replyMask (l : List (Nat × BitVec 128)) : Word := maskOf (fun t => l.any (fun e => decide (e.1 = t)))
/-- A thread's value. -/
def replyVal (l : List (Nat × BitVec 128)) (t : Nat) : BitVec 128 := ((l.find? (fun e => decide (e.1 = t))).map (·.2)).getD 0
/-- Threads with a tag. -/
def tagMask (l : List (Nat × Nat)) : Word := maskOf (fun t => l.any (fun e => decide (e.1 = t)))
/-- A thread's tag. -/
def tagVal (l : List (Nat × Nat)) (t : Nat) : Word := BitVec.ofNat 32 (((l.find? (fun e => decide (e.1 = t))).map (·.2)).getD 0)

/-- Write the values of a reply (R227, R233). -/
def Strand.writeReply (st : Strand) (r : Req) : Strand :=
  st.writeLoaded (replyReg r.x 0) r.z (replyMask r.vals) (replyVal r.vals)

/-- Merge the failure of a reply: every failing thread, the cause and address of the lowest (R300). -/
def MemOp.fails (m : MemOp) (r : Req) : MemOp :=
  if r.fail = 0 then m
  else
    let mask := maskOf (fun t => r.accs.any (fun x => decide (x.thread = t)))
    let first := r.accs.headD default
    if lowThread mask < lowThread m.faults
    then { m with faults := m.faults ||| mask, cause := r.fail, tval := first.va }
    else { m with faults := m.faults ||| mask }

/-- A load or atomic has had its last reply: it retires, or takes its partial fault (R231, R232). -/
def Strand.replied (st : Strand) : Strand :=
  let m := st.mem
  let st1 := { st with mem := default, wait := .ready }
  if m.faults = 0 then st1.seq else { st1 with pending := some (dataTrap st m.cause m.tval m.faults) }

/-- A reply reaches the strand: its registers, and the end of the instruction with the last (R232). -/
def State.deliverReply (s : State) (k : Nat) (r : Req) : State :=
  let s1 := { s with back := mset s.back k default }
  let st := s.strand r.crew r.strand
  if r.dropped || !st.mem.live then s1
  else
    let st1 := (st.writeReply r).writeReg (.o 7) (tagMask r.tags) (tagVal r.tags)
    let st2 := { st1 with mem := { st.mem.fails r with left := st.mem.left - 1 } }
    s1.setStrand r.crew r.strand (if st2.mem.left = 0 then st2.replied else st2)

/-- The lines that L1 has answered reach their strands at their time, four issue periods after the load (R232). -/
def State.l1Replies (s : State) : State :=
  s.back.foldl (fun s e =>
    if decide (e.2.kind = .load) && decide (e.2.readyAt ≠ 0) && decide (e.2.readyAt ≤ s.time) then s.deliverReply e.1 e.2 else s) s

/-- LOAD_REPLY (R232): the reply with number k, from a home or, with its own time, from L1. -/
def execLoadReply (k : Nat) (s : State) : Host.Outcome State Fault Refusal :=
  let r := mget s.back k
  let mine := match r.kind with | .load => true | .atomic _ => true | .atomicW _ => true | _ => false
  if !mine || decide (s.time < r.readyAt) then .next s
  else if r.readyAt ≠ 0 then .next (s.deliverReply k r)
  else if s.replyHeld r then .next (s.wakeRouter (chipOf r.core))
  else .next ((s.useRouter (chipOf r.core)).deliverReply k r)

/-! Acknowledgements. -/

/-- The launch of a crew. -/
def State.launchIdOf (s : State) (u : Nat) : Nat := (s.crew u).launch

/-- A failing acknowledgement of n accesses: one record, with the address of its lowest thread, and the other accesses count as acknowledged
(R304). -/
def State.failRecord (s : State) (r : Req) (n : Nat) : State :=
  (s.ackOne r.crew r.strand r.core (n - 1)).addFailure r.crew r.strand r.core (s.launchIdOf r.crew) r.pc (r.accs.headD default).va r.fail r.z

/-- The acknowledgement of stores and exchange stores: the tags, then the count falls, or the failure makes its record (R117, R127, R299, R304). DESIGN
CHOICE: O7 of a thread whose tagged access failed stays as it was; the spec gives it no value. -/
def State.ackStore (s : State) (r : Req) : State :=
  let st := s.strand r.crew r.strand
  let st1 := { st.writeReg (.o 7) (tagMask r.tags) (tagVal r.tags) with
    tagWait := if r.tag then
        st.tagWait &&& ~~~(maskOf (fun t => r.accs.any (fun x => decide (x.thread = t)))) else st.tagWait }
  let s1 := s.setStrand r.crew r.strand st1
  if r.fail = 0 then s1.ackOne r.crew r.strand r.core r.accs.length else s1.failRecord r r.accs.length

/-- The copies of an MST. -/
def State.copiesOf (s : State) (m : FMap Req) (mst : Nat) : List (Nat × Req) := m.filter (fun e => decide (e.2.mst = mst) && decide (e.2.dev = s.dev))

/-- Every copy of an MST has been acknowledged at the source switch. -/
def State.mstWhole (s : State) (mst : Nat) : Bool :=
  (s.copiesOf s.net mst).isEmpty && (s.copiesOf s.home mst).isEmpty && (s.copiesOf s.back mst).all (fun e => e.2.noted)

/-- The combined acknowledgement of an MST: one record for each member that failed (R243, R299, R359). -/
def State.ackMst (s : State) (r : Req) : State :=
  let l := s.copiesOf s.back r.mst
  let bad := ((l.filter (fun e => decide (e.2.fail ≠ 0))).map (fun e => devOf e.2.pa)).eraseDups
  let s1 := { s with back := s.back.filter (fun e => !(decide (e.2.mst = r.mst) && decide (e.2.dev = s.dev))) }
  bad.foldl (fun s m => match l.find? (fun e => decide (devOf e.2.pa = m) && decide (e.2.fail ≠ 0)) with
      | some e => s.failRecord e.2 1
      | none => s)
    (s1.ackOne r.crew r.strand r.core (reqCount (l.map (·.2)) - bad.length))

/-- Outcomes of a put (R241): admitted, refused first, refused, duplicate; from 16 on, 16 + a cause. -/
def putAdmitted : Nat := 0
def putRefusedFirst : Nat := 1
def putRefused : Nat := 2
def putDuplicate : Nat := 3

/-- A refusal record (R242). -/
def refusalBytes (dva token core dev : Nat) : List Byte := leBytes 8 dva ++ leBytes 4 token ++ leBytes 2 core ++ leBytes 2 dev

/-- What the append of a refusal record gives. -/
inductive RefRes where
  | ok (s : State)
  | fault (cause : Nat) (va : Nat)
  | busy

/-- One write of the refusal queue. -/
def State.rqWrite (s : State) (core part space va : Nat) (l : List Byte) : RefRes :=
  match s.wrVirt core part space va l with
  | .ok s1 => .ok s1
  | .fault c o => .fault c (va + o)
  | .busy => .busy

/-- Append a refusal record to the queue at `rq`, or count it as lost (R242). -/
def State.refuse (s : State) (core part space rq dva token : Nat) : RefRes :=
  if rq = 0 then .ok s
  else match s.rdVirt core part space rq 64 with
    | .fault c o => .fault c (rq + o)
    | .busy => .busy
    | .ok h =>
      let f := fun (o : Nat) => leNat ((h.drop o).take 4)
      let put := f 0
      let qcap := f 4
      if decide (qcap = 0) || decide (2 ^ 20 < qcap) || decide (leNat (h.drop 16) ≠ 0) then .fault cRqhead dva
      else if (put + 2 ^ 32 - f 12) % 2 ^ 32 < qcap then
        match s.rqWrite core part space (rq + 64 + 16 * (put % qcap)) (refusalBytes dva token core s.dev) with
        | .ok s1 => s1.rqWrite core part space rq (leBytes 4 (put + 1))
        | x => x
      else s.rqWrite core part space (rq + 8) (leBytes 4 (f 8 + 1))

/-- Acknowledge the puts of a packet one by one; a refusal record that cannot be written yet stops it (R242). The request's `x` names
the launch. -/
def State.ackPuts (s : State) (k : Nat) (r : Req) : List (Nat × BitVec 128) → State
  | [] => { s with back := mset s.back k default }
  | e :: rest =>
    let out := nbits e.2.toNat 0 8
    let token := nbits e.2.toNat 8 20
    let dva := (r.accs.headD default).va
    let one := fun (s : State) => if r.dropped then s else s.ackOne r.crew r.strand r.core 1
    let record := fun (s : State) (c va : Nat) => if r.dropped then s
      else s.addFailure r.crew r.strand r.core r.x r.pc (BitVec.ofNat 64 va) c r.z
    if out = putRefusedFirst then
      match s.refuse r.core r.part r.space (s.launchOf r.x).record.rq.toNat dva.toNat token with
      | .busy => { s with back := mset s.back k { r with vals := e :: rest } }
      | .ok s1 => (one s1).ackPuts k r rest
      | .fault c va => (record s c va).ackPuts k r rest
    else if 16 ≤ out then (record s (out - 16) dva.toNat).ackPuts k r rest
    else (one s).ackPuts k r rest

/-- A write's acknowledgement returns: its path counter falls; held ordered flags, and writes that wait for a counter, may
leave (R356). -/
def State.pathAck (s : State) (r : Req) : State :=
  if devOf r.pa = s.dev then s else (s.pathCount r.pathKey (· - 1)).flagsLeave.portRetry

/-- ACKNOWLEDGEMENT (R127): the acknowledgement with number k. -/
def execAcknowledgement (k : Nat) (s : State) : Host.Outcome State Fault Refusal :=
  let r := mget s.back k
  if decide (r.kind = .none) then .next s
  else if s.replyHeld r then .next (s.wakeRouter (chipOf r.core))
  else
  let s0 := s.useRouter (chipOf r.core)
  match r.kind with
  | .store =>
    if r.mst = 0 || r.dropped then
      let s1 := ({ s0 with back := mset s0.back k default } : State)
      let s2 := if r.noted then s1 else s1.pathAck r
      .next (if r.dropped then s2 else s2.ackStore r)
    else
      let s1 := if r.noted then s0 else ({ s0 with back := mset s0.back k { r with noted := true } } : State).pathAck r
      .next (if s1.mstWhole r.mst then s1.ackMst r else s1)
  | .stx _ =>
    let s1 := { s0 with back := mset s0.back k default }
    if r.dropped then .next s1 else .next (s1.ackStore r)
  | .put _ =>
    let s1 := (if r.hint = 2 then s0 else s0.pathAck r)
    .next (s1.ackPuts k { r with hint := 2 } r.vals)
  | _ => .next s

/-! Puts at the descriptor. -/

/-- The software fields of an expert-buffer descriptor (R240). -/
structure PutDesc where
  base : Nat
  map : Nat
  cap : Nat
  ntok : Nat
  row : Nat
  weir : Nat
  part : Nat
  space : Nat
  count : Nat
  refused : Nat
  dups : Nat
  group : Nat
  deriving DecidableEq, Repr

/-- A descriptor read from its 64 bytes; none when a field breaks its limits (R240). -/
def putDesc (b : List Byte) : Option PutDesc :=
  let f := fun (o n : Nat) => leNat ((b.drop o).take n)
  let d : PutDesc := { base := f 0 8, map := f 8 8, cap := f 16 4, ntok := f 20 4, row := f 24 2, weir := f 26 2, part := f 28 1
                       space := f 29 1, count := f 32 4, refused := f 36 4, dups := f 40 4, group := f 44 4 }
  if d.base % 16 = 0 && decide (d.map % 4 = 0) && decide (d.cap ≤ 2 ^ 24) && decide (d.ntok ≤ 2 ^ 20) && decide (d.row % 16 = 0)
    && decide (16 ≤ d.row) && decide (d.row ≤ 4096) && decide (d.part < 8) && decide (d.space < 16) && decide (f 30 2 = 0)
    && decide (d.count ≤ d.cap) && decide (d.group < 2 ^ 24) && decide (f 48 16 = 0)
  then some d else none

/-- What one step of a put gives: its outcome; a claim, with the row that it has been given; lines that it must wait for. -/
inductive PutRes where
  | done (s : State) (out : Nat)
  | claimed (s : State) (row : Nat)
  | wait (lines : List Nat)
  /-- Lines whose pseudo-channels are asleep (R378). -/
  | asleep (lines : List Nat)
  /-- Virtual ranges of an address space that the domain's shared TLB lacks (R339). -/
  | walk (part space : Nat) (ranges : List (Nat × Nat))

/-- A store-fault outcome. -/
def putFault (s : State) (c : Nat) : PutRes := .done s (16 + c)

/-- One access of a put at its home slice (R95, R117, R241). -/
def State.putWrite (s : State) (pa : Nat) (l : List Byte) : State := (s.wrEngine pa l).useChannels (linesOf pa l.length)

/-- The row write of a put and its weir credit (R137, R241). -/
def State.putRow (s : State) (tok eng : Nat) (d : PutDesc) (row : Nat) (x : Access) : PutRes :=
  match s.engineXl eng d.part d.space (d.base + row * d.row + x.off) permW with
  | .ok pa =>
    if devOf pa ≠ s.dev then putFault s cPutdesc
    else if s.poisoned pa then putFault s cDataError
    else if s.mayWriteBy tok (linesOf pa x.size) && s.channelsReady (linesOf pa x.size) then
      let s1 := s.putWrite pa (leBytes x.size x.data.toNat)
      .done (if d.weir = 0 then s1 else s1.weirAdd (weirKey d.part d.group d.weir) 0 x.size) putAdmitted
    else .wait (linesOf pa x.size)
  | .fault c => putFault s c
  | _ => .wait []

/-- The virtual ranges that a put uses: its buffer, its map, its entry there, and its row when it has one. -/
def PutDesc.ranges (d : PutDesc) (r : Req) (x : Access) : List (Nat × Nat) :=
  [(d.base, 1), (d.map, 1), (d.map + 4 * x.cmp.toNat, 4)] ++ (if r.row = 0 then [] else [(d.base + (r.row - 1) * d.row + x.off, x.size)])

/-- One put at the device that holds the descriptor (R241); r.row says that it has claimed its row already. `counters` says that the
descriptor's page may be written. -/
def State.putStep (s : State) (tok : Nat) (r : Req) (once : Bool) (x : Access) : PutRes :=
  let token := x.cmp.toNat
  let counters := decide (r.hint = 1)
  let eng := domEngine (s.homeSlice r.pa / 256)
  if r.pa % 64 ≠ 0 then putFault s cPutdesc
  else if !s.channelsReady [r.pa] then .asleep [r.pa]
  else if s.poisoned r.pa then putFault s cDataError
  else match putDesc (s.rdBytes r.pa 64) with
    | none => putFault s cPutdesc
    | some d =>
      let own := fun (va : Nat) => match s.engineXl eng d.part d.space va 0 with
        | .ok pa => decide (devOf pa = s.dev)
        | .busy => true
        | _ => false
      let named := s.inView d.part r.dev && !(decide (r.dev = s.dev) && !(decide (d.part = r.part) && decide (d.space = r.space)))
        && decide (token < d.ntok) && decide (x.off + x.size ≤ d.row)
      if named && !(s.pagesMissed tok eng d.part d.space (d.ranges r x)).isEmpty then .walk d.part d.space (d.ranges r x)
      else if !s.inView d.part r.dev || (decide (r.dev = s.dev) && !(decide (d.part = r.part) && decide (d.space = r.space)))
        || !own d.base || !own d.map || decide (d.ntok ≤ token) || decide (d.row < x.off + x.size)
      then putFault s cPutdesc
      else if r.row ≠ 0 then s.putRow tok eng d (r.row - 1) x
      else match s.engineXl eng d.part d.space (d.map + 4 * token) (permR + permW) with
        | .fault c => putFault s c
        | .ok mpa =>
          if devOf mpa ≠ s.dev then putFault s cPutdesc
          else if !s.channelsReady [lineOf mpa] then .asleep [lineOf mpa]
          else if s.poisoned mpa then putFault s cDataError
          else
            let e := s.rdNat mpa 4
            let lines := lineOf r.pa :: linesOf mpa 4
            if e = 0xFFFFFFFF then
              if !counters then putFault s cProtection
              else if !s.mayWriteBy tok lines then .wait lines
              else if d.count < d.cap then
                .claimed ((s.putWrite (r.pa + 32) (leBytes 4 (d.count + 1))).putWrite mpa (leBytes 4 d.count)) d.count
              else
                .done ((s.putWrite mpa (leBytes 4 0xFFFFFFFE)).putWrite (r.pa + 36) (leBytes 4 (d.refused + 1))) putRefusedFirst
            else if e = 0xFFFFFFFE then .done s putRefused
            else if d.cap ≤ e then putFault s cPutdesc
            else if once then
              if !counters then putFault s cProtection
              else if s.mayWriteBy tok [lineOf r.pa] then .done (s.putWrite (r.pa + 40) (leBytes 4 (d.dups + 1))) putDuplicate
              else .wait [lineOf r.pa]
            else .claimed s e
        | _ => .wait []

/-- The puts of a packet in thread order, a claim and its row write apart; the packet stops at one that must wait, which takes its place at
the homes of its lines (R95, R113, R241). `n` bounds the steps: two for each put. -/
def State.putRun (s : State) (k : Nat) (r : Req) (once : Bool) : Nat → State
  | 0 => { s with net := mset s.net k r }
  | n + 1 =>
    let tok := putToken_ k
    match r.accs.drop r.vals.length with
    | [] => s.respond k r
    | x :: _ =>
      match s.putStep tok r once x with
      | .done s1 out =>
        ((s1.unqueue tok (fun _ => true)).walksDone tok).putRun k
          { r with vals := r.vals ++ [(x.thread, BitVec.ofNat 128 (out + 256 * x.cmp.toNat))], row := 0 } once n
      | .claimed s1 row => (s1.unqueue tok (fun _ => true)).putRun k { r with row := row + 1 } once n
      | .wait lines => (({ s with net := mset s.net k r } : State).queueWrite tok r.core r.dev lines).wakeChannels lines
      | .asleep lines => ({ s with net := mset s.net k r } : State).wakeChannels lines
      | .walk part space ranges =>
        ({ s with net := mset s.net k r } : State).withWalks tok (domEngine (s.homeSlice r.pa / 256)) part space ranges id

/-- An earlier store, atomic or put of the crew that this put may meet on its row has not arrived (R113, R123). -/
def State.putBehind (s : State) (k : Nat) (r : Req) : Bool :=
  s.net.any (fun e => decide (e.1 < k) && decide (e.2.dev = r.dev) && decide (e.2.crew = r.crew) && decide (devOf e.2.pa = s.dev)
    && (match e.2.kind with
      | .put _ => true
      | .load => false
      | _ => e.2.kind.atHome))

/-- PUT_AT_DESCRIPTOR (R241): the packet with number k. Requests that left its core's port earlier for the descriptor's slice, earlier writes and
puts of its crew, go first (R112, R113). -/
def execPutAtDescriptor (k : Nat) (s : State) : Host.Outcome State Fault Refusal :=
  let r := mget s.net k
  match r.kind with
  | .put once =>
    if decide (devOf r.pa = s.dev) && r.left && (decide (r.stamp ≠ 0) || (!s.behind k r && !s.bridgeHolds r)) && !s.putBehind k r
    then
      (if decide (r.stamp ≠ 0) || (s.routerReady (s.routerPort r) && s.channelsReady [r.pa])
       then .next ((s.touchSlice r).putRun k { r with stamp := k + 1 } once (2 * r.accs.length + 1)) else .next (s.wakeWay r))
    else .next s
  | _ => .next s

/-! Exchange stores at the target. -/

/-- The crew of rank `k` of a launch (R320). -/
def State.crewOfRank (s : State) (l k : Nat) : Option Nat :=
  let g := (s.launchOf l).record.gridSize
  (s.crews.find? (fun e => decide (e.2.launch = l) && decide (l ≠ 0) && decide (e.2.stage * g + e.2.index = k))).map (·.1)

/-- Write the bytes of an exchange store into the shadow bank and count them (R102, R132). -/
def Crew.stxWrite (c : Crew) (x : Access) : Crew :=
  let l := leBytes x.size x.data.toNat
  { c with abuf := (List.zip (List.range l.length) l).foldl (fun m e => mset m (c.shadowIndex (x.off + e.1)) (some e.2)) c.abuf
           cx := c.cx + x.size }

/-- A crew of a live launch that has never been placed: an exchange launch is bound whole, so it comes (R101, R327). -/
def State.rankComes (s : State) (l k : Nat) : Bool :=
  let x := s.launchOf l
  let g := x.record.gridSize
  decide (x.state = 1) && !x.cut && !x.restarts.contains (k / g, k % g)
  && decide (mget x.supplied (16 * (k % g / 64) + k / g) ≤ k % g % 64)

/-- STX_AT_TARGET (R102): a store to a lost crew is discarded and acknowledged, one to a crew that has still to be placed waits. DESIGN CHOICE: one to
a crew that has retired is discarded and acknowledged too, with no record; the spec is silent. An earlier store of the strand to the same target goes
first (R113). -/
def execStxAtTarget (k : Nat) (s : State) : Host.Outcome State Fault Refusal :=
  let r := mget s.net k
  match r.kind with
  | .stx rank =>
    if s.bridgeDown && decide (domOf r.core ≠ domOf (s.crew ((s.crewOfRank r.x rank).getD 0)).core) then .next s
    else if s.net.any (fun e => decide (e.1 < k) && decide (e.2.crew = r.crew) && decide (e.2.strand = r.strand) && decide (e.2.kind = .stx rank))
    then .next s
    else match s.crewOfRank r.x rank with
      | some u => .next ((s.setCrew u (r.accs.foldl Crew.stxWrite (s.crew u))).respond k r)
      | none => if s.rankComes r.x rank then .next s else .next (s.respond k r)
  | _ => .next s

end Sys2Proof.Machine
end

