-- ==== Sys2Proof/Machine/Complete.lean ====
section
/-! DEFINITION. What the engines do after issue: copies (R257..R260), MMA (R79..R82, R265), ACOMMIT (R21, R83, R107, R270, R375),
ALOAD (R271), and the ends of TLD, TST and ARFOLD (R262, R268). -/

namespace Sys2Proof.Machine

/-- The operation number in a handle (R248). -/
def handleSeq (h : Nat) : Nat := h % 2 ^ 48

/-- Unresolved operations issued before one in its context, by their numbers there (R133, R247). -/
def State.earlierOps (s : State) (h : Nat) : List (Nat × Op) :=
  s.ops.filter (fun e => decide (e.1 / 2 ^ 48 = h / 2 ^ 48) && decide (e.2.number < (mget s.ops h).number))

/-- Resolve with a status, a cause and a detail (R249); the operation keeps no place at a home. -/
def State.endOp (s : State) (h status cause detail : Nat) : State :=
  (s.unqueue (opToken h) (fun _ => true)).resolveOp (BitVec.ofNat 64 h) (mkResult status cause detail)

/-! Copies. -/

/-- What a copy does: function, rows and their places (R257, R258). -/
structure CopyShape where
  fn : Nat
  addr : Nat
  aux : Nat
  rows : Nat
  rowb : Nat
  gstride : Int
  lstride : Int
  /-- AB offset or record index. -/
  loc : Nat
  deriving DecidableEq, Repr

/-- Bytes, weir and SHAPE of S[c] (R257). -/
def copyBytes (c : Word64) : Nat := nbits c.toNat 0 32
/-- SHAPE. -/
def copyShaped (c : Word64) : Bool := nbit c.toNat 48

/-- The AB offset or the record index in S[b]. -/
def copyLoc (fn : Nat) (b : Word64) : Nat := if fn = 2 ∨ fn = 5 then nbits b.toNat 0 32 else nbits b.toNat 0 21

/-- The shape of a flat copy. -/
def flatShape (fn : Nat) (op : Op) : CopyShape :=
  { fn := fn, addr := op.a.toNat, aux := op.b.toNat, rows := 1, rowb := copyBytes op.c, gstride := 0, lstride := 0, loc := copyLoc fn op.b }

/-- The shape that a record gives (R258). -/
def recordShape (fn : Nat) (op : Op) (b : List Byte) : CopyShape :=
  let f := fun (o n : Nat) => leNat ((b.drop o).take n)
  { fn := fn, addr := f 0 8, aux := f 8 8, rows := f 16 4, rowb := f 20 4, gstride := sint 32 (f 24 4), lstride := sint 32 (f 28 4)
    loc := copyLoc fn op.b }

/-- The shape of a copy that has started. -/
def Op.copyShape (op : Op) (fn : Nat) : CopyShape := if copyShaped op.c then recordShape fn op op.shape else flatShape fn op

/-- A function that needs a shape record. -/
def needsShape (fn : Nat) : Bool := fn == 2 || fn == 4 || fn == 5
/-- The copy's data goes to or comes from the AB. -/
def usesAb (fn : Nat) : Bool := fn == 0 || fn == 1 || fn == 4

/-- The first and the last AB offset of a row lie in the view (R97, R259); a copy of no bytes has none. -/
def CopyShape.inAb (x : CopyShape) (view : Nat) : Bool :=
  let row := fun (r : Nat) => (x.loc : Int) + r * x.lstride
  let ok := fun (o : Int) => decide (0 ≤ o) && decide (o + x.rowb ≤ view)
  decide (x.rowb = 0) || (ok (row 0) && ok (row (x.rows - 1)))

/-- Records of a block of 16 rows: 1 narrow, 2 wide (R104). -/
def CopyShape.wide (x : CopyShape) : Nat := if x.rowb = 512 then 2 else 1

/-- The rules of R259 that the shape breaks. -/
def CopyShape.bad (x : CopyShape) (shaped : Bool) (bytes view claim : Nat) : Bool :=
  (shaped && (decide (bytes ≠ x.rows * x.rowb) || decide (x.rows = 0) || decide (2 ^ 20 < x.rows) || decide (x.rowb < 4)
      || decide (2 ^ 20 < x.rowb) || decide (x.rowb % 4 ≠ 0) || decide (x.gstride % 4 ≠ 0) || decide (x.lstride % 4 ≠ 0)))
  || decide (x.addr % 4 ≠ 0)
  || ((decide (x.fn = 3) || shaped) && !usesAb x.fn && decide (x.aux % 4 ≠ 0)) || (decide (x.fn = 4) && decide (x.aux % 4 ≠ 0))
  || (usesAb x.fn && (decide (x.loc % 4 ≠ 0) || !x.inAb view))
  || ((decide (x.fn = 2) || decide (x.fn = 5)) && (decide (x.rowb ≠ 256) && decide (x.rowb ≠ 512) || decide (x.rows % 16 ≠ 0)
      || decide (claim < x.loc + x.rows / 16 * x.wide)))

/-- The bad bits of S[c] and S[a] that need no record (R259). -/
def copyWordBad (fn : Nat) (op : Op) : Bool :=
  decide (nbits op.c.toNat 49 15 ≠ 0) || (needsShape fn && !copyShaped op.c) || (copyShaped op.c && decide (op.a.toNat % 8 ≠ 0))

/-- The weir that a copy credits is absent (R259). -/
def State.copyWeirBad (s : State) (op : Op) : Bool :=
  let w := copyWeir op.c
  decide (w ≠ 0) && decide ((mget s.weirs (weirKey op.part (s.launchOf op.launchId).group w)).state = 0)

/-- Pieces that a row is cut into at most, one for each line it can touch. -/
def CopyShape.pieces (x : CopyShape) : Nat := x.rowb / 128 + 2

/-- An address modulo 2^64. -/
def addr64 (a : Int) : Nat := wrapN 64 a

/-- Address of row r at the ADDR end. -/
def CopyShape.rowAddr (x : CopyShape) (r : Nat) : Nat := addr64 ((x.addr : Int) + r * x.gstride)
/-- Address of row r at the AUX end. -/
def CopyShape.auxAddr (x : CopyShape) (r : Nat) : Nat := addr64 ((x.aux : Int) + r * x.lstride)
/-- AB offset of row r. -/
def CopyShape.abOffset (x : CopyShape) (r : Nat) : Nat := ((x.loc : Int) + r * x.lstride).toNat

/-- Where row r is written, as an address that decides its lines. -/
def CopyShape.dest (x : CopyShape) (r : Nat) : Nat :=
  match x.fn with
  | 1 => x.rowAddr r
  | 3 => x.auxAddr r
  | 5 => if r < x.rows then x.rowAddr r else x.auxAddr (r - x.rows)
  | _ => x.abOffset r

/-- Bytes of row r; the scale rows of C2G follow the weight rows. -/
def CopyShape.rowLen (x : CopyShape) (r : Nat) : Nat := if x.fn = 5 ∧ x.rows ≤ r then 256 else x.rowb

/-- Rows that are written. -/
def CopyShape.allRows (x : CopyShape) : Nat := if x.fn = 5 ∧ x.aux ≠ 0 then x.rows + x.rows / 16 else x.rows

/-- Units of a copy: G2C writes the records of a block of rows, the others write one line of a row. -/
def CopyShape.units (x : CopyShape) : Nat := if x.fn = 2 then x.rows / 16 else x.allRows * x.pieces

/-- Row, offset and length of a unit; length 0 for none. -/
def CopyShape.unit (x : CopyShape) (u : Nat) : Nat × Nat × Nat :=
  if x.fn = 2 then (16 * u, 0, x.rowb)
  else
    let r := u / x.pieces
    let j := u % x.pieces
    let first := 128 - x.dest r % 128
    let lo := if j = 0 then 0 else first + 128 * (j - 1)
    let hi := min (first + 128 * j) (x.rowLen r)
    (r, lo, hi - lo)

/-- Where a unit lies in the bytes of the copy, its rows one after the other. -/
def CopyShape.offset (x : CopyShape) (u : Nat) : Nat :=
  let p := x.unit u
  if x.fn = 5 ∧ x.rows ≤ p.1 then x.rows * x.rowb + (p.1 - x.rows) * 256 + p.2.1 else p.1 * x.rowb + p.2.1

/-- The 4 KiB granule of a unit. -/
def CopyShape.granule (x : CopyShape) (u : Nat) : Nat := x.offset u / 4096

/-- A unit is done, or is none. -/
def Op.unitDone (op : Op) (x : CopyShape) (u : Nat) : Bool := mget op.units u || decide ((x.unit u).2.2 = 0)

/-- A granule of which something is done. -/
def Op.granuleBegun (op : Op) (x : CopyShape) (g : Nat) : Bool := op.units.any (fun e => decide (x.granule e.1 = g))

/-- The destination bytes of a TCPY contain an address (R260). -/
def CopyShape.hits (x : CopyShape) (a : Nat) : Bool :=
  (List.range x.rows).any (fun r => decide (x.auxAddr r ≤ a) && decide (a < x.auxAddr r + x.rowb))

/-- An earlier row of the copy writes the same destination byte. -/
def CopyShape.contested (x : CopyShape) (r a : Nat) : Bool :=
  (List.range r).any (fun q => decide (x.dest q ≤ a) && decide (a < x.dest q + x.rowLen q))

/-- Record of a claim on a core: index within the claim, column; one never written is free (R39, R331). -/
def State.cisternRec (s : State) (core : Nat) (cl : Claim) (i j : Nat) : BitVec 136 :=
  (mget (s.core core).cistern (256 * (cl.base + i) + j)).getD (Config.freeRecord (cl.seed * 2 ^ 21 + 256 * i + j))

/-- The claim of a launch on a core (R331). -/
def State.claimOf (s : State) (core l : Nat) : Claim := ((s.core core).claims.find? (fun c => decide (c.launch = l))).getD default

/-- Byte b of a record. -/
def recByte (r : BitVec 136) (b : Nat) : Nat := nbits r.toNat (8 * b) 8

/-- The record of 16 weight bytes and a scale (R74). -/
def planify (w : List Nat) (scale : Nat) : BitVec 136 :=
  let byte := fun (b : Nat) =>
    (((List.range 8).zip ((w.drop (8 * (b % 2))).take 8)).map (fun e => nbits e.2 (7 - b / 2) 1 * 2 ^ e.1)).sum
  BitVec.ofNat 136 (((List.range 16).map (fun b => byte b * 2 ^ (8 * b))).sum + scale % 256 * 2 ^ 128)

/-- Weight k of a record as its byte (R74). -/
def unplane (r : BitVec 136) (k : Nat) : Nat :=
  ((List.range 8).map (fun p => nbits (recByte r (2 * p + k / 8)) (k % 8) 1 * 2 ^ (7 - p))).sum

/-- Bytes of row k of a cistern copy, read from the records (R260). -/
def State.cisternRow (s : State) (x : CopyShape) (core : Nat) (cl : Claim) (k : Nat) : List Byte :=
  (List.range 256).flatMap (fun j =>
    let i := x.loc + k / 16 * x.wide
    let hi := unplane (s.cisternRec core cl i j) (k % 16)
    if x.wide = 2 then [BitVec.ofNat 8 (unplane (s.cisternRec core cl (i + 1) j) (k % 16)), BitVec.ofNat 8 hi]
    else [BitVec.ofNat 8 hi])

/-- The scale row of block kb. -/
def State.cisternScales (s : State) (x : CopyShape) (core : Nat) (cl : Claim) (kb : Nat) : List Byte :=
  (List.range 256).map (fun j => BitVec.ofNat 8 (recByte (s.cisternRec core cl (x.loc + kb * x.wide) j) 16))

/-- The records of a block from its 16 rows and its scales: one column at a time (R104, R260). -/
def blockRecords (x : CopyShape) (rows : List (List Byte)) (scales : List Byte) : List (Nat × Nat × BitVec 136) :=
  (List.range 256).flatMap (fun j =>
    let sc := (scales.getD j 0).toNat
    if x.wide = 2 then
      [(0, j, planify (rows.map (fun r => (r.getD (2 * j + 1) 0).toNat)) sc),
       (1, j, planify (rows.map (fun r => (r.getD (2 * j) 0).toNat)) sc)]
    else [(0, j, planify (rows.map (fun r => (r.getD j 0).toNat)) sc)])

/-- Read the rows of a block. -/
def State.readRows (s : State) (op : Op) (x : CopyShape) (kb : Nat) : RdRes × List (List Byte) :=
  (List.range 16).foldl (fun acc k =>
    match acc.1 with
    | .ok _ => match s.rdVirt op.core op.part op.space (x.rowAddr (16 * kb + k)) x.rowb with
      | .ok l => (.ok [], acc.2 ++ [l])
      | .fault c o => (.fault c (k * x.rowb + o), acc.2)
      | .busy => (.busy, acc.2)
    | _ => acc) (.ok [], [])

/-- The first n bytes of a unit's data, or why there are none yet. -/
def State.copyRead (s : State) (op : Op) (x : CopyShape) (u n : Nat) : RdRes :=
  let p := x.unit u
  let rd := fun (va : Nat) => s.rdVirt op.core op.part op.space va n
  let c := s.crew op.crew
  let cl := s.claimOf op.core op.launchId
  if op.orphan && (decide (x.fn = 1) || decide (x.fn = 5)) then .ok ((mget op.kept u).take n) else
  match x.fn with
  | 0 => rd (x.rowAddr p.1 + p.2.1)
  | 1 => .ok (c.abRead (x.abOffset p.1 + p.2.1) n)
  | 3 => rd (x.rowAddr p.1 + p.2.1)
  | 4 =>
    match s.rdVirt op.core op.part op.space (x.aux + 4 * p.1) 4 with
    | .ok l =>
      let i := leNat l
      if i = 0xFFFFFFFF then .ok (List.replicate n 0) else rd (addr64 ((x.addr : Int) + i * x.gstride) + p.2.1)
    | .fault c _ => .fault c 0
    | .busy => .busy
  | _ =>
    if p.1 < x.rows then .ok (((s.cisternRow x op.core cl p.1).drop p.2.1).take n)
    else .ok (((s.cisternScales x op.core cl (p.1 - x.rows)).drop p.2.1).take n)

/-- The bytes that a unit writes: free where the source of a TCPY byte is a destination byte, and, where an earlier row writes the
same byte, one of the two at the machine's choice (R260, R10). -/
def State.copyBytesAt (s : State) (op : Op) (x : CopyShape) (u : Nat) (l : List Byte) : List (Nat × Byte) :=
  let p := x.unit u
  ((List.range l.length).zip l).filterMap (fun e =>
    let src := x.rowAddr p.1 + p.2.1 + e.1
    let dst := x.dest p.1 + p.2.1 + e.1
    let n := s.freeAt op.part * 128 + e.1
    if x.contested p.1 dst && decide ((Config.freeByte (2 * n)).toNat < 128) then none
    else some (dst, if x.fn = 3 && x.hits src then Config.freeByte (2 * n + 1) else e.2))

/-- Consecutive bytes as runs. -/
def runsOf (l : List (Nat × Byte)) : List (Nat × List Byte) :=
  l.foldr (fun e acc => match acc with
    | (a, b) :: r => if e.1 + 1 = a then (e.1, e.2 :: b) :: r else (e.1, [e.2]) :: (a, b) :: r
    | [] => [(e.1, [e.2])]) []

/-- A unit of the copy that is done has written the line of an address: the operation counts once for each line (R117). -/
def Op.wroteLine (op : Op) (x : CopyShape) (a : Nat) : Bool :=
  op.units.any (fun e => e.2 && decide (lineOf (x.dest (x.unit e.1).1 + (x.unit e.1).2.1) = lineOf a))

/-- Write the data of a unit; a fault's offset is that within the unit. -/
def State.copyWrite (s : State) (h : Nat) (op : Op) (x : CopyShape) (u : Nat) (l : List Byte) : WrRes :=
  let runs := runsOf (s.copyBytesAt op x u l)
  let dst := x.dest (x.unit u).1 + (x.unit u).2.1
  if x.fn = 0 ∨ x.fn = 4 then
    .ok (runs.foldl (fun s r => s.setCrew op.crew ((s.crew op.crew).abWrite r.1 r.2)) s)
  else
    ((List.range runs.length).zip runs).foldl (fun w r => match w with
      | .ok s1 => match s1.wrVirtBy (opToken h) (decide (r.1 = 0) && !op.wroteLine x dst) op.core op.part op.space r.2.1 r.2.2 with
        | .fault c o => .fault c (r.2.1 - dst + o)
        | y => y
      | y => y) (.ok s)

/-- The cistern of a core is in use (R378). -/
def Core.useCistern (c : Core) (clock : Nat) : Core := { c with cistUsed := clock, cistAsleep := false }

/-- Write the records of block kb: every record whole (R105). -/
def State.writeBlock (s : State) (op : Op) (x : CopyShape) (kb : Nat) (rows : List (List Byte)) (scales : List Byte) : State :=
  let core := s.core op.core
  let base := (s.claimOf op.core op.launchId).base + x.loc + kb * x.wide
  let m := (blockRecords x rows scales).foldl (fun m e => mset m (256 * (base + e.1) + e.2.1) (some e.2.2)) core.cistern
  s.setCore op.core ({ core with cistern := m }.useCistern s.clock)

/-- The lines of global memory that a unit reads or writes. -/
def State.copyLines (s : State) (op : Op) (x : CopyShape) (u : Nat) : List Nat :=
  let p := x.unit u
  let rd := fun (va n : Nat) => s.virtLines op.core op.part op.space va n permR
  let wr := fun (va n : Nat) => s.virtLines op.core op.part op.space va n permW
  match x.fn with
  | 0 => rd (x.rowAddr p.1 + p.2.1) p.2.2
  | 1 => wr (x.rowAddr p.1 + p.2.1) p.2.2
  | 2 => (List.range 16).flatMap (fun k => rd (x.rowAddr (16 * u + k)) x.rowb) ++ (if x.aux = 0 then [] else rd (x.auxAddr u) 256)
  | 3 => rd (x.rowAddr p.1 + p.2.1) p.2.2 ++ wr (x.auxAddr p.1 + p.2.1) p.2.2
  | 4 =>
    rd (x.aux + 4 * p.1) 4 ++ (match s.rdVirt op.core op.part op.space (x.aux + 4 * p.1) 4 with
      | .ok l => if leNat l = 0xFFFFFFFF then [] else rd (addr64 ((x.addr : Int) + leNat l * x.gstride) + p.2.1) p.2.2
      | _ => [])
  | _ => wr (x.dest p.1 + p.2.1) p.2.2

/-- The virtual ranges that a unit reads and writes. -/
def State.copyRanges (s : State) (op : Op) (x : CopyShape) (u : Nat) : List (Nat × Nat) :=
  let p := x.unit u
  let dest := (x.dest p.1 + p.2.1, p.2.2)
  match x.fn with
  | 0 => [(x.rowAddr p.1 + p.2.1, p.2.2)]
  | 2 => (List.range 16).map (fun k => (x.rowAddr (p.1 + k), x.rowb)) ++ (if x.aux = 0 then [] else [(x.auxAddr u, 256)])
  | 3 => [(x.rowAddr p.1 + p.2.1, p.2.2), dest]
  | 4 =>
    (x.aux + 4 * p.1, 4) :: (match s.rdVirt op.core op.part op.space (x.aux + 4 * p.1) 4 with
      | .ok l => if leNat l = 0xFFFFFFFF then [] else [(addr64 ((x.addr : Int) + leNat l * x.gstride) + p.2.1, p.2.2)]
      | _ => [])
  | _ => [dest]

/-- A line of the other domain waits for the bridge (R370). -/
def State.bridgeStops (s : State) (dom : Nat) (lines : List Nat) : Bool :=
  s.bridgeDown && lines.any (fun l => decide (devOf l = s.dev) && decide (s.homeSlice l / 256 ≠ dom))

/-- The way of an engine of a core to some lines is open: the router port of its chiplet, the bridge, the lines' pseudo-channels (R370, R378). -/
def State.wayOpen (s : State) (core : Nat) (lines : List Nat) : Bool :=
  s.routerReady (chipOf core) && !s.bridgeStops (domOf core) lines && s.channelsReady lines

/-- What is asleep on it wakes. -/
def State.wakeLines (s : State) (core : Nat) (lines : List Nat) : State := (s.wakeRouter (chipOf core)).wakeChannels lines

/-- It has been used. -/
def State.useLines (s : State) (core : Nat) (lines : List Nat) : State := (s.useRouter (chipOf core)).useChannels lines

/-- What a unit needs is awake: the way to its lines and, for G2C and C2G, the cistern of its core (R378). -/
def State.copyAwake (s : State) (op : Op) (x : CopyShape) (u : Nat) : Bool :=
  s.wayOpen op.core (s.copyLines op x u)
  && (!(decide (x.fn = 2) || decide (x.fn = 5)) || (!(s.core op.core).cistAsleep && decide ((s.core op.core).cistUsed ≤ s.clock)))

/-- The cistern of a core leaves retention in 32 core cycles (R378). -/
def Core.wakeCistern (c : Core) (clock : Nat) : Core := if c.cistAsleep then { c with cistAsleep := false, cistUsed := clock + 32 } else c

/-- What a unit needs wakes. -/
def State.copyWake (s : State) (op : Op) (x : CopyShape) (u : Nat) : State :=
  let s1 := s.wakeLines op.core (s.copyLines op x u)
  if x.fn = 2 ∨ x.fn = 5 then s1.setCore op.core ((s1.core op.core).wakeCistern s1.clock) else s1

/-- What a unit gives: done, a failure, or nothing yet. -/
def State.copyUnit (s : State) (h : Nat) (op : Op) (x : CopyShape) (u : Nat) : WrRes :=
  if x.fn = 2 then
    match s.readRows op x u with
    | (.ok _, rows) =>
      if x.aux = 0 then .ok (s.writeBlock op x u rows (List.replicate 256 0x7F))
      else match s.rdVirt op.core op.part op.space (x.auxAddr u) 256 with
        | .ok sc => .ok (s.writeBlock op x u rows sc)
        | .fault c _ => .fault c 0
        | .busy => .busy
    | (.fault c o, _) => .fault c o
    | (.busy, _) => .busy
  else
    match s.copyRead op x u (x.unit u).2.2 with
    | .ok l => match s.copyWrite h op x u l with
      | .ok s1 => .ok (if x.fn = 5 then s1.setCore op.core ((s1.core op.core).useCistern s1.clock) else s1)
      | r => r
    | .fault c o => .fault c o
    | .busy => .busy

/-- A unit fails at an offset: the bytes that lie in the granule before the failing one are written (R259). -/
def State.copyPart (s : State) (h : Nat) (op : Op) (x : CopyShape) (u o : Nat) : State :=
  let n := 4096 - x.offset u % 4096
  if x.fn = 2 ∨ o < n then s
  else match s.copyRead op x u n with
    | .ok l => match s.copyWrite h op x u l with
      | .ok s1 => s1
      | _ => s
    | _ => s

/-- Base cycles of the buffer that strands, TLD and TST have taken in the present period, of its 8. -/
def State.abBusy (s : State) (core : Nat) : Nat := min 8 (max (s.core core).abFree (s.core core).tileFree - s.clock)

/-- A copy can move n bytes through the buffer now: in the cycles that the strands of the period have left, at least one in 8, 256 bytes in each
(R100). -/
def State.abRoom (s : State) (core n : Nat) : Bool :=
  s.issueQ.isEmpty && decide ((s.core core).abCopied + n ≤ 256 * max 1 (8 - s.abBusy core))

/-- A copy has moved n bytes through the buffer; the cycle that it takes from a full period delays what runs there (R100). -/
def State.useAbCopy (s : State) (core n : Nat) : State :=
  let c := s.core core
  let c1 := { c with abCopied := c.abCopied + n }
  if s.abBusy core < 8 || decide (c.abCopied ≠ 0) then s.setCore core c1
  else
    let late := fun (m : FMap TileUse) => m.map (fun e => (e.1, if 2 * s.clock < e.2.due then { e.2 with due := e.2.due + 2 } else e.2))
    let crews := s.crews.map (fun e =>
      if e.2.resident && decide (e.2.core = core) then (e.1, { e.2 with tileBusy := late e.2.tileBusy }) else e)
    { s with crews := crews }.setCore core
      { c1 with abFree := c.abFree + 1, tileFree := if s.clock < c.tileFree then c.tileFree + 1 else c.tileFree }

/-- Every write of the copy has performed: the weir's bytes, then DONE (R137, R260). -/
def State.copyDone (s : State) (h : Nat) (op : Op) : State :=
  let w := copyWeir op.c
  let s1 := if w = 0 || op.weirGone then s else s.weirAdd (weirKey op.part (s.launchOf op.launchId).group w) 0 (copyBytes op.c)
  s1.endOp h 0 0 0

/-- The copy starts: its words and its record are checked (R135, R259). DESIGN CHOICE: the four 8-byte granules of a shape record are read at
one instant, so that of two writes to it the engine finds the earlier whenever it finds the later; R135 leaves each granule open. -/
def State.copyStart (s : State) (h fn : Nat) (op : Op) : State :=
  let c := s.crew op.crew
  let bad := fun (x : CopyShape) =>
    x.bad (copyShaped op.c) (copyBytes op.c) c.view (s.launchOf op.launchId).record.cistern || s.copyWeirBad op
  let go := fun (s : State) (op1 : Op) =>
    let x := op1.copyShape fn
    if bad x then s.endOp h 2 0 0
    else if copyBytes op.c = 0 then s.copyDone h op
    else { s with ops := mset s.ops h { op1 with started := true } }
  if copyWordBad fn op then s.endOp h 2 0 0
  else if copyShaped op.c then
    s.withWalks (opToken h) op.core op.part op.space [(op.a.toNat, 32)] (fun s =>
      let lines := s.virtLines op.core op.part op.space op.a.toNat 32 permR
      if !s.wayOpen op.core lines then s.wakeLines op.core lines
      else match s.rdVirt op.core op.part op.space op.a.toNat 32 with
        | .ok l => go (s.useLines op.core lines) { op with shape := l }
        | .fault cause _ => s.endOp h 3 cause 0
        | .busy => s)
  else go s op

/-- The other device that a unit writes to, when it writes to one. -/
def State.copyTarget (s : State) (op : Op) (x : CopyShape) (u : Nat) : Option Nat :=
  if x.fn = 0 ∨ x.fn = 2 ∨ x.fn = 4 then none
  else match s.engineXl op.core op.part op.space (x.dest (x.unit u).1 + (x.unit u).2.1) permW with
    | .ok pa => if devOf pa = s.dev then none else some (devOf pa)
    | _ => none

/-- Bytes that a copy still has to move. -/
def Op.bytesLeft (op : Op) (x : CopyShape) : Nat :=
  (if x.fn = 5 ∧ x.aux ≠ 0 then x.rows * x.rowb + x.rows / 16 * 256 else x.rows * x.rowb) - (op.units.map (fun e => (x.unit e.1).2.2)).sum

/-- What a unit needs before it writes to another device: a path to it and its credit; the state it leaves, or a wait that asks for
credit (R352, R357). -/
def State.copyCredit (s : State) (h : Nat) (op : Op) (x : CopyShape) (u : Nat) : Option State × State :=
  match s.copyTarget op x u with
  | none => (some s, s)
  | some d =>
    if (s.choosePath d).isNone then (none, { s with ops := mset s.ops h { op with heldAt := if op.heldAt = 0 then s.time + 1 else op.heldAt } })
    else match s.useCredit d (x.unit u).2.2 with
      | some s1 => (some s1, s)
      | none => (none, { s.askCredit (domOf op.core) (4 * h) d (op.bytesLeft x) with ops := mset s.ops h { op with starved := true } })

/-- What a unit has written to another device leaves as a bulk packet (R357). -/
def State.copyEmit (s : State) (h : Nat) (op : Op) (x : CopyShape) (u : Nat) : State :=
  match s.copyTarget op x u, s.engineXl op.core op.part op.space (x.dest (x.unit u).1 + (x.unit u).2.1) permW with
  | some d, .ok pa =>
    let n := (x.unit u).2.2
    s.emit (domOf op.core) d (flitsOf n) (.bulk s.dev (4 * h) false 0 0 pa (s.rdBytes pa n) 0 0)
  | _, _ => s

/-- The copy is over when every unit is done and nothing of it is on its way to another device. -/
def State.copyOver (s : State) (h fn : Nat) (op : Op) : State :=
  let x := op.copyShape fn
  if (List.range x.units).all (op.unitDone x) && decide (op.away = 0) then (if op.orphan then s.endOp h 5 0 0 else s.copyDone h op) else s

/-- Bytes of a copy have performed at another device. -/
def State.copyLanded (s : State) (h n : Nat) : State :=
  let op := mget s.ops h
  match op.kind with
  | .copy fn =>
    let op1 := { op with away := op.away - n }
    ({ s with ops := mset s.ops h op1 }).copyOver h fn op1
  | _ => s

/-- The crew's copies are suspended: it is being pre-empted, and not retired (R312). -/
def Crew.suspends (c : Crew) : Bool := decide (c.preempt = 1) && !c.retiring

/-- A unit whose turn has come and whose pages have been walked: when its way is open and it has its credit, it is made. -/
def State.copyMove (s : State) (h fn u : Nat) (op : Op) : State :=
  let x := op.copyShape fn
  let n := (x.unit u).2.2
  if !s.copyAwake op x u then s.copyWake op x u
  else match s.copyCredit h op x u with
  | (none, s0) => s0
  | (some s0, _) =>
    match s0.copyUnit h op x u with
    | .fault cause o =>
      if op.orphan then s.endOp h 5 0 0 else (s.copyPart h op x u o).endOp h 3 cause ((x.offset u + o) / 4096 * 4096)
    | .busy =>
      if x.fn = 1 ∨ x.fn = 3 ∨ x.fn = 5 then
        s.queueWrite (opToken h) op.core s.dev (s.virtLines op.core op.part op.space (x.dest (x.unit u).1 + (x.unit u).2.1) n permW)
      else s
    | .ok s1 =>
      let sent := if (s.copyTarget op x u).isSome then n else 0
      let op1 := { op with units := mset op.units u true, starved := false, heldAt := 0, away := op.away + sent }
      let s2 : State := ({ s1 with ops := mset s1.ops h op1 }.unqueue (opToken h) (fun _ => true)).freeUp op.part |>.useLines op.core (s.copyLines op x u)
      let s3 := if usesAb x.fn then s2.useAbCopy op.core n else s2
      (s3.copyEmit h op x u).copyOver h fn op1

/-- A unit of a copy that has started: after those of earlier granules; a cancelled, lost or suspended copy begins no granule
(R250, R259, R274, R312). -/
def State.copyStep (s : State) (h fn u : Nat) (op : Op) : State :=
  let x := op.copyShape fn
  let g := x.granule u
  let c := s.crew op.crew
  if x.units ≤ u || op.unitDone x u || !(List.range u).all (fun v => op.unitDone x v || decide (x.granule v = g)) then s
  else if !op.granuleBegun x g && op.orphan then s.endOp h 5 0 0
  else if !op.granuleBegun x g && op.cancel then s.endOp h 4 0 0
  else if !op.orphan && (!c.resident || (!op.granuleBegun x g && c.suspends)) then s
  else if usesAb x.fn && !s.abRoom op.core (x.unit u).2.2 then s
  else s.withWalks (opToken h) op.core op.part op.space (s.copyRanges op x u) (fun s => s.copyMove h fn u op)

/-- COPY_COMPLETION (R257..R260): the copy with handle k starts, in issue order, or makes unit `unit`. -/
def execCopyCompletion (k unit : Nat) (s : State) : Host.Outcome State Fault Refusal :=
  let op := mget s.ops k
  match op.kind with
  | .copy fn =>
    if op.started then .next (s.copyStep k fn unit op)
    else if (s.earlierOps k).any (fun e => !e.2.started) then .next s
    else if op.orphan then .next (s.endOp k 5 0 0)
    else if (s.crew op.crew).resident && !(s.crew op.crew).suspends then .next (s.copyStart k fn op)
    else .next s
  | _ => .next s

/-! The array. -/

/-- Every earlier operation of the matrix context has finished with the array (R264, R266). -/
def State.arrayTurn (s : State) (h : Nat) : Bool := (s.earlierOps h).all (fun e => e.2.readOut)

/-- When an operation that takes `n` core cycles is done: after those before it, and after the array wakes (R378). -/
def State.arrayEnd (s : State) (op : Op) (n : Nat) : Nat :=
  let c := s.core op.core
  max c.arrayFree op.issuedAt + (if c.arrayGated then 32 else 0) + 2 * n

/-- When an MMA that takes `n` core cycles is done: the cistern wakes too, if it must (R378). -/
def State.mmaEnd (s : State) (op : Op) (n : Nat) : Nat :=
  max (s.arrayEnd op n) (2 * (s.core op.core).cistUsed + 2 * n) + (if (s.core op.core).cistAsleep then 64 else 0)

/-- The array has done an operation at a time. -/
def State.useArray (s : State) (core t : Nat) : State :=
  let c := s.core core
  { s.setCore core { c with arrayFree := t, arrayUsed := s.clock, arrayGated := false } with
    activity := mset s.activity (arrayBlock core) (mget s.activity (arrayBlock core) + 1) }

/-- Core cycles of an MMA (R265). -/
def mmaCycles (ranked : Bool) (p : Nat) : Nat :=
  if ranked then 256 else if p ≤ 2 then 16 else if p ≤ 4 then 32 else if p ≤ 8 then 64 else 128

/-- A block of A or B as integers with its effective exponent, none for NaN (R71, R72). -/
structure Block where
  vals : List Int
  exp : Option Int
  deriving Repr

/-- The effective exponent of a scale byte under a slot (R71). -/
def effExp (slot : Word64) (e : Nat) : Option Int :=
  if slotScaled slot then (if e = 255 then none else some ((e : Int) + slotOffset slot)) else some (127 + slotOffset slot)

/-- The four A blocks of tile row i (R72). -/
def aBlocks (slot : Word64) (data scales : List Byte) : List Block :=
  (List.range 4).map (fun b =>
    { vals := ((data.drop (16 * b)).take 16).map (fun x => if nbit slot.toNat 9 then x.toInt else (x.toNat : Int))
      exp := effExp slot (scales.getD b 0).toNat })

/-- The integer q of a stored weight of `n` bits at p planes (R75, R76). -/
def planeInt (n p : Nat) (mid : Bool) (b : Nat) : Int :=
  let q := sint n b / ((2 ^ (n - p) : Nat) : Int)
  if mid then 2 * q + 1 else q

/-- The plane weight w (R75, R76). -/
def planeWeight (n p : Nat) (mid : Bool) : Int := (n : Int) - p - (if mid then 1 else 0)

/-- The four B blocks of a column from its records (R75, R76). -/
def bBlocks (slot : Word64) (wide : Bool) (recs : Nat → BitVec 136) : List Block :=
  let p := slotPlanes slot
  let mid := nbit slot.toNat 8
  (List.range 4).map (fun b =>
    let r := if wide then recs (2 * b) else recs b
    { vals := (List.range 16).map (fun k =>
        if wide then planeInt 16 p mid (256 * unplane r k + unplane (recs (2 * b + 1)) k) else planeInt 8 p mid (unplane r k))
      exp := effExp slot (recByte r 16) })

/-- Clamp an overflow to the largest finite value (R80, R81). -/
def clampOver (r : FRes) : FRes := if r.2 &&& flagOF = 0 then r else (r.1 - 1, r.2)

/-- The block result of R80; IV marks a NaN scale. -/
def blockResult (a b : Block) (w : Int) : FRes :=
  match a.exp, b.exp with
  | some x, some y =>
    let t := (List.zipWith (fun u v => u * v) a.vals b.vals).foldl (· + ·) 0
    if t = 0 then (0, 0) else clampOver (fmtF32.round rneKeep (decide (t < 0)) t.natAbs (x + y - 254 + w) false)
  | _, _ => (fmtF32.nanBits, flagIV)

/-- One addition of R81: overflow is reported, and a signalling NaN in the accumulator (R64, R66). -/
def accAdd (acc c : Nat) : FRes :=
  let r := clampOver (add32 acc c)
  (r.1, r.2 &&& (flagOF ||| flagIV))

/-- The update of an element by its block results in order (R81). -/
def accUpdate (acc : Nat) (cs : List FRes) : FRes :=
  cs.foldl (fun r c => let n := accAdd r.1 c.1; (n.1, r.2 ||| c.2 ||| n.2)) (acc, 0)

/-- Element (i, j) from its row's and its column's blocks. -/
def mmaElem (acc : Nat) (a b : List Block) (w : Int) : FRes := accUpdate acc (List.zipWith (fun x y => blockResult x y w) a b)

/-- The strands of the weave take the flags of an MMA (R82). -/
def Crew.weaveFlags (c : Crew) (w : Nat) (fl : BitVec 4) : Crew :=
  (c.weaveLive w).foldl (fun c k => c.setSt k ((c.st k).orFlags fl)) c

/-- The counters of an MMA that has retired (R82). -/
def Core.countMma (c : Core) (fl : BitVec 4) (nan : Bool) : Core :=
  { c with mxov := c.mxov + (if fl &&& flagOF = 0 then 0 else 1), mxuf := c.mxuf + (if fl &&& flagUF = 0 then 0 else 1)
           mxnan := c.mxnan + (if nan then 1 else 0) }

/-- The MMA is skipped by its bound (R265). -/
def mmaSkips (f : FX) (c : Crew) (bound : Word) : Bool :=
  f.k && (List.range 128).all (fun i => (f32 bound).lt (f32 (rankThreshold (c.accForm f.acc.val).len (c.rankRow f.acc.val i))))

/-- The A blocks of every row of the tile of an MMA. -/
def mmaRows (slot : Word64) (t : List Byte) : List (List Block) :=
  (List.range 128).map (fun i => aBlocks slot ((t.drop (64 * i)).take 64) ((t.drop (8192 + 4 * i)).take 4))

/-- The effect of an MMA (R265): plain elements or offers, flags and counters. -/
def State.mmaRun (s : State) (h : Nat) (f : FX) (op : Op) : State :=
  let c := s.crew op.crew
  let slotA := s.slotOf c f.slotA.val
  let slotB := s.slotOf c f.slotB.val
  let cl := s.claimOf op.core op.launchId
  let r := nbits op.a.toNat 0 32
  let mid := nbit slotB.toNat 8
  let w := planeWeight (if f.w then 16 else 8) (slotPlanes slotB) mid
  let rows := mmaRows slotA (mflat 0 tileSize (c.tileBytes f.tile.val))
  let cols := (List.range 256).map (fun j => bBlocks slotB f.w (fun i => s.cisternRec op.core cl (r + i) j))
  let k := f.acc.val
  let form := c.accForm k
  let old := fun (i : Nat) => if form.ranked || f.z then List.replicate 256 (0 : Nat) else (mflat 0 256 (c.accRow k i)).map BitVec.toNat
  let res : List (List FRes) :=
    ((List.range 128).zip rows).map (fun e => (List.zip (old e.1) cols).map (fun x => mmaElem x.1 e.2 x.2 w))
  let fl := res.flatten.foldl (fun x r => x ||| r.2) (0 : BitVec 4)
  let nan := rows.any (·.any (·.exp.isNone)) || cols.any (·.any (·.exp.isNone))
  let lists : List (List (Word × Word) × Bool) := ((List.range 128).zip res).map (fun e =>
    rankOffers form.len (if f.z then [] else c.rankRow k e.1) (rowOffers form.base (fun j => BitVec.ofNat 32 (e.2.getD j (0, 0)).1)))
  let c1 := if form.ranked then { c with ranked := mput c.ranked (128 * k) (lists.map (fun x => x.1)) }
    else { c with acc := mput c.acc (accSize * k) (res.flatten.map (fun (r : FRes) => BitVec.ofNat 32 r.1)) }
  let fl1 := if form.ranked && lists.any (·.2) then fl ||| flagIV else fl
  let s1 := s.setCrew op.crew (c1.weaveFlags op.weave fl1)
  (s1.setCore op.core ((s1.core op.core).countMma fl nan |>.useCistern s1.clock)).endOp h 0 0 0

/-- MMA_COMPLETION (R265): the MMA with handle k, when its turn on the array and its cycles are over. -/
def execMmaCompletion (k : Nat) (s : State) : Host.Outcome State Fault Refusal :=
  let op := mget s.ops k
  match op.kind with
  | .mma f =>
    let c := s.crew op.crew
    if !s.arrayTurn k then .next s
    else if mmaSkips f c (BitVec.ofNat 32 (nbits op.a.toNat 32 32)) then
      let core := s.core op.core
      .next ((s.setCore op.core { core with mxskip := core.mxskip + 1 }).endOp k 1 0 0)
    else
      let t := s.mmaEnd op (mmaCycles (c.accForm f.acc.val).ranked (slotPlanes (s.slotOf c f.slotB.val)))
      if s.time < t then .next s else .next ((s.useArray op.core t).mmaRun k f op)
  | _ => .next s

/-! Commits. -/

/-- Bytes of a home tile (R106, R107). -/
def tileBytesOf (ranked : Bool) : Nat := if ranked then 2 ^ 15 else 2 ^ 17
/-- Segments of a home tile. -/
def tileSegs (ranked : Bool) : Nat := if ranked then 8 else 32
/-- The address in S[x] without the mode bit. -/
def homeAddr (a : Word64) : Nat := a.toNat - a.toNat % 2

/-- The translation of a whole home tile: the first cause, a wait, or the address of each 64 KiB page (R270). -/
def State.tileXl (s : State) (op : Op) (ranked : Bool) (need : Nat) : Xl × List Nat :=
  (pageSpans (homeAddr op.a) (tileBytesOf ranked)).foldl (fun r p => match r.1 with
    | .ok _ => match s.engineXl op.core op.part op.space p.2.1 need with
      | .ok pa => (.ok 0, r.2 ++ [pa])
      | x => (x, r.2)
    | _ => r) (.ok 0, [])

/-- Segments in the commit buffer of a core: read out and not yet at their slices (R270). -/
def State.bufferedSegs (s : State) (core : Nat) : Nat :=
  ((s.ops.filter (fun e => decide (e.2.core = core) && e.2.readOut)).map (fun e => tileSegs e.2.form.ranked - e.2.units.length)).sum

/-- READ_OUT_DONE (R270): the read-out of the ACOMMIT with handle k. -/
def execReadOutDone (k : Nat) (s : State) : Host.Outcome State Fault Refusal :=
  let op := mget s.ops k
  match op.kind with
  | .acommit a =>
    let c := s.crew op.crew
    let form := c.accForm a
    if op.readOut || !s.arrayTurn k then .next s
    else if homeAddr op.a % tileBytesOf form.ranked ≠ 0 then .next (s.endOp k 2 0 0)
    else .next (s.withWalks (opToken k) op.core op.part op.space [(homeAddr op.a, tileBytesOf form.ranked)] (fun s =>
      match s.tileXl op form.ranked (permR + permW) with
      | (.fault cause, _) => s.endOp k 3 cause 0
      | (.ok _, frames) =>
        let t := s.arrayEnd op (if form.ranked then 64 else 256)
        if s.time < t || 64 < s.bufferedSegs op.core + tileSegs form.ranked then s
        else
          let op1 := { op with readOut := true, frames := frames, form := form, data := mslice c.acc (accSize * a) accSize
                               lists := mslice c.ranked (128 * a) 128 }
          { (s.useArray op.core t) with ops := mset s.ops k op1 }
      | _ => s))
  | _ => .next s

/-- Row i of a ranked home tile after a merge or a replacement: its 32 slots, and whether a NaN was refused (R86, R107, R270). -/
def rankedRow (form : AccForm) (replace : Bool) (l : List (Word × Word)) (slots : List (Word × Word)) : List (Word × Word) × Bool :=
  let empty : Word × Word := (0xFFFFFFFF, 0xFFFFFFFF)
  let offers := if replace then l else slots.filter (fun p => decide (p ≠ empty)) ++ l
  let m := rankOffers form.len [] offers
  let kept := if replace then l.take form.len else m.1
  (kept ++ List.replicate (form.len - kept.length) empty ++ slots.drop form.len, !replace && m.2)

/-- The slots in the bytes of a ranked row. -/
def slotPairs (b : List Byte) : List (Word × Word) :=
  (List.range 32).map (fun j =>
    (BitVec.ofNat 32 (leNat ((b.drop (8 * j + 4)).take 4)), BitVec.ofNat 32 (leNat ((b.drop (8 * j)).take 4))))

/-- The bytes of slots. -/
def slotBytes (l : List (Word × Word)) : List Byte := l.flatMap (fun p => leBytes 4 p.2.toNat ++ leBytes 4 p.1.toNat)

/-- The bytes of a segment after its application, and whether a NaN was refused (R83, R107, R270). -/
def segmentBytes (op : Op) (seg : Nat) (old : List Byte) : List Byte × Bool :=
  let replace := nbit op.a.toNat 0
  if op.form.ranked then
    let rows := (List.range 16).map (fun i =>
      rankedRow op.form replace (mget op.lists (16 * seg + i)) (slotPairs ((old.drop (256 * i)).take 256)))
    (rows.flatMap (fun r => slotBytes r.1), rows.any (·.2))
  else
    ((List.range 1024).flatMap (fun j =>
      let x := (mget op.data (1024 * seg + j)).toNat
      leBytes 4 (if replace then x else (add32 (leNat ((old.drop (4 * j)).take 4)) x).1)), false)

/-- The lines of a segment that the commit writes: offset and length of the part written (R375). -/
def segmentLines (op : Op) : List (Nat × Nat) :=
  if op.form.ranked && nbit op.a.toNat 0 then
    let n := 8 * op.form.len
    (List.range 32).filterMap (fun j =>
      let lo := 128 * (j % 2)
      if lo < n then some (128 * j, min 128 (n - lo)) else none)
  else (List.range 32).map (fun j => (128 * j, 128))

/-- Physical address of a segment, by the translation that the source made of the whole tile (R270). -/
def Op.segmentPa (op : Op) (seg : Nat) : Nat :=
  let first := 2 ^ 16 - homeAddr op.a % 2 ^ 16
  if 4096 * seg < first then op.frames.getD 0 0 + 4096 * seg
  else op.frames.getD (1 + (4096 * seg - first) / 2 ^ 16) 0 + (4096 * seg - first) % 2 ^ 16

/-- A poisoned line keeps the commit from being applied: one that it reads or writes only in part (R375). -/
def State.commitPoisoned (s : State) (op : Op) : Bool :=
  let reads := !nbit op.a.toNat 0
  (List.range (tileSegs op.form.ranked)).any (fun g =>
    (segmentLines op).any (fun x => s.poisoned (op.segmentPa g + x.1) && (reads || decide (x.2 ≠ 128))))

/-- The lines that a segment writes. -/
def Op.segmentDest (op : Op) (seg : Nat) : List Nat := (segmentLines op).map (fun x => op.segmentPa seg + x.1)

/-- Apply a segment as one write to its lines, when its turn has come at all of them (R95, R108). -/
def State.applySegment (s : State) (h seg : Nat) : State :=
  let op := mget s.ops h
  let pa := op.segmentPa seg
  let lines := op.segmentDest seg
  if mget op.applied seg || !s.mayWriteBy (opToken h) lines then s
  else if !s.channelsReady lines then s.wakeChannels lines
  else
    let r := segmentBytes op seg (s.rdBytes pa 4096)
    let s1 := (segmentLines op).foldl (fun (s : State) (x : Nat × Nat) => s.wrSpan (pa + x.1, (r.1.drop x.1).take x.2)) s
    { (s1.unqueue (opToken h) (fun l => lines.contains l)).useChannels lines with
      ops := mset s1.ops h { op with applied := mset op.applied seg true, refusedNan := op.refusedNan || r.2 } }

/-- Every segment of the commit has arrived at its merge unit (R21). -/
def Op.allHere (op : Op) : Bool := (List.range (tileSegs op.form.ranked)).all (mget op.units)

/-- The status of a commit that is not applied: LOST when its crew is. -/
def State.commitFails (s : State) (h : Nat) (op : Op) (cause : Nat) : State :=
  if op.orphan then s.endOp h 5 0 0 else s.endOp h 3 cause 0

/-- SEGMENT_ARRIVAL (R21, R270, R375): segment `seg` of the commit with handle k. With the last of them the commit takes its place at every
line that it writes, in the order in which commits become complete; from then on each segment is applied by itself, when its turn comes
(R95, R108). A commit whose crew was lost is applied only when its last segment arrives in the same cycle. -/
def execSegmentArrival (k seg : Nat) (s : State) : Host.Outcome State Fault Refusal :=
  let op := mget s.ops k
  match op.kind with
  | .acommit _ =>
    let n := tileSegs op.form.ranked
    if !op.readOut || n ≤ seg then .next s
    else if op.allHere then .next (s.applySegment k seg)
    else if op.orphan && decide (op.lostAt ≠ s.time + 1) then .next (s.endOp k 5 0 0)
    else if s.bridgeStops (domOf op.core) [op.segmentPa seg] then .next s
    else if !s.routerReady (chipOf op.core) then .next (s.wakeRouter (chipOf op.core))
    else
      let op1 := { op with units := mset op.units seg true }
      let s1 : State := { s.useRouter (chipOf op.core) with ops := mset s.ops k op1 }
      if !op1.allHere then .next s1
      else if s1.commitPoisoned op1 then .next (s1.commitFails k op1 cDataError)
      else .next ((s1.queueWrite (opToken k) op.core s.dev ((List.range n).flatMap op1.segmentDest)).applySegment k seg)
  | _ => .next s

/-- ACOMMIT_COMPLETION (R270): every segment has been applied; a refused NaN counts once (R82, R85). -/
def execAcommitCompletion (k : Nat) (s : State) : Host.Outcome State Fault Refusal :=
  let op := mget s.ops k
  match op.kind with
  | .acommit _ =>
    if op.readOut && (List.range (tileSegs op.form.ranked)).all (mget op.applied) then
      let c := s.core op.core
      let s1 := s.setCore op.core { c with mxnan := c.mxnan + (if op.refusedNan then 1 else 0) }
      .next (s1.endOp k (if op.orphan then 5 else 0) 0 0)
    else .next s
  | _ => .next s

/-- The lists of a ranked accumulator from a home tile (R86, R271). -/
def loadLists (form : AccForm) (b : List Byte) : List (List (Word × Word)) :=
  (List.range 128).map (fun i =>
    (rankOffers form.len [] ((slotPairs ((b.drop (256 * i)).take 256)).filter (fun p => decide (p ≠ (0xFFFFFFFF, 0xFFFFFFFF))))).1)

/-- ALOAD_COMPLETION (R271): the ALOAD with handle k, when its turn on the array has come, which it wakes (R378, R380). -/
def execAloadCompletion (k : Nat) (s : State) : Host.Outcome State Fault Refusal :=
  let op := mget s.ops k
  match op.kind with
  | .aload a =>
    let c := s.crew op.crew
    let form := c.accForm a
    if !s.arrayTurn k then .next s
    else if op.a.toNat % tileBytesOf form.ranked ≠ 0 then .next (s.endOp k 2 0 0)
    else .next (s.withWalks (opToken k) op.core op.part op.space [(op.a.toNat, tileBytesOf form.ranked)] (fun s =>
      match s.rdVirt op.core op.part op.space op.a.toNat (tileBytesOf form.ranked) with
      | .fault cause _ => s.endOp k 3 cause 0
      | .busy => s
      | .ok b =>
        let lines := s.virtLines op.core op.part op.space op.a.toNat (tileBytesOf form.ranked) permR
        let t := s.arrayEnd op 0
        if s.time < t then s
        else if !s.wayOpen op.core lines then s.wakeLines op.core lines else
        let c1 := if form.ranked then { c with ranked := mput c.ranked (128 * a) (loadLists form b) }
          else { c with acc := mput c.acc (accSize * a) ((List.range accSize).map (fun i => BitVec.ofNat 32 (leNat ((b.drop (4 * i)).take 4)))) }
        ((((s.setCrew op.crew c1).useArray op.core t).useLines op.core lines).endOp k 0 0 0)))
  | _ => .next s

/-! Ends of TLD, TST and ARFOLD. -/

/-- TLD_TST_AB_CYCLES_DONE (R262): tile k of crew u is released. -/
def execTldTstAbCyclesDone (u k : Nat) (s : State) : Host.Outcome State Fault Refusal :=
  let c := s.crew u
  if decide ((mget c.tileBusy k).kind ≠ 0) && decide ((mget c.tileBusy k).due ≤ s.time)
  then .next (s.setCrew u { c with tileBusy := mset c.tileBusy k default }) else .next s

/-- ARFOLD_DONE (R268): accumulator k of crew u is released. -/
def execArfoldDone (u k : Nat) (s : State) : Host.Outcome State Fault Refusal :=
  let c := s.crew u
  if decide (mget c.foldBusy k ≠ 0) && decide (mget c.foldBusy k ≤ s.time)
  then .next (s.setCrew u { c with foldBusy := mset c.foldBusy k 0, foldWeave := mset c.foldWeave k 0 }) else .next s

end Sys2Proof.Machine
end

