-- ==== Sys2Proof/Machine/Sched.lean ====
section
/-! DEFINITION. Issue: ready strands (R25, R26), the choice of sub-gangs (R35), the regang (R33), idle counters (R332), fetch
(R138, R140, R339), and the steps by which waits end: results, YIELD, WAIT, traps (R183, R184, R194, R301). -/

namespace Sys2Proof.Machine

/-! Ready strands. -/

/-- The context number that a kind of operation takes on a core (R247). -/
def ctxNum (core kind : Nat) : Nat := if kind ≤ 2 then core else domOf core

/-- The devices to which writes of a strand are unacknowledged. -/
def State.awaited (s : State) (u k dev : Nat) : Bool := s.pendingWrite u k (fun pa => decide (devOf pa ≠ dev))

/-- What a strand waits for has happened, so that its instruction is executed again; an instruction in progress is completed by a
step of its own (R25, R26). -/
def State.waitOver (s : State) (u k : Nat) : Bool :=
  let c := s.crew u
  let st := c.st k
  match st.wait with
  | .ready => true
  | .future h => (s.futureValue st h).isSome
  | .timeline sel v => decide (v.toNat ≤ s.timelineOf c.core sel)
  | .weir id ph _ =>
    let w := mget s.weirs (s.crewWeir c id.toNat)
    decide (w.state ≠ 1) || phasePassed w.ph ph
  | .wconv => (c.weaveLive (weaveOf k)).all (fun j => decide ((c.st j).wait = .wconv) || decide ((c.st j).gang = st.gang))
  | .cbar => mget c.passed k || c.allArrived c.cbar
  | .xswap => mget c.passed k || (c.allArrived c.xarr && decide (c.xgreatest c.xmax ≤ c.cx))
  | .reply => false
  | .acks => drained s u k || decide (st.unacked = 0)
  | .remoteAcks => !s.awaited u k s.dev
  | .crewAcks n => !s.crewWrites u k n
  | .flag dev => !s.awaited u k dev
  | .remoteLines pas =>
    !s.portWaits u k && !pas.any (fun pa => decide (devOf pa ≠ s.dev)
      && (s.pendingPut u k (devOf pa) || s.pendingWrite u k (fun q => decide (lineOf q = lineOf pa))))
  | .exitWait => crewDrained s u
  | .context kind => s.ctxRoom kind (ctxNum c.core kind) 1
  | .dlq => decide (s.dlqCount (domOf c.core) + 1 ≤ 256)
  | .walk => !s.walks.any (fun e => e.2.live && e.2.waiters.contains (u, k))
  | .result codes => !(st.late.any (fun e => decide (s.period < e.2) && codes.contains e.1) || (decide (st.tagWait ≠ 0) && codes.contains 71))
  | .frame => decide (s.xlateSave u (frameAddr c k) permR ≠ .busy)
      && decide (s.xlateNow c.core (s.crewLaunch c).part (s.crewLaunch c).space st.tepc.toNat permX ≠ .busy)
  | .yielded _ => false
  | .deadline _ => false
  | .interlock ls => !ls.any (s.locked u (weaveOf k))
  | .sfrqFull => decide (s.sfrqCount c.core < 64)
  | .matrix => !s.ops.any (fun o => decide (o.2.crew = u) && decide (o.2.weave = weaveOf k)
      && (match o.2.kind with | .mma _ => true | _ => false))
  | .joined => true

/-- A launch that must be whole has a crew switched out: none of its crews issues (R43). -/
def State.parted (s : State) (l : Nat) : Bool :=
  (s.launchOf l).record.whole && s.crews.any (fun e => decide (e.2.launch = l) && !e.2.resident)

/-- A strand is ready: live, its crew on a core and not being pre-empted, no trap due, its wait over (R25, R43, R312). -/
def State.strandReady (s : State) (u k : Nat) : Bool :=
  let c := s.crew u
  c.resident && decide (c.preempt = 0) && !s.parted c.launch && decide ((c.st k).live ≠ 0) && (c.st k).pending.isNone && s.waitOver u k

/-- The sub-gangs of a weave, in ascending order of their lowest strands. -/
def Crew.gangs (c : Crew) (w : Nat) : List (List Nat) :=
  let ks := c.weaveLive w
  (ks.map (fun k => (c.st k).gang)).eraseDups.map (fun g => ks.filter (fun k => decide ((c.st k).gang = g)))

/-- The strand has arrived at a barrier that is not over. -/
def State.atBarrier (s : State) (u k : Nat) : Bool :=
  match (s.strand u k).wait with
  | .cbar => !s.waitOver u k
  | .xswap => !s.waitOver u k
  | _ => false

/-- The strands of a sub-gang that would issue now, none when it is not ready: all of it between instructions; inside one, those that have
still to execute it, when what they wait for has happened for all of them (R25, R34). DESIGN CHOICE: they execute it again together, not
one by one as their waits end. -/
def State.candidates (s : State) (u : Nat) (gang : List Nat) : List Nat :=
  let c := s.crew u
  let left := gang.filter (fun k => decide ((c.st k).wait ≠ .ready))
  let again := if left.isEmpty then gang else left.filter (fun k => !(c.st k).wait.ownEnd && !s.atBarrier u k)
  if again.all (s.strandReady u) then again else []

/-- The last issue of a sub-gang. -/
def Crew.lastOf (c : Crew) (gang : List Nat) : Nat := gang.foldl (fun m k => max m (c.st k).lastIssue) 0

/-- The strands that a weave chooses to issue: those of its ready sub-gang with the oldest last issue, then the favoured path, then the
lowest strand (R35). -/
def State.chooseGang (s : State) (u w : Nat) : Option (List Nat) :=
  let c := s.crew u
  let ready := (c.gangs w).filter (fun g => !(s.candidates u g).isEmpty)
  let fav := fun (g : List Nat) => g.any (fun k => (c.st k).favoured)
  let best := ready.foldl (fun b g => match b with
    | none => some g
    | some x => if decide (c.lastOf g < c.lastOf x) || (decide (c.lastOf g = c.lastOf x) && fav g && !fav x) then some g else some x) none
  best.map (s.candidates u)

/-- The slice of a strand, as a number of the device. -/
def Crew.sliceOf (c : Crew) (k : Nat) : Nat := 16 * c.core + ((mget c.slices (weaveOf k)).drop (sidOf k)).headD 0

/-- The issue periods in which a throttled slice may issue. DESIGN CHOICE: two of every five, never two in a row, so that each context
index comes to be the primary one of some of them (R25, R42, R380, R381). -/
def coolPeriod (p : Nat) : Bool := decide (p % 5 = 0) || decide (p % 5 = 2)

/-- A slice withholds issue periods: under its power budget, or its chiplet's temperature limit (R380, R381). -/
def State.sliceThrottled (s : State) (n : Nat) : Bool := decide (0 < mget (s.core (n / 16)).withheld (n % 16)) || mget s.throttled (chipOf (n / 16))

/-- The slice may not issue in this period: it withholds it, or is still waking (R378, R380, R381). -/
def State.sliceHeld (s : State) (n : Nat) : Bool :=
  (s.sliceThrottled n && !coolPeriod s.period) || decide (s.clock < mget (s.core (n / 16)).sliceUsed (n % 16))

/-- The sub-gang that a weave issues in this period: the one that it chooses, unless a slice of it is taken, held, or kept by an issue that has been
decided (R25). -/
def State.mayIssue (s : State) (dec : List Issue) (i : Issue) : Option Issue :=
  match s.chooseGang i.crew i.weave with
  | some ks =>
    let c := s.crew i.crew
    let kept := fun (n : Nat) => dec.any (fun d => d.strands.any (fun k => decide ((s.crew d.crew).sliceOf k = n)))
    if ks.all (fun k => !mget s.taken (c.sliceOf k) && !s.sliceHeld (c.sliceOf k) && !kept (c.sliceOf k)) then some ⟨i.crew, i.weave, ks⟩ else none
  | none => none

/-! Fetch. -/

/-- What a fetch gives: a word, a trap, or a wait for a walk. -/
inductive FetchRes where
  | word (w : Word)
  | trap (cause : Nat)
  | busy

/-- Fetch the word at an address for a strand (R138, R140, R338, R339). -/
def State.fetchWord (s : State) (u k : Nat) : FetchRes :=
  let c := s.crew u
  let st := c.st k
  let l := s.crewLaunch c
  match st.walkFaults.find? (fun e => decide (e.1 = st.pc.toNat / 2 ^ 16)) with
  | some _ => .trap cFetch
  | none =>
    match s.xlate c.core (domOf c.core) l.part l.space st.pc.toNat permX with
    | .ok pa =>
      match s.cachedWord c.core pa with
      | some w => .word w
      | none => if s.poisoned pa || !s.inView l.part (devOf pa) then .trap cFetch else .word (BitVec.ofNat 32 (s.rdNat pa 4))
    | .fault _ => .trap cFetch
    | _ => .busy

/-- Words of the instruction cache of a core: 64 KiB (R140, the cache table of 01). -/
def icacheCells : Nat := 16384

/-- A fetched word stays in the core's instruction cache, in place of the oldest when it is full (R140). -/
def State.cacheWord (s : State) (u k : Nat) (w : Word) : State :=
  let c := s.crew u
  let l := s.crewLaunch c
  match s.xlate c.core (domOf c.core) l.part l.space (c.st k).pc.toNat permX with
  | .ok pa =>
    if (s.cachedWord c.core pa).isSome then s
    else
      let own := s.icache.filter (fun e => decide (e.core = c.core))
      { s with icache := ⟨c.core, pa, w⟩ :: own.take (icacheCells - 1) ++ s.icache.filter (fun e => decide (e.core ≠ c.core)) }
  | _ => s

/-- The instruction that the sub-gang issues, or the state after a fetch that gave none: a FETCH or ILLEGAL_INSTRUCTION trap in every
strand, or a walk that they wait for (R157, R299). -/
inductive IssueRes where
  | run (i : Instr) (s : State)
  | done (s : State)

/-- A trap of every strand of the issuing sub-gang. -/
def State.gangTrap (s : State) (t : Strand → Trap) : State :=
  s.takeTraps s.cur.crew (s.cur.strands.map (fun k => (k, t (s.strand s.cur.crew k))))

/-- Fetch and decode for the sub-gang that issues (R157 step 1 and 2). -/
def State.fetchIssue (s : State) : IssueRes :=
  let u := s.cur.crew
  let k := s.cur.strands.headD 0
  match s.fetchWord u k with
  | .word w =>
    match decode w with
    | .ok i => .run i (s.cacheWord u k w)
    | .error _ => .done ((s.cacheWord u k w).gangTrap (fun st => wordTrap st cInstr (w.setWidth 64)))
  | .trap c => .done (s.gangTrap (fun st => valueTrap st c (st.pc.setWidth 64)))
  | .busy =>
    let c := s.crew u
    let l := s.crewLaunch c
    .done (s.cur.strands.foldl (fun s j =>
      (s.setStrand u j { s.strand u j with wait := .walk }).askWalk u j c.core (domOf c.core) l.part l.space (c.st j).pc.toNat) s)

/-- The strand did not issue: an operand is not available, or an interlock stalls it (R26, R266). -/
def Wait.stall : Wait → Bool
  | .future _ => true
  | .result _ => true
  | .interlock _ => true
  | .joined => true
  | .sfrqFull => true
  | _ => false

/-- After an issue: the slices are taken for the period and the strands' age is renewed; a sub-gang that was not ready costs its
slices nothing, and its weave chooses again (R25, R26, R35). -/
def State.afterIssue (s : State) : State :=
  let u := s.cur.crew
  let ks := s.cur.strands
  if ks.all (fun k => (s.strand u k).wait.stall) then { s with issueQ := ⟨u, s.cur.weave, []⟩ :: s.issueQ }
  else
    let c := s.crew u
    let c1 := ks.foldl (fun (c : Crew) k => if (c.st k).live = 0 then c else c.setSt k { c.st k with lastIssue := s.period }) c
    { s with crews := if c = default then s.crews else mset s.crews u c1
             taken := ks.foldl (fun m k => mset m (c.sliceOf k) true) s.taken
             activity := ks.foldl (fun m k => mset m (c.sliceOf k) (mget m (c.sliceOf k) + 1)) s.activity }

/-! The issue period. -/

/-- A strand has reached a point where it can be saved (R312): no reply or late result outstanding, no trap due; an acknowledgement,
with or without a tag, is not waited for (R246). -/
def savable (st : Strand) : Bool := !st.mem.live && st.pending.isNone && st.late.isEmpty

/-- The crew has reached a stable point (R274, R312). -/
def State.stable (s : State) (u : Nat) : Bool :=
  let c := s.crew u
  c.keys.all (fun k => savable (c.st k)) && c.tileBusy.isEmpty && c.foldBusy.isEmpty
  && s.ops.all (fun e => decide (e.2.crew ≠ u) || (match e.2.kind with
      | .mma _ => false
      | .aload _ => false
      | .acommit _ => e.2.readOut
      | .copy fn =>
        let x := e.2.copyShape fn
        !e.2.started || (List.range x.units).all (fun v => e.2.unitDone x v || !e.2.granuleBegun x (x.granule v))
      | _ => true))
  && !(nbit (s.crewLaunch c).record.flags 2
       && s.net.any (fun e => decide (e.2.x = c.launch) && (match e.2.kind with | .stx _ => true | _ => false)))

/-- A packet of the strand to or from another device waits at a router port, or for the end of a retrain (R370, R379). -/
def State.fabricHeld (s : State) (u k : Nat) : Bool :=
  let mine := fun (r : Req) => decide (r.dev = s.dev) && decide (r.crew = u) && decide (r.strand = k) && decide (devOf r.pa ≠ s.dev)
  s.net.any (fun e => mine e.2 && ((!e.2.left && (e.2.flagged || decide (e.2.path = pathPort) || decide (e.2.path = pathRouter))) || decide ((mget s.held e.1).port ≠ 0))) || s.back.any (fun e => mine e.2 && s.replyHeld e.2)

/-- KIND and CTX, as in a handle, of the context that a timeline selector names (R248, R251). -/
def timelineCtx (core : Nat) (sel : Word64) : Nat :=
  let kind := nbits sel.toNat 0 4
  4096 * kind + (if kind ≤ 2 then core else if nbit sel.toNat 7 then 1 - domOf core else domOf core)

/-- Why an idle slice with waiting strands is idle: the counter of R332 for the oldest strand. -/
def State.idleCause (s : State) (u k : Nat) : Nat :=
  let st := s.strand u k
  let starved := fun (h : Nat) => (mget s.ops h).starved || s.colls.any (fun e => decide (e.2.handle.toNat = h) && e.2.live && e.2.starved)
  let waitsGrant := fun (h : Word64) => if handleKind h = 6
    then (mget st.joins (handleCtx h)).srcs.any (fun x => match x with | .fut g => starved g.toNat | .val _ => false) else starved h.toNat
  if st.pending.isSome || decide (st.wait = .frame) then 6
  else match st.wait with
    | .weir _ _ _ => 1
    | .cbar => 1
    | .xswap => 1
    | .wconv => 1
    | .future h => if waitsGrant h then 4 else 2
    | .timeline sel v =>
      if s.ops.any (fun o => decide (o.1 / 2 ^ 48 = timelineCtx (s.crew u).core sel) && decide (o.2.number ≤ v.toNat) && starved o.1) then 4 else 2
    | .context _ => 2
    | .dlq => 2
    | .acks => if s.fabricHeld u k then 4 else 3
    | .flag _ => if s.fabricHeld u k then 4 else 3
    | .remoteAcks => if s.fabricHeld u k then 4 else 3
    | .remoteLines _ => if s.fabricHeld u k then 4 else 3
    | .reply => if s.fabricHeld u k then 4 else 3
    | _ => 3

/-- A save or a restore occupies a slice of a core: the crew there has been saved or restored in this period, or
has reached the point at which its save begins (R312, R313, R332). -/
def State.switching (s : State) (core slice : Nat) : Bool :=
  mget (s.core core).switched slice || s.crews.any (fun e => e.2.resident && decide (e.2.core = core) && e.2.keys.any (fun k => decide (e.2.sliceOf k % 16 = slice))
    && (decide (e.2.preempt = 3) || (decide (e.2.preempt = 1) && s.stable e.1)))

/-- The live strands that occupy each slice of a core: slice and crew and strand. -/
def State.occupants (s : State) (core : Nat) : List (Nat × Nat × Nat) :=
  (s.crews.filter (fun e => e.2.resident && decide (e.2.core = core))).flatMap (fun e =>
    e.2.liveKeys.map (fun k => (e.2.sliceOf k % 16, e.1, k)))

/-- CHIPCTL of a chiplet; its FENCE bit is stored inverted, so that an unlisted one is fenced (R346). -/
def State.chip (s : State) (c : Nat) : Word64 := mget s.chipctl c ^^^ 2
/-- The chiplet is fenced. -/
def State.fenced (s : State) (c : Nat) : Bool := (s.chip c).getLsbD 1

/-- The counter that an idle slice of a core adds to, from the strands that occupy it (R332). -/
def State.sliceIdle (s : State) (core slice : Nat) (occ : List (Nat × Nat × Nat)) : Nat :=
  let here := occ.filter (fun o => decide (o.1 = slice))
  let older := fun (a b : Nat × Nat × Nat) =>
    if (s.strand b.2.1 b.2.2).lastIssue < (s.strand a.2.1 a.2.2).lastIssue then b else a
  if s.switching core slice then 5 else
  match here with
  | [] => 0
  | o :: rest =>
    if s.sliceHeld (16 * core + slice) && here.any (fun x => s.strandReady x.2.1 x.2.2) then 3
    else
      let waiting := (o :: rest).filter (fun x => !s.strandReady x.2.1 x.2.2)
      match waiting with
      | [] => 3
      | w :: ws => let x := ws.foldl older w; s.idleCause x.2.1 x.2.2

/-- The idle slices of a core count (R332). -/
def State.countIdle (s : State) (core : Nat) : State :=
  let c := s.core core
  let add := fun (m : FMap (BitVec 48)) (i n : Nat) => mset m i (mget m i + BitVec.ofNat 48 n)
  if s.fenced (chipOf core) then s.setCore core { c with idle := add c.idle 7 128, switched := [], abCopied := 0 }
  else
    let occ := s.occupants core
    let idle := (List.range 16).foldl (fun m k =>
      if mget s.taken (16 * core + k) then m else add m (s.sliceIdle core k occ) 8) c.idle
    let held := if coolPeriod s.period then c.withheld else (mkeys c.withheld).foldl (fun m k => mset m k (mget m k - 1)) c.withheld
    s.setCore core { c with idle := idle, withheld := held, switched := [], abCopied := 0 }

/-- The key by which a strand regangs (R33); none for one at level 1 or with a trap due, and for one whose sub-gang has completed its
instruction in some strands only and so stays together whatever the keys (R34). -/
def Crew.mergeKey (c : Crew) (k : Nat) : Option (VAddr × Nat × Nat) :=
  let own := fun (j : Nat) => !(c.st j).handler && (c.st j).pending.isNone
  let g := (c.gangOf k).filter own
  if own k && (g.all (fun j => decide ((c.st j).wait = .ready)) || g.all (fun j => decide ((c.st j).key = (c.st k).key)))
  then some (c.st k).key else none

/-- The sub-gang of strand k after the regang (R33, R34). -/
def Crew.peers (c : Crew) (k : Nat) : List Nat :=
  if (c.st k).handler || (c.st k).pending.isSome then [k]
  else match c.mergeKey k with
    | some key => (c.weaveLive (weaveOf k)).filter (fun j => decide (c.mergeKey j = some key))
    | none => (c.gangOf k).filter (fun j => !(c.st j).handler && (c.st j).pending.isNone)

/-- What a strand that has still to execute the instruction of the sub-gang it has joined waits for: with others at a WCONV, that. -/
def Crew.joinWait (c : Crew) (p : List Nat) : Wait :=
  if p.any (fun j => decide ((c.st j).wait = .wconv)) then .wconv else .joined

/-- Strand k after the regang: its sub-gang has the older of the last issues of those that it is made of; when its members change the
latches become invalid (R33, R51). A strand that joins others inside an instruction has that instruction to execute. -/
def Crew.reganged (c : Crew) (k : Nat) : Strand :=
  let st := c.st k
  let p := c.peers k
  let st1 := { st with gang := if st.handler || st.pending.isSome then ownGang k else sidOf (p.headD k)
                       lastIssue := p.foldl (fun m j => min m (c.lastOf (c.gangOf j))) (c.lastOf (c.gangOf k))
                       favoured := p.any (fun j => (c.st j).favoured) }
  if c.gangOf k = p then st1
  else
    let inside := (c.mergeKey k).isSome && decide (st.wait = .ready) && p.any (fun j => decide ((c.st j).wait ≠ .ready))
    { st1.latchKill with wait := if inside then c.joinWait p else st.wait }

/-- The regang of a weave (R33). -/
def Crew.regang (c : Crew) (w : Nat) : Crew := (c.weaveLive w).foldl (fun (x : Crew) k => x.setSt k (c.reganged k)) c

/-- The weaves of a period in the order of R25: context index c = p mod 4, then c + 1, c + 2, c + 3. -/
def State.issueOrder (s : State) : List Issue :=
  let weaves := s.crews.flatMap (fun e => if e.2.resident then (List.range e.2.weaves).map (fun w => (mget e.2.ctx w, e.1, w)) else [])
  (List.range 4).flatMap (fun j =>
    (weaves.filter (fun x => decide (x.1 = (s.period + j) % 4))).map (fun x => ⟨x.2.1, x.2.2, []⟩))

/-- Flits that a port carries away in an issue period of 16 base cycles, while its far end gives link credit. -/
def portDrain : Nat := 16

/-- A YIELD or a WAIT of strand k that is over completes, but for a crew that is being pre-empted (R183, R184, R191). -/
def State.yieldOver (s : State) (u k : Nat) : State :=
  let st := s.strand u k
  let due := match st.wait with
    | .yielded p => decide (p ≤ s.period)
    | .deadline t => decide (t ≤ s.ltime)
    | _ => false
  if due && decide ((s.crew u).preempt = 0) then s.setStrand u k st.seq else s

/-- The issue period of a crew begins: a restore is over, its YIELDs and WAITs that are over complete, and its weaves regang (R33). -/
def State.crewPeriod (s : State) (u : Nat) : State :=
  let s0 := if (s.crew u).preempt = 3 then s.setCrew u { s.crew u with preempt := 0 } else s
  let s1 := (s0.crew u).liveKeys.foldl (fun x k => x.yieldOver u k) s0
  s1.setCrew u ((List.range (s1.crew u).weaves).foldl Crew.regang (s1.crew u))

/-- ISSUE_PERIOD (R25): the slices that issued nothing count as idle, 16 base cycles pass, waits for this time end and L1's replies come, sub-gangs with equal keys
merge, and the weaves of the new period are considered in order. -/
def execIssuePeriod (s : State) : Host.Outcome State Fault Refusal :=
  let s1 := (List.range coreCount).foldl State.countIdle s
  let ports := s1.ports.foldl (fun m e => if e.2.down || e.2.stalled then m else mset m e.1 { e.2 with queue := e.2.queue - portDrain }) s1.ports
  let s2 := ({ s1 with time := s1.time + 16, taken := [], ports := ports } : State).routerRetry.l1Replies
  let s3 := (mkeys (s2.crews.filter (fun e => e.2.resident))).foldl State.crewPeriod s2
  .next { s3 with issueQ := s3.issueOrder }

/-! Waits that a step of their own ends. -/

/-- RESULT_AVAILABLE (R194): the results that are due. -/
def execResultAvailable (u k : Nat) (s : State) : Host.Outcome State Fault Refusal :=
  let st := s.strand u k
  .next (s.setStrand u k { st with late := st.late.filter (fun e => decide (s.period < e.2)) })

/-- YIELD_EXPIRY (R183): a YIELD that is over. -/
def execYieldExpiry (u k : Nat) (s : State) : Host.Outcome State Fault Refusal :=
  match (s.strand u k).wait with
  | .yielded _ => .next (s.yieldOver u k)
  | _ => .next s

/-- WAIT_DEADLINE (R184): a WAIT that is over. -/
def execWaitDeadline (u k : Nat) (s : State) : Host.Outcome State Fault Refusal :=
  match (s.strand u k).wait with
  | .deadline _ => .next (s.yieldOver u k)
  | _ => .next s

/-- TRAP_ENTRY (R301): a trap that a reply or an earlier attempt left; the strand leaves its sub-gang (R34). -/
def execTrapEntry (u k : Nat) (s : State) : Host.Outcome State Fault Refusal :=
  match (s.strand u k).pending with
  | some t => .next (s.takeTrap u k t)
  | none => .next s

end Sys2Proof.Machine
end

