-- ==== Sys2Proof/Machine/Launches.lean ====
section
/-! DEFINITION. Launch records (R318..R320), completion (R321, R322), host queues and the device launch queue (R323, R324),
distribution and stealing (R325, R326), the fit test (R327), and the placement of crews (R38, R39, R328, R329, R331). -/

namespace Sys2Proof.Machine

/-! Records. -/

/-- A field of a byte string. -/
def field (b : List Byte) (o n : Nat) : Nat := leNat ((b.drop o).take n)

/-- The record in 256 bytes (R318). -/
def launchRec (b : List Byte) : LaunchRec :=
  let f := field b
  { code := BitVec.ofNat 64 (f 0 8), compl := BitVec.ofNat 64 (f 8 8), gdx := f 16 4, gdy := f 20 4, gdz := f 24 4
    vgran := f 28 1, weaves := f 29 1, strands := f 30 1, tiles := f 31 1, accs := f 32 1, stages := f 33 1, flags := f 34 1
    cls := f 35 1, ab := f 36 4, xwin := f 40 4, cistern := f 44 4, dmask := f 48 1, prio := f 49 1, job := f 50 2
    wgroup := f 52 4, rq := BitVec.ofNat 64 (f 56 8), csave := BitVec.ofNat 64 (f 64 8)
    stagemap := mnumber 0 ((List.range 16).map (fun s => f (80 + 4 * s) 4))
    slot := mnumber 0 ((List.range 8).map (fun k => BitVec.ofNat 64 (f (144 + 8 * k) 8))) }

/-- Every crew of every stage. -/
def LaunchRec.crewCount (r : LaunchRec) : Nat := r.stages * r.gridSize

/-- First core and count of a stage. -/
def LaunchRec.stageRange (r : LaunchRec) (s : Nat) : Nat × Nat := (nbits (mget r.stagemap s) 0 10, nbits (mget r.stagemap s) 10 10)

/-- The core lies in a stage's core set (R320). -/
def LaunchRec.stageHas (r : LaunchRec) (s core : Nat) : Bool :=
  let all := decide (r.stages = 1) && decide (mget r.stagemap 0 = 0)
  let x := r.stageRange s
  nbit r.dmask (domOf core) && decide (core < coreCount) && (all || (decide (x.1 ≤ core) && decide (core < x.1 + x.2)))

/-- Cores of a stage (R320). -/
def LaunchRec.stageCores (r : LaunchRec) (s : Nat) : List Nat := (List.range coreCount).filter (r.stageHas s)

/-- A group is held by a live launch of a partition (R324). -/
def State.groupLive (s : State) (part g : Nat) : Bool :=
  s.launches.any (fun e => decide (e.2.state = 1) && decide (e.2.part = part) && decide (e.2.group = g))

/-- The stages' ranges: inside the device, disjoint, not empty (R319). -/
def LaunchRec.stagesBad (r : LaunchRec) : Bool :=
  let all := decide (r.stages = 1) && decide (mget r.stagemap 0 = 0)
  (List.range 16).any (fun s => if s < r.stages then false else decide (mget r.stagemap s ≠ 0))
  || (!all && (List.range r.stages).any (fun s =>
      let x := r.stageRange s
      decide (nbits (mget r.stagemap s) 20 12 ≠ 0) || decide (coreCount < x.1 + x.2)
      || (List.range s).any (fun t => let y := r.stageRange t; decide (x.1 < y.1 + y.2) && decide (y.1 < x.1 + x.2))))
  || (List.range r.stages).any (fun s => (r.stageCores s).isEmpty)

/-- The record is inconsistent (R318, R319). -/
def State.recordBad (s : State) (part : Nat) (b : List Byte) : Bool :=
  let r := launchRec b
  let dimBad := fun (x : Nat) => decide (x = 0) || decide (2 ^ 20 < x)
  let exch := nbit r.flags 2
  decide (r.code.toNat % 4 ≠ 0) || decide (2 ^ 57 ≤ r.code.toNat) || decide (r.compl.toNat % 8 ≠ 0)
  || dimBad r.gdx || dimBad r.gdy || dimBad r.gdz
  || decide (r.vgran = 0) || decide (8 < r.vgran) || decide (r.weaves = 0) || decide (4 < r.weaves)
  || decide (r.strands = 0) || decide (16 < r.strands) || decide (16 < r.tiles) || decide (4 < r.accs)
  || decide (r.stages = 0) || decide (16 < r.stages) || decide (8 ≤ r.flags) || decide (3 ≤ r.cls)
  || decide (r.dmask = 0) || decide (4 ≤ r.dmask) || decide (8 ≤ r.prio) || decide (2 ^ 24 ≤ r.wgroup)
  || decide (r.rq.toNat % 64 ≠ 0) || decide (r.csave.toNat % 4096 ≠ 0) || decide (field b 72 8 ≠ 0) || decide (field b 208 48 ≠ 0)
  || decide (r.ab % 4096 ≠ 0) || decide (r.xwin % 4096 ≠ 0) || decide (2 ^ 19 < r.xwin) || decide (2 ^ 21 < r.ab + 2 * r.xwin)
  || (exch != decide (r.xwin ≠ 0)) || decide (r.cistern % 64 ≠ 0) || decide (6144 < r.cistern)
  || r.stagesBad || (decide (r.cls ≠ 0) && r.whole) || (exch && decide (65536 < r.crewCount))
  || (decide (2 ^ 23 ≤ r.wgroup) && !s.groupLive part r.wgroup)

/-! Fit. -/

/-- Registers of a crew's V allocation. -/
def LaunchRec.vregs (r : LaunchRec) : Nat := 256 * r.vgran * r.weaves * r.strands

/-- The most crews of a record that an empty core admits together (R38, R327). -/
def LaunchRec.perCore (r : LaunchRec) : Nat :=
  let by_ := fun (have_ need : Nat) => if need = 0 then 64 else have_ / need
  min (by_ (4 * by_ 16 r.strands) r.weaves)
    (min (by_ 131072 r.vregs) (min (by_ 16 r.tiles) (min (by_ 4 r.accs) (by_ (2 ^ 21) (r.ab + 2 * r.xwin)))))

/-- The partition that owns a chiplet (R346). -/
def State.chipPart (s : State) (c : Nat) : Nat := nbits (s.chip c).toNat 5 3

/-- A core that a launch may use at this moment: in the stage's set, in service, of the partition (R320). -/
def State.stageCore (s : State) (part : Nat) (r : LaunchRec) (stage core : Nat) : Bool :=
  r.stageHas stage core && !s.fenced (chipOf core) && decide (s.chipPart (chipOf core) = part)

/-- The image that runs. -/
def State.running (s : State) : BootImage := if s.imageUsed = 2 then s.image2 else s.image

/-- The chiplet-partition map of the image that runs gives a chiplet that passed its self-test to a partition (R384). -/
def State.mapGives (s : State) (part c : Nat) : Bool :=
  let e := (mget s.running.chipMap c).toNat
  !mget s.tests.chips c && decide (e < 8) && decide (e = part)

/-- A chiplet is given to a partition: its PART says so, in service, or fenced when PART has been written or the map gives it: PART of a chiplet that
nothing has given to anyone is 0 (R346, R384). -/
def State.given (s : State) (part c : Nat) : Bool :=
  decide (s.chipPart c = part) && (!s.fenced c || decide (part ≠ 0) || s.mapGives part c)

/-- NOFIT (R327, R384): no crew fits on an empty core, a launch that must be whole has too few cores, or its partition has no chiplet. -/
def State.noFit (s : State) (part : Nat) (r : LaunchRec) : Bool :=
  decide (r.perCore = 0)
  || (r.whole && (List.range r.stages).any (fun g =>
      decide (r.perCore * ((List.range coreCount).filter (s.stageCore part r g)).length < r.gridSize)))
  || !(List.range 64).any (s.given part)

/-! Completion. -/

/-- Write the completion word (R322): by the management core's walk of the launch's space; an address that does not translate takes
nothing (R333). -/
def State.wordWrite (s : State) (part space : Nat) (compl word : Word64) : Option (State × Bool) :=
  if compl = 0 || decide (compl.toNat % 8 ≠ 0) then some (s, false)
  else match s.wrVirt noCore part space compl.toNat (leBytes 8 word.toNat) with
    | .ok s1 => some (s1, true)
    | .fault _ _ => some (s, false)
    | .busy => none

/-- The interrupt vector of a host queue rises (R387). -/
def State.raise (s : State) (vec : Nat) : State := { s with msix := mset s.msix vec (mget s.msix vec + 1) }

/-- Complete with a status and its fields: the word, the queue's vector, the LAUNCH future (R322); none while the word must wait. -/
def State.reportLaunch (s : State) (part space : Nat) (compl word fut : Word64) (queue : Nat) : Option State :=
  (s.wordWrite part space compl word).map (fun r =>
    let s1 := if r.2 && decide (queue ≠ 0) then r.1.raise queue else r.1
    if fut = 0 then s1 else s1.resolveOp fut word)

/-- The weir entries of a launch's group go, unless another live launch shares it (R309). -/
def State.dropGroup (s : State) (part g : Nat) : State :=
  if s.groupLive part g then s
  else { s with weirs := mcut s.weirs (weirKey part g 0) (weirKey part g (2 ^ 16)) }

/-- The cistern cells of a claim. -/
def Core.dropClaim (c : Core) (cl : Claim) : Core :=
  { c with claims := c.claims.filter (fun x => decide (x.launch ≠ cl.launch))
           cistern := if cl.evicted then c.cistern else mcut c.cistern (256 * cl.base) (256 * (cl.base + cl.count)) }

/-- A launch's claims are released without saving (R322). -/
def State.dropClaims (s : State) (l : Nat) : State :=
  s.cores.foldl (fun (x : State) e => match e.2.claims.find? (fun c => decide (c.launch = l)) with
    | some cl => x.setCore e.1 (e.2.dropClaim cl)
    | none => x) s

/-- Every crew of the launch has retired, or none is left of one that is cut short (R316, R322). -/
def State.launchOver (s : State) (l : Nat) : Bool :=
  let x := s.launchOf l
  decide (x.state = 1) && !s.crews.any (fun e => decide (e.2.launch = l))
  && (x.cut || (decide (x.record.crewCount ≤ x.retired) && x.restarts.isEmpty))

/-- LAUNCH_COMPLETION in the order of R322, when the launch is over; none while its word must wait for a lease or a page move. -/
def State.completeLaunch (s : State) (l : Nat) : Option State :=
  if s.launchOver l then
    let x := s.launchOf l
    let s1 := (((s.setLaunch l { x with state := 2 }).dropGroup x.part x.group)).dropClaims l
    s1.reportLaunch x.part x.space x.record.compl (mkResult x.ending x.endCode x.endDetail) x.fut x.queue
  else some s

/-! Acceptance. -/

/-- A weir group that no live launch of the partition holds, from 0x80_0000 on (R324). -/
def State.freshGroup (s : State) (part : Nat) : Nat :=
  ((List.range (s.launches.length + 1)).map (· + 2 ^ 23)).find? (fun g => !s.groupLive part g) |>.getD (2 ^ 23)

/-- The id of the n-th acceptance: nonzero, 32 bits (R324). -/
def launchIdAt (n : Nat) : Nat := (n - 1) % (2 ^ 32 - 1) + 1

/-- The number of the next acceptance: the first whose id is that of no live launch. -/
def State.freshNumber (s : State) : Nat :=
  ((List.range (s.launches.length + 1)).map (· + s.nextLaunch)).find? (fun n => decide ((s.launchOf (launchIdAt n)).state ≠ 1))
    |>.getD s.nextLaunch

/-- Accept a record: BAD_RECORD, a space that does not exist, NOFIT, or a live launch (R321, R324, R327, R334). -/
def State.acceptRecord (s : State) (part space : Nat) (b : List Byte) (fut : Word64) (queue : Nat) : Option State :=
  let r := launchRec b
  let stop := fun (status code : Nat) => s.reportLaunch part space r.compl (mkResult status code 0) fut queue
  if s.recordBad part b then stop 2 0
  else if !nbit (mget s.asroot (16 * part + space)).toNat 0 then stop 3 cTranslation
  else if s.noFit part r then stop 8 0
  else
    let g := if r.wgroup = 0 then s.freshGroup part else r.wgroup
    let n := s.freshNumber
    some { s.setLaunch (launchIdAt n) { (default : Launch) with state := 1, accepted := n, part := part, space := space, record := r, group := g
                                                                fut := fut, queue := queue } with
      nextLaunch := n + 1, firstBound := mset s.firstBound (launchIdAt n) false }

/-- HOST_QUEUE_ACCEPT (R323): queue k = 16 p + q. The MSI-X vector of a queue is its number plus 1; vector 0 is the errors'. DESIGN CHOICE:
bytes 12..63 of the header, which R323 calls zero, are not read, so a nonzero one has no effect; the spec states none (R8). DESIGN CHOICE: no record is
taken from a queue whose QCAP is 0 or above 4,096, nor from one whose header does not translate or whose GET cannot be written; a record that is not
aligned to 64, as its queue's address is not, is taken as it lies. The spec gives no outcome for these. -/
def execHostQueueAccept (k : Nat) (s : State) : Host.Outcome State Fault Refusal :=
  let w1 := (mget s.hostq (8 * k + 1)).toNat
  let addr := (mget s.hostq (8 * k)).toNat
  let part := k / 16
  let space := nbits w1 0 4
  let dom := nbits w1 8 1
  if addr = 0 || mget s.cxlDown dom || decide (nbits s.bootstat.toNat 0 4 ≠ 8) then .next s
  else match s.rdVirt noCore part space addr 12 with
    | .ok h =>
      let put := field h 0 4
      let get := field h 4 4
      let cap := field h 8 4
      if put = get || decide (cap = 0) || decide (4096 < cap) then .next s
      else
        let took := fun (o : Option State) => match o with
          | none => s
          | some s1 => match s1.wrVirt noCore part space (addr + 4) (leBytes 4 (get + 1)) with
            | .ok s2 => s2
            | .fault _ _ => s
            | .busy => s
        match s.rdVirt noCore part space (addr + 64 + 256 * (get % cap)) 256 with
        | .ok b => .next (took (s.acceptRecord part space b 0 (k + 1)))
        | .fault _ _ => .next (took (some s))
        | .busy => .next s
    | _ => .next s

/-- DLQ_TAKE (R324): the firmware of domain k takes the oldest record of its queue, or writes the completion word of a cancelled one
(R250). -/
def execDlqTake (k : Nat) (s : State) : Host.Outcome State Fault Refusal :=
  match s.dlq.find? (fun e => decide (e.2.dom = k) && e.2.cancelled) with
  | some e =>
    match s.reportLaunch e.2.part e.2.space (launchRec e.2.bytes).compl (mkResult 4 0 0) e.2.handle 0 with
    | some s1 => .next { s1 with dlq := mset s1.dlq e.1 default }
    | none => .next s
  | none =>
    match s.dlq.find? (fun e => decide (e.2.dom = k)) with
    | some e =>
      match s.acceptRecord e.2.part e.2.space e.2.bytes e.2.handle 0 with
      | some s1 => .next { s1 with dlq := mset s1.dlq e.1 default }
      | none => .next s
    | none => .next s

/-! Distribution. -/

/-- Crews of a chunk of a stage (R325). -/
def LaunchRec.chunkSize (r : LaunchRec) (c : Nat) : Nat := min 64 (r.gridSize - 64 * c)
/-- Chunks of a stage. -/
def LaunchRec.chunks (r : LaunchRec) : Nat := (r.gridSize + 63) / 64
/-- Index of a chunk of a stage. -/
def chunkKey (stage c : Nat) : Nat := 16 * c + stage

/-- The domain that owns a chunk (R325, R326). -/
def Launch.ownerOf (x : Launch) (stage c : Nat) : Nat :=
  let o := mget x.owner (chunkKey stage c)
  let has := fun (d : Nat) => (x.record.stageCores stage).any (fun core => decide (domOf core = d))
  if o ≠ 0 then o - 1 else if has 0 && has 1 then c % 2 else if has 0 then 0 else 1

/-- The chunk from which the distributor of a domain supplies next (R325). -/
def Launch.nextChunk (x : Launch) (dom stage : Nat) : Option Nat :=
  (List.range x.record.chunks).find? (fun c =>
    decide (mget x.supplied (chunkKey stage c) < x.record.chunkSize c) && decide (x.ownerOf stage c = dom))

/-- The stage of a launch whose core set contains a core. -/
def State.stageOf (s : State) (l core : Nat) : Option Nat :=
  let x := s.launchOf l
  (List.range x.record.stages).find? (fun g => s.stageCore x.part x.record g core)

/-- The crew that a launch supplies to a core: one to be restarted, else the next of a chunk: stage, crew index, and the chunk (R326). -/
def State.supply (s : State) (l core : Nat) : Option (Nat × Nat × Option Nat) :=
  let x := s.launchOf l
  if x.state ≠ 1 || x.cut then none
  else match x.restarts.find? (fun e => s.stageCore x.part x.record e.1 core) with
    | some e => some (e.1, e.2, none)
    | none => match s.stageOf l core with
      | none => none
      | some g => (x.nextChunk (domOf core) g).map (fun c => (g, 64 * c + mget x.supplied (chunkKey g c), some c))

/-- The crew has left the distributor. -/
def Launch.take (x : Launch) (stage index : Nat) (chunk : Option Nat) : Launch :=
  match chunk with
  | some c => { x with supplied := mset x.supplied (chunkKey stage c) (mget x.supplied (chunkKey stage c) + 1) }
  | none => { x with restarts := x.restarts.erase (stage, index) }

/-! Resources. -/

/-- Crews resident on a core. -/
def State.residents (s : State) (core : Nat) : List (Nat × Crew) :=
  s.crews.filter (fun e => e.2.resident && decide (e.2.core = core))

/-- Slices of a context index of a core that no weave occupies. -/
def State.freeSlices (s : State) (core ctx : Nat) (more : List (Nat × List Nat)) : List Nat :=
  let used := (s.residents core).flatMap (fun e => (List.range e.2.weaves).flatMap (fun w =>
    if mget e.2.ctx w = ctx then mget e.2.slices w else []))
  let used2 := more.flatMap (fun p => if p.1 = ctx then p.2 else [])
  (List.range 16).filter (fun k => !used.contains k && !used2.contains k)

/-- A context index and slices for each of `n` weaves of `m` strands, the lowest that are free (R38). -/
def State.contexts (s : State) (core m : Nat) : Nat → List (Nat × List Nat) → Option (List (Nat × List Nat))
  | 0, acc => some acc
  | n + 1, acc =>
    match (List.range 4).find? (fun c => decide (m ≤ (s.freeSlices core c acc).length)) with
    | some c => s.contexts core m n (acc ++ [(c, (s.freeSlices core c acc).take m)])
    | none => none

/-- A launch has a crew resident on a core. -/
def State.residentOn (s : State) (l core : Nat) : Bool := (s.residents core).any (fun e => decide (e.2.launch = l))

/-- A claim that stands in the way of a new one: of a live launch, not evicted, and not one that may be evicted (R331). -/
def State.claimStays (s : State) (core : Nat) (cl : Claim) : Bool :=
  decide ((s.launchOf cl.launch).state = 1) && !cl.evicted
  && (s.residentOn cl.launch core || decide ((s.launchOf cl.launch).record.csave = 0))

/-- Two claims overlap. -/
def overlaps (b n : Nat) (cl : Claim) : Bool := decide (b < cl.base + cl.count) && decide (cl.base < b + n)

/-- A base for a claim of `n` records: one that overlaps no live claim if there is one, else one that overlaps only claims that may be
evicted (R38, R331). -/
def State.claimBase (s : State) (core n : Nat) : Option Nat :=
  let c := s.core core
  let bases := ((List.range 97).map (· * 64)).filter (fun b => decide (b + n ≤ 6144))
  (bases.find? (fun b => !c.claims.any (fun cl => overlaps b n cl && !cl.evicted && decide ((s.launchOf cl.launch).state = 1)))).orElse
    (fun _ => bases.find? (fun b => !c.claims.any (fun cl => overlaps b n cl && s.claimStays core cl)))

/-- The launch holds its claim on the core, and it is not evicted. -/
def State.holdsClaim (s : State) (l core : Nat) : Bool :=
  (s.core core).claims.any (fun c => decide (c.launch = l) && !c.evicted)

/-- A crew of a launch fits on a core (R38): its contexts, or none. -/
def State.fits (s : State) (l core : Nat) : Option (List (Nat × List Nat)) :=
  let r := (s.launchOf l).record
  let here := (s.residents core).map (fun e => (s.launchOf e.2.launch).record)
  let sum := fun (f : LaunchRec → Nat) => (here.map f).sum + f r
  if decide (sum LaunchRec.vregs ≤ 131072) && decide (sum LaunchRec.tiles ≤ 16) && decide (sum LaunchRec.accs ≤ 4)
    && decide (sum (fun x => x.ab + 2 * x.xwin) ≤ 2 ^ 21) && (s.holdsClaim l core || (s.claimBase core r.cistern).isSome)
  then s.contexts core r.strands r.weaves []
  else none

/-! Cistern claims. -/

/-- The bytes of record index i of a claim in a cistern save area (R287). -/
def State.savedIndex (s : State) (core : Nat) (cl : Claim) (i : Nat) : List Byte :=
  let recs := (List.range 256).map (fun j => (s.cisternRec core cl i j).toNat)
  recs.flatMap (fun r => leBytes 16 r) ++ recs.map (fun r => BitVec.ofNat 8 (nbits r 128 8))

/-- Evict a claim: it is saved to its launch's area, then its records are free for others (R287, R331); none while that cannot be
done. -/
def State.evict (s : State) (core : Nat) (cl : Claim) : Option State :=
  let l := s.launchOf cl.launch
  let r := (List.range cl.count).foldl (fun (w : WrRes) i => match w with
    | .ok s1 => s1.wrVirt noCore l.part l.space (l.record.csave.toNat + 4352 * i) (s.savedIndex core cl i)
    | x => x) (.ok s)
  match r with
  | .ok s1 =>
    let c := s1.core core
    some ((s1.setLaunch cl.launch { l with saved := true }).setCore core { c with
      claims := c.claims.map (fun x => if x.launch = cl.launch then { x with evicted := true } else x)
      cistern := mcut c.cistern (256 * cl.base) (256 * (cl.base + cl.count)) })
  | _ => none

/-- Record j of an index read back from a cistern save area. -/
def restoredRec (b : List Byte) (j : Nat) : BitVec 136 :=
  BitVec.ofNat 136 (field b (16 * j) 16 + field b (4096 + j) 1 * 2 ^ 128)

/-- Give a launch its claim on a core: new, or restored from its save area when its claim here was evicted or a crew of it resumes here after
its claim was saved elsewhere (R287, R313, R331); none while that cannot be done. -/
def State.claim (s : State) (l core : Nat) (resumes : Bool) : Option State :=
  let x := s.launchOf l
  let n := x.record.cistern
  if s.holdsClaim l core then some s
  else match s.claimBase core n with
    | none => none
    | some b =>
      let victims := (s.core core).claims.filter (fun cl => overlaps b n cl && !cl.evicted && decide ((s.launchOf cl.launch).state = 1))
      let s1 := victims.foldl (fun (o : Option State) cl => o.bind (fun s => s.evict core cl)) (some s)
      s1.bind (fun s1 =>
        let c := s1.core core
        let back := c.claims.any (fun cl => decide (cl.launch = l)) || (resumes && x.saved)
        let cl : Claim := { launch := l, base := b, count := n, seed := s1.freeAt x.part, evicted := false }
        let c1 := { c with claims := cl :: c.claims.filter (fun y => decide (y.launch ≠ l)) }
        let s2 := (s1.setCore core c1).freeUp x.part
        if !back then some s2
        else
          (List.range n).foldl (fun (o : Option State) i => o.bind (fun s =>
            match s.rdVirt noCore x.part x.space (x.record.csave.toNat + 4352 * i) 4352 with
            | .ok bytes =>
              let c := s.core core
              some (s.setCore core { c with cistern := mput c.cistern (256 * (b + i)) ((List.range 256).map (fun j => some (restoredRec bytes j))) })
            | _ => none)) (some s2))

/-! Placement. -/

/-- A strand at creation (R39, R69). -/
def newStrand (w x : Nat) (code : Word64) (period : Nat) : Strand :=
  { (default : Strand) with
    pc := code.setWidth 57, amask := 0xFFFFFFFF, live := 0xFFFFFFFF, gang := 0, lastIssue := period
    sto := writeThreads [] 0 0xFFFFFFFF (fun t => seedSto 0 t x w) 32 }

/-- A crew at creation (R39). -/
def newCrew (l : Nat) (r : LaunchRec) (stage index core uid seed period : Nat) (ctxs : List (Nat × List Nat)) : Crew :=
  { (default : Crew) with
    launch := l, stage := stage, index := index, core := core, resident := true
    weaves := r.weaves, strands := r.strands, vgran := r.vgran, tiles := r.tiles, accs := r.accs, ab := r.ab, xwin := r.xwin
    ctx := mnumber 0 (ctxs.map (·.1)), slices := mnumber 0 (ctxs.map (·.2))
    strand := (List.range r.weaves).foldl (fun m w =>
      (List.range r.strands).foldl (fun m x => mset m (strandKey w x) (newStrand w x r.code period)) m) []
    abSeed := seed, savebase := ((Config.savePage uid).setWidth 64) <<< 21 }

/-- A clock-gated slice on which a crew is placed wakes in one issue period (R378). -/
def State.wakeSlices (s : State) (core : Nat) (ctxs : List (Nat × List Nat)) : State :=
  let c := s.core core
  s.setCore core { c with
    sliceUsed := (ctxs.flatMap (·.2)).foldl (fun m k => mset m k (if mget c.sliceGated k then s.clock + 8 else s.clock)) c.sliceUsed
    sliceGated := (ctxs.flatMap (·.2)).foldl (fun m k => mset m k false) c.sliceGated }

/-- The crew of a launch is created on a core (R329). -/
def State.createCrew (s : State) (l core stage index : Nat) (ctxs : List (Nat × List Nat)) : State :=
  let part := (s.launchOf l).part
  let c := newCrew l (s.launchOf l).record stage index core s.nextId (s.freeAt part) s.period ctxs
  { ((s.setCrew s.nextId c).wakeSlices core ctxs).freeUp part with nextId := s.nextId + 1 }

/-- The slot of a core that counts for a launch: its lowest valid one (R328). -/
def State.slotFor (s : State) (l core : Nat) : Option Slot :=
  ((List.range 8).map (fun k => mget s.slots (8 * core + k))).find? (fun t => t.valid && decide (t.launch = l) && decide (t.coreOff = 0))

/-- Crews of a launch resident on a core. -/
def State.residentCount (s : State) (l core : Nat) : Nat := ((s.residents core).filter (fun e => decide (e.2.launch = l))).length

/-- How many more crews of a launch a core admits as it stands (R38). -/
def State.admits (s : State) (l core : Nat) : Nat :=
  let r := (s.launchOf l).record
  let here := (s.residents core).map (fun e => (s.launchOf e.2.launch).record)
  let left := fun (have_ : Nat) (f : LaunchRec → Nat) => if f r = 0 then 64 else (have_ - (here.map f).sum) / f r
  let weaves := ((List.range 4).map (fun c => (s.freeSlices core c []).length / r.strands)).sum
  if !s.holdsClaim l core && (s.claimBase core r.cistern).isNone then 0
  else min (weaves / r.weaves) (min (left 131072 LaunchRec.vregs) (min (left 16 LaunchRec.tiles) (min (left 4 LaunchRec.accs)
    (left (2 ^ 21) (fun x => x.ab + 2 * x.xwin)))))

/-- Crews of a stage that have still to be placed, those that resume apart (R316, R326). -/
def Launch.leftOf (x : Launch) (g : Nat) : Nat :=
  x.record.gridSize - ((List.range x.record.chunks).map (fun c => mget x.supplied (chunkKey g c))).sum
    + (x.restarts.filter (fun e => decide (e.1 = g))).length

/-- Crews that the distributor of a domain has still to supply to a stage (R325). -/
def Launch.ownLeft (x : Launch) (g d : Nat) : Nat :=
  (((List.range x.record.chunks).filter (fun c => decide (x.ownerOf g c = d))).map (fun c =>
    x.record.chunkSize c - mget x.supplied (chunkKey g c))).sum

/-- The sizes of its chunks of which no crew has been supplied, the last first, as the other distributor steals them (R326). -/
def Launch.fresh (x : Launch) (g d : Nat) : List Nat :=
  (((List.range x.record.chunks).reverse).filter (fun c => decide (x.ownerOf g c = d) && decide (mget x.supplied (chunkKey g c) = 0))).map
    x.record.chunkSize

/-- STEAL of the policy word (R330). -/
def State.stealing (s : State) : Bool := nbit s.fwcfg.toNat 2

/-- More crews of a launch that a domain's cores of a stage can take: slots and free resources. -/
def State.roomOf (s : State) (l g d : Nat) : Nat :=
  let x := s.launchOf l
  ((List.range coreCount).map (fun core =>
    if decide (domOf core = d) && s.stageCore x.part x.record g core then
      match s.slotFor l core with
      | some t => min (min (t.maxc - s.residentCount l core) t.quota) (s.admits l core)
      | none => 0
    else 0)).sum

/-- Every crew of a launch that must be whole can be bound together: in each stage each domain has room for the crews that its distributor supplies,
perhaps after some steals, and both for those that start again (R325..R327). -/
def State.allBound (s : State) (l : Nat) : Bool :=
  let x := s.launchOf l
  !x.record.whole || (List.range x.record.stages).all (fun g =>
    let room := s.roomOf l g
    let again := (x.restarts.filter (fun e => decide (e.1 = g))).length
    let ok := fun (a b : Nat) => decide (a ≤ room 0) && decide (b ≤ room 1) && decide (a + b + again ≤ room 0 + room 1)
    let stolen := fun (d j : Nat) => ((x.fresh g d).take j).sum
    ok (x.ownLeft g 0) (x.ownLeft g 1) || (s.stealing
      && ((List.range ((x.fresh g 1).length + 1)).any (fun j => ok (x.ownLeft g 0 + stolen 1 j) (x.ownLeft g 1 - stolen 1 j))
        || (List.range ((x.fresh g 0).length + 1)).any (fun j => ok (x.ownLeft g 0 - stolen 0 j) (x.ownLeft g 1 + stolen 0 j)))))

/-- A launch that must be whole has begun to be dispatched on the core and has crews left: no other takes its room (R327). -/
def State.midBinding (s : State) (l core : Nat) : Bool :=
  s.launches.any (fun e => decide (e.1 ≠ l) && e.2.record.whole && decide (e.2.state = 1) && !e.2.cut
    && (List.range e.2.record.stages).any (fun g => decide (0 < e.2.leftOf g) && s.stageCore e.2.part e.2.record g core)
    && s.crews.any (fun c => decide (c.2.launch = e.1)) && (s.slotFor e.1 core).isSome && s.allBound e.1)

/-- A crew of the launch that is switched out and may resume on a core: it is supplied before any new one (R313, R326). -/
def State.resuming (s : State) (l core : Nat) : Option Nat :=
  (s.crews.find? (fun e => decide (e.2.launch = l) && decide (e.2.preempt = 2) && !e.2.retiring
    && s.stageCore (s.launchOf l).part (s.launchOf l).record e.2.stage core)).map (·.1)

/-- Slot k of a core is open to another crew of its launch, if there is one (R328, R329). -/
def State.slotOpen (s : State) (core k : Nat) : Bool :=
  let t := mget s.slots (8 * core + k)
  t.valid && decide (t.coreOff = 0) && !t.hold && decide (t.quota ≠ 0)
  && !(List.range k).any (fun j => let y := mget s.slots (8 * core + j); y.valid && decide (y.coreOff = 0) && decide (y.launch = t.launch))
  && decide (s.residentCount t.launch core < t.maxc)

/-- The launch of slot k has a crew to supply, a resuming one or a new one. -/
def State.slotSupplies (s : State) (core k : Nat) : Bool :=
  let l := (mget s.slots (8 * core + k)).launch
  (s.resuming l core).isSome || (s.supply l core).isSome

/-- Slot k of a core may place a crew (R328, R329). -/
def State.slotPlaces (s : State) (core k : Nat) : Bool :=
  let l := (mget s.slots (8 * core + k)).launch
  s.slotOpen core k && s.slotSupplies core k && (s.fits l core).isSome && s.allBound l && !s.midBinding l core

/-- The binding has placed a crew: QUOTA and PLACED (R328, R329). -/
def Slot.count (t : Slot) : Slot :=
  { t with quota := if t.quota = 0xFFFFFFFF then t.quota else t.quota - 1, placed := (t.placed + 1) % 2 ^ 32 }

/-- The first binding of a launch invalidates the instruction caches of the cores that it uses (R140, R329). -/
def State.firstBind (s : State) (l : Nat) : State :=
  let x := s.launchOf l
  if mget s.firstBound l || x.state ≠ 1 then s
  else
    let used := fun (core : Nat) => (List.range x.record.stages).any (fun g => x.record.stageHas g core)
    { s with firstBound := mset s.firstBound l true, icache := s.icache.filter (fun e => !used e.core) }

/-- CREW_PLACEMENT (R329): on core k, under its first slot that may place a crew; a crew that resumes there comes first, by CREW_RESTORE. A launch that
must be whole leaves to a steal what its own domain could not finish (R327). -/
def execCrewPlacement (k : Nat) (s : State) : Host.Outcome State Fault Refusal :=
  if coreCount ≤ k || s.fenced (chipOf k) then .next s
  else match (List.range 8).find? (s.slotPlaces k) with
    | none => .next s
    | some j =>
      let t := mget s.slots (8 * k + j)
      if (s.resuming t.launch k).isSome then .next s
      else match s.supply t.launch k, s.fits t.launch k, (s.firstBind t.launch).claim t.launch k false with
      | some (g, i, c), some ctxs, some s1 =>
        let s2 := s1.setLaunch t.launch ((s1.launchOf t.launch).take g i c)
        let s3 := { s2 with slots := mset s2.slots (8 * k + j) t.count }.createCrew t.launch k g i ctxs
        .next (if s3.allBound t.launch then s3 else s)
      | _, _, _ => .next s

/-! Stealing. -/

/-- A core of a domain has room for a crew of a launch and stage under a bind record. -/
def State.roomIn (s : State) (dom l stage : Nat) : Bool :=
  (List.range coreCount).any (fun core =>
    decide (domOf core = dom) && s.stageCore (s.launchOf l).part (s.launchOf l).record stage core && (s.fits l core).isSome
    && (List.range 8).any (fun k => decide ((mget s.slots (8 * core + k)).launch = l) && s.slotOpen core k))

/-- STEAL_REQUEST (R326): the distributor of `dom` for launch and stage l = 16 launch + stage. -/
def execStealRequest (dom l : Nat) (s : State) : Host.Outcome State Fault Refusal :=
  let x := s.launchOf (l / 16)
  let g := l % 16
  let asked := s.steals.any (fun e => e.2.live && decide (e.2.launch = l / 16) && decide (e.2.stage = g)
    && decide (e.2.dom = dom))
  if s.stealing && decide (dom < 2) && decide (x.state = 1) && decide (g < x.record.stages) && !x.cut && !mget x.noneSeen (16 * dom + g) && !asked
    && (x.nextChunk dom g).isNone && !x.restarts.any (fun e => decide (e.1 = g))
    && !s.crews.any (fun e => decide (e.2.launch = l / 16) && decide (e.2.stage = g) && decide (e.2.preempt = 2)) && s.roomIn dom (l / 16) g
  then .next { s with steals := mset s.steals s.nextId { live := true, answer := false, dom := dom, launch := l / 16, stage := g, chunk := none }
                      nextId := s.nextId + 1 }
  else .next s

/-- STEAL_REQUEST_ARRIVAL (R326): message k at the other distributor, answered against the state as it is. -/
def execStealRequestArrival (k : Nat) (s : State) : Host.Outcome State Fault Refusal :=
  let m := mget s.steals k
  if m.live && !m.answer && !s.bridgeDown then
    let x := s.launchOf m.launch
    let c := ((List.range x.record.chunks).reverse).find? (fun c =>
      decide (x.ownerOf m.stage c = 1 - m.dom) && decide (mget x.supplied (chunkKey m.stage c) = 0))
    let s1 := match c with
      | some c => s.setLaunch m.launch { x with owner := mset x.owner (chunkKey m.stage c) (m.dom + 1)
                                                noneSeen := mset x.noneSeen (16 * (1 - m.dom) + m.stage) false }
      | none => s
    .next { s1 with steals := mset s1.steals k { m with answer := true, chunk := c } }
  else .next s

/-- STEAL_ANSWER_ARRIVAL (R326): answer k back at the distributor that asked. -/
def execStealAnswerArrival (k : Nat) (s : State) : Host.Outcome State Fault Refusal :=
  let m := mget s.steals k
  if m.live && m.answer && !s.bridgeDown then
    let x := s.launchOf m.launch
    let s1 := if m.chunk.isNone then s.setLaunch m.launch { x with noneSeen := mset x.noneSeen (16 * m.dom + m.stage) true } else s
    .next { s1 with steals := mset s1.steals k default }
  else .next s

end Sys2Proof.Machine
end

