-- ==== Sys2Proof/Machine/Crews.lean ====
section
/-! DEFINITION. The life of crews after placement: retirement (R40, R322), pre-emption with the save area (R285, R286, R312),
resumption (R313), and the reset of a chiplet (R315, R316). -/

namespace Sys2Proof.Machine

/-! Retirement. -/

/-- A crew leaves its slices: their idle count starts (R378). -/
def State.idleSlices (s : State) (c : Crew) : State :=
  let core := s.core c.core
  s.setCore c.core { core with
    sliceUsed := ((List.range c.weaves).flatMap (fun w => mget c.slices w)).foldl (fun m k => mset m k s.clock) core.sliceUsed }

/-- CREW_RETIRE (R40): crew k, when its waits are over, one that TERM ended while it was switched out too (R316); the launch completes with its
last crew (R322). A launch that is over and whose word had to wait completes too. -/
def execCrewRetire (k : Nat) (s : State) : Host.Outcome State Fault Refusal :=
  let c := s.crew k
  if c.retiring && crewDrained s k then
    let x := s.launchOf c.launch
    let s0 := if c.resident then (s.dropCrewRecords k).idleSlices c else s.dropCrewRecords k
    let s1 := ({ s0 with crews := mset s0.crews k default }).setLaunch c.launch { x with retired := x.retired + 1 }
    match s1.completeLaunch c.launch with
    | some s2 => .next s2
    | none => .next s
  else
    match s.launches.find? (fun e => s.launchOver e.1) with
    | some e => .next ((s.completeLaunch e.1).getD s)
    | none => .next s

/-! The save area. -/

/-- A table of threads as bytes: registers `lo` to `lo + n - 1` (R286). -/
def regBytes (m : FMap Word) (n : Nat) : List Byte := (mflat 0 (32 * n) m).flatMap (fun w => leBytes 4 w.toNat)

/-- The control block of a strand in a period: the fields of R286 in the model's order (the spec names them without places); the gang key is
the triple of R33, the age counts issue periods. -/
def controlBytes (st : Strand) (period : Nat) : List Byte :=
  leBytes 8 st.pc.toNat ++ leBytes 4 st.amask.toNat ++ leBytes 4 st.live.toNat ++ leBytes 4 st.mr.toNat ++ leBytes 4 st.f.toNat
  ++ leBytes 1 st.flags.toNat ++ leBytes 1 st.lvalid.toNat ++ leBytes 1 st.stack.length ++ leBytes 1 st.loops.length
  ++ leBytes 1 (st.handler.toNat + 2 * st.replaying.toNat) ++ leBytes 3 0
  ++ leBytes 8 (match st.wait with | .deadline t => t | _ => 0) ++ leBytes 8 (period - st.lastIssue)
  ++ leBytes 8 st.tcause.toNat ++ leBytes 8 st.tepc.toNat ++ leBytes 8 st.tval.toNat ++ leBytes 4 st.tmask.toNat
  ++ leBytes 4 ((List.range 4).map (fun j => if (mget st.joins j).srcs.isEmpty then 0 else 2 ^ j)).sum
  ++ leBytes 8 st.key.1.toNat ++ leBytes 4 st.key.2.1 ++ leBytes 4 st.key.2.2

/-- The reconvergence stack, entry 0 the lowest: kind, mask, PC (R286). -/
def stackBytes (st : Strand) : List Byte :=
  st.stack.reverse.flatMap (fun e => leBytes 4 e.pending.toNat ++ leBytes 4 e.mask.toNat ++ leBytes 8 e.pc.toNat)

/-- The hardware loops, innermost last: start, the low 32 bits of the end, remaining (R286). -/
def loopBytes (st : Strand) : List Byte :=
  st.loops.reverse.flatMap (fun l => leBytes 8 l.start.toNat ++ leBytes 4 l.fin.toNat ++ leBytes 4 l.remaining)

/-- Fill a byte string with zeros up to a length. -/
def padTo (n : Nat) (l : List Byte) : List Byte := l ++ List.replicate (n - l.length) 0

/-- A strand record (R286): offsets and bytes. -/
def strandParts (c : Crew) (st : Strand) (period : Nat) : List (Nat × List Byte) :=
  [(0, regBytes st.v (8 * c.vgran)), (0x2000, regBytes st.o 8), (0x2400, regBytes st.l 4),
   (0x2600, (List.range 32).flatMap (fun n => leBytes 8 (st.sreg n).toNat)),
   (0x2700, (List.range 8).flatMap (fun n => leBytes 4 (st.pred n).toNat)),
   (0x2720, regBytes st.sto 1), (0x27A0, controlBytes st period), (0x2800, padTo 256 (stackBytes st)), (0x2900, padTo 64 (loopBytes st)),
   (0x2940, List.replicate 1728 0)]

/-- A mask of strand numbers. -/
def strandMask (c : Crew) (m : FMap Bool) : Nat := ((c.keys.filter (mget m)).map (2 ^ ·)).sum

/-- The crew header (R285): the fields in the model's order. At the widths of their rules they take more than 64 bytes, so they lie in bytes
0..127; the trap frames of R302 follow from byte 0x400. -/
def headerBytes (c : Crew) (r : LaunchRec) : List Byte :=
  leBytes 4 c.launch ++ leBytes 2 c.stage ++ leBytes 2 (r.xrank c.launch c.stage c.index)
  ++ leBytes 8 (c.index % r.gdx + c.index / r.gdx % r.gdy * 2 ^ 20 + c.index / r.gdx / r.gdy * 2 ^ 40)
  ++ leBytes 1 c.vgran ++ leBytes 1 c.weaves ++ leBytes 1 c.strands ++ leBytes 1 c.tiles ++ leBytes 1 c.accs ++ leBytes 1 c.swapped.toNat
  ++ leBytes 2 r.cistern ++ leBytes 4 c.ab ++ leBytes 4 c.xwin
  ++ leBytes 8 (strandMask c c.cbar) ++ leBytes 8 (strandMask c c.xarr) ++ leBytes 8 (c.xgreatest c.xmax) ++ leBytes 8 c.cx
  ++ (List.range 4).flatMap (fun k => let f := c.accForm k; leBytes 4 (f.ranked.toNat + 2 * f.len) ++ leBytes 4 f.base.toNat)

/-- Suspended copies of a crew in issue order (R285). -/
def State.crewCopies (s : State) (u : Nat) : List (Nat × Op) :=
  let ins := fun (l : List (Nat × Op)) (e : Nat × Op) =>
    l.takeWhile (fun x => decide (x.2.issuedAt ≤ e.2.issuedAt)) ++ [e] ++ l.dropWhile (fun x => decide (x.2.issuedAt ≤ e.2.issuedAt))
  (s.ops.filter (fun e => decide (e.2.crew = u) && (match e.2.kind with | .copy _ => true | _ => false))).foldl ins []

/-- The granules of a copy that remain. -/
def granulesLeft (op : Op) (fn : Nat) : Nat :=
  let x := op.copyShape fn
  if op.started then
    (((List.range x.units).filter (fun u => !op.unitDone x u)).map x.granule).eraseDups.length
  else (copyBytes op.c + 4095) / 4096

/-- The copy contexts (R285): remaining granules, weir, operation number. -/
def copyParts (l : List (Nat × Op)) : List (Nat × List Byte) :=
  ((List.range l.length).zip l).map (fun e =>
    (0x1000 + 64 * e.1, padTo 64 (leBytes 8 (granulesLeft e.2.2 (match e.2.2.kind with | .copy fn => fn | _ => 0))
      ++ leBytes 8 (copyWeir e.2.2.c) ++ leBytes 8 (handleSeq e.2.1))))

/-- An accumulator in the save area (R285): plain as R106, ranked as R107. -/
def accBytes (c : Crew) (k : Nat) : List Byte :=
  if (c.accForm k).ranked then
    (List.range 128).flatMap (fun i =>
      let l := c.rankRow k i
      slotBytes (l ++ List.replicate (32 - l.length) (0xFFFFFFFF, 0xFFFFFFFF)))
  else (mflat 0 accSize (mslice c.acc (accSize * k) accSize)).flatMap (fun w => leBytes 4 w.toNat)

/-- The buffer in the save area: the claim, the front bank, the shadow bank (R285). -/
def abBytes (c : Crew) : List Byte :=
  c.abRead 0 (c.ab + c.xwin) ++ (List.range c.xwin).map (fun o => c.abByte (c.shadowIndex o))

/-- Everything that a save writes: offsets within the save area, and bytes (R285). -/
def State.saveParts (s : State) (u : Nat) : List (Nat × List Byte) :=
  let c := s.crew u
  [(0, headerBytes c (s.crewLaunch c).record)] ++ copyParts (s.crewCopies u)
  ++ c.keys.flatMap (fun k => (strandParts c (c.st k) s.period).map (fun p => (0x2000 + 0x3000 * k + p.1, p.2)))
  ++ (List.range c.tiles).map (fun k => (0xC2000 + 0x2200 * k, mflat 0 tileSize (c.tileBytes k)))
  ++ (List.range c.accs).map (fun k => (0x100000 + 0x20000 * k, accBytes c k))
  ++ [(0x180000, abBytes c)]

/-- Write parts at an address. -/
def State.writeParts (s : State) (part space base : Nat) (l : List (Nat × List Byte)) : WrRes :=
  l.foldl (fun w p => match w with
    | .ok s1 => s1.wrVirt noCore part space (base + p.1) p.2
    | x => x) (.ok s)

/-! Pre-emption. -/

/-- Crews that a request for crew u names: with CORES or the exchange flag, all of its launch (R312). -/
def State.requestSet (s : State) (u : Nat) : List Nat :=
  let c := s.crew u
  if (s.crewLaunch c).record.whole then mkeys (s.crews.filter (fun e => decide (e.2.launch = c.launch) && e.2.resident)) else [u]

/-- PREEMPTION_REQUEST (R312): the firmware asks for crew k; one that is being retired retires. -/
def execPreemptionRequest (k : Nat) (s : State) : Host.Outcome State Fault Refusal :=
  let c := s.crew k
  if c.resident && decide (c.launch ≠ 0) then
    .next ((s.requestSet k).foldl (fun s u =>
      let c := s.crew u
      s.setCrew u (if c.retiring || c.preempt = 2 then c else { c with preempt := 1 })) s)
  else .next s

/-- What stays on the device of a strand that is switched out: counts on the base die, joins, and what a later acknowledgement needs, O7 of the threads
whose tags are still to come among it. -/
def Strand.residue (st : Strand) : Strand :=
  { (default : Strand) with
    o := writeThreads [] (32 * 7) st.tagWait (st.oreg 7) 32, live := st.live, joins := st.joins, heldAtEntry := st.heldAtEntry, scHold := st.scHold
    unacked0 := st.unacked0, unacked1 := st.unacked1, ended := st.ended, fence := st.fence, tagWait := st.tagWait, tagSaved := st.tagWait }

/-- The crew after its save: its place, its shape and its strands' residue (R312). -/
def Crew.residue (c : Crew) : Crew :=
  { (default : Crew) with
    launch := c.launch, stage := c.stage, index := c.index, core := c.core, weaves := c.weaves, strands := c.strands, vgran := c.vgran
    tiles := c.tiles, accs := c.accs, ab := c.ab, xwin := c.xwin, savebase := c.savebase, preempt := 2
    strand := c.keys.foldl (fun m k => mset m k (c.st k).residue) [] }

/-- What the save leaves in the save area outside the crew's claims: free bytes, under the parts that it writes and outside the trap frames, which are
the strands' own (R10, R285, R302). One that cannot be written stays. -/
def State.saveNoise (s : State) (part space base : Nat) : State :=
  ((Config.saveNoise (s.freeAt part)).filter (fun e => decide (e.1 < 0x400) || (decide (0x1000 ≤ e.1) && decide (e.1 < 0x380000)))).foldl (fun s e =>
    match s.wrVirt noCore part space (base + e.1) [e.2] with
    | .ok s1 => { s1 with seqs := s.seqs }
    | _ => s) (s.freeUp part)

/-- Sub-gangs that have split leave no latches, though no issue period has come since (R34, R51). -/
def Crew.splitLatches (c : Crew) : Crew :=
  c.liveKeys.foldl (fun (x : Crew) k => if (c.gangOf k).all (c.peers k).contains then x else x.setSt k (x.st k).latchKill) c

/-- The slices of a crew count as occupied by its save in this period (R332). -/
def State.markSwitched (s : State) (c : Crew) : State :=
  let core := s.core c.core
  s.setCore c.core { core with switched := ((List.range c.weaves).flatMap (fun w => mget c.slices w)).foldl (fun m k => mset m k true) core.switched }

/-- CREW_SAVE (R312): crew k, once it is stable; strands that a barrier has released pass it first. -/
def execCrewSave (k : Nat) (s : State) : Host.Outcome State Fault Refusal :=
  let s00 := passBarrier s k ((s.crew k).keys.filter (mget (s.crew k).passed))
  let s0 := s00.setCrew k (s00.crew k).splitLatches
  let c := s0.crew k
  let l := s0.crewLaunch c
  if c.resident && decide (c.preempt = 1) && !c.retiring && s0.stable k then
    match (s0.saveNoise l.part l.space c.savebase.toNat).writeParts l.part l.space c.savebase.toNat (s0.saveParts k) with
    | .ok s1 => .next (((s1.idleSlices c).markSwitched c).setCrew k c.residue)
    | _ => .next s
  else .next s

/-! Resumption. -/

/-- Threads of registers from bytes. -/
def regsFrom (b : List Byte) : FMap Word := mnumber 0 ((List.range (b.length / 4)).map (fun i => BitVec.ofNat 32 (field b (4 * i) 4)))

/-- Entries of 16 bytes. -/
def entries16 (b : List Byte) (n : Nat) : List (List Byte) := (List.range n).map (fun i => (b.drop (16 * i)).take 16)

/-- A strand from its record, over its residue: tags that have come since the save are in O7 (R117, R286, R313). DESIGN CHOICE: O7 of a thread whose
tagged access failed in the meantime is as it was at the save; the spec gives it no value. -/
def strandFrom (c : Crew) (k : Nat) (b : List Byte) (period : Nat) : Strand :=
  let st := c.st k
  let q := fun (o n : Nat) => (b.drop o).take n
  let f := fun (o n : Nat) => field b (0x27A0 + o) n
  let handler := nbit (f 28 1) 0
  { st with
    v := regsFrom (q 0 (1024 * c.vgran)), o := writeThreads (regsFrom (q 0x2000 1024)) (32 * 7) (st.tagSaved &&& ~~~st.tagWait) (st.oreg 7) 32, tagSaved := 0, l := regsFrom (q 0x2400 512)
    s := mnumber 0 ((List.range 32).map (fun n => BitVec.ofNat 64 (field b (0x2600 + 8 * n) 8)))
    p := mset (mnumber 0 ((List.range 8).map (fun n => BitVec.ofNat 32 (field b (0x2700 + 4 * n) 4)))) 0 0
    sto := regsFrom (q 0x2720 128)
    pc := BitVec.ofNat 57 (f 0 8), amask := BitVec.ofNat 32 (f 8 4), live := BitVec.ofNat 32 (f 12 4), mr := BitVec.ofNat 32 (f 16 4)
    f := BitVec.ofNat 32 (f 20 4), flags := BitVec.ofNat 4 (f 24 1), lvalid := BitVec.ofNat 4 (f 25 1)
    stack := ((entries16 (q 0x2800 256) (f 26 1)).map (fun e =>
      (⟨decide (field e 0 4 ≠ 0), BitVec.ofNat 32 (field e 4 4), BitVec.ofNat 57 (field e 8 8)⟩ : StackEntry))).reverse
    loops := ((entries16 (q 0x2900 64) (f 27 1)).map (fun e =>
      let a : VAddr := BitVec.ofNat 57 (field e 0 8)
      (⟨a, a + BitVec.ofNat 57 ((field e 8 4 + 2 ^ 32 - field e 0 4) % 2 ^ 32), field e 12 4⟩ : LoopState))).reverse
    handler := handler, replaying := nbit (f 28 1) 1
    wait := if f 32 8 = 0 then .ready else .deadline (f 32 8)
    tcause := BitVec.ofNat 64 (f 48 8), tepc := BitVec.ofNat 64 (f 56 8), tval := BitVec.ofNat 64 (f 64 8), tmask := BitVec.ofNat 32 (f 72 4)
    gang := sidOf k, lastIssue := period - f 40 8 }

/-- Strands resume as their own sub-gangs and those with equal keys join at once, their latches as saved; the sub-gangs take their ages in
the order of their lowest strands (R35, R51, R313). -/
def Crew.joinGangs (c : Crew) (period : Nat) : Crew :=
  c.liveKeys.foldl (fun (x : Crew) k =>
    let st := c.st k
    let p := if st.handler then [k]
      else (c.weaveLive (weaveOf k)).filter (fun j => decide ((c.st j).key = st.key) && !(c.st j).handler)
    let inside := decide (st.wait = .ready) && p.any (fun j => decide ((c.st j).wait ≠ .ready))
    x.setSt k { st with gang := if st.handler then ownGang k else sidOf (p.headD k)
                        lastIssue := period + sidOf (p.headD k) - 16
                        wait := if inside then .joined else st.wait }) c

/-- Ranked lists from the slot layout. -/
def listsFrom (b : List Byte) : List (List (Word × Word)) :=
  (List.range 128).map (fun i => (slotPairs ((b.drop (256 * i)).take 256)).filter (fun p => decide (p ≠ (0xFFFFFFFF, 0xFFFFFFFF))))

/-- Bytes of a crew's save area, region by region. -/
structure SaveImage where
  header : List Byte
  strands : List (List Byte)
  tiles : List (List Byte)
  accs : List (List Byte)
  ab : List Byte

/-- Read several ranges. -/
def State.readAll (s : State) (part space : Nat) : List (Nat × Nat) → Option (List (List Byte))
  | [] => some []
  | (a, n) :: r =>
    match s.rdVirt noCore part space a n with
    | .ok l => (s.readAll part space r).map (l :: ·)
    | _ => none

/-- The save area of a crew (R285). -/
def State.readSave (s : State) (u : Nat) : Option SaveImage :=
  let c := s.crew u
  let l := s.crewLaunch c
  let b := c.savebase.toNat
  let rd := s.readAll l.part l.space
  match rd [(b, 128)], rd (c.keys.map (fun k => (b + 0x2000 + 0x3000 * k, 0x3000))),
    rd ((List.range c.tiles).map (fun k => (b + 0xC2000 + 0x2200 * k, tileSize))),
    rd ((List.range c.accs).map (fun k => (b + 0x100000 + 0x20000 * k, 0x20000))), rd [(b + 0x180000, c.ab + 2 * c.xwin)] with
  | some h, some st, some t, some a, some ab => some ⟨h.flatten, st, t, a, ab.flatten⟩
  | _, _, _, _, _ => none

/-- Strand numbers of a mask. -/
def maskStrands (c : Crew) (m : Nat) : FMap Bool := markAll [] (c.keys.filter (nbit m))

/-- The crew from its save area, on a core (R313). -/
def crewFrom (c : Crew) (m : SaveImage) (core period : Nat) (ctxs : List (Nat × List Nat)) : Crew :=
  let f := field m.header
  let swapped := decide (f 21 1 ≠ 0)
  let form := fun (k : Nat) => ({ ranked := nbit (f (64 + 8 * k) 4) 0, len := f (64 + 8 * k) 4 / 2, base := BitVec.ofNat 32 (f (68 + 8 * k) 4) } : AccForm)
  let c1 : Crew := { c with
    core := core, resident := true, preempt := 3, swapped := swapped
    ctx := mnumber 0 (ctxs.map (·.1)), slices := mnumber 0 (ctxs.map (·.2))
    strand := (c.keys.zip m.strands).foldl (fun x e => mset x e.1 (strandFrom c e.1 e.2 period)) []
    cbar := maskStrands c (f 32 8), xarr := maskStrands c (f 40 8)
    xmax := (c.keys.filter (nbit (f 40 8))).foldl (fun m k => mset m k (f 48 8)) [], cx := f 56 8
    form := mnumber 0 ((List.range c.accs).map form)
    tile := ((List.range c.tiles).zip m.tiles).foldl (fun x e => mput x (tileSize * e.1) e.2) []
    acc := ((List.range c.accs).zip m.accs).foldl (fun x e =>
      if (form e.1).ranked then x else mput x (accSize * e.1) ((List.range accSize).map (fun i => BitVec.ofNat 32 (field e.2 (4 * i) 4)))) []
    ranked := ((List.range c.accs).zip m.accs).foldl (fun x e =>
      if (form e.1).ranked then mput x (128 * e.1) (listsFrom e.2) else x) [] }
  let c2 := c1.abWrite 0 (m.ab.take (c.ab + c.xwin))
  Crew.joinGangs { c2 with
    abuf := ((List.range c.xwin).zip (m.ab.drop (c.ab + c.xwin))).foldl (fun x e => mset x (c2.shadowIndex e.1) (some e.2)) c2.abuf } period

/-- CREW_RESTORE (R313, R326, R329): crew u on a core, k = 1024 u + core, under the core's first slot that may place a crew; it issues from the
next period on. -/
def execCrewRestore (k : Nat) (s : State) : Host.Outcome State Fault Refusal :=
  let u := k / 1024
  let core := k % 1024
  let c := s.crew u
  let l := s.crewLaunch c
  match (List.range 8).find? (s.slotPlaces core) with
  | none => .next s
  | some j =>
    let t := mget s.slots (8 * core + j)
    if decide (c.preempt = 2) && !c.retiring && decide (t.launch = c.launch) && s.stageCore l.part l.record c.stage core then
      match s.fits c.launch core, (s.firstBind c.launch).claim c.launch core true, s.readSave u with
      | some ctxs, some s1, some m =>
        let s2 := (s1.setCrew u (crewFrom c m core s1.period ctxs)).wakeSlices core ctxs
        .next { s2 with ops := (s1.crewCopies u).foldl (fun o e => mset o e.1 { e.2 with core := core }) s2.ops
                        slots := mset s2.slots (8 * core + j) t.count }
      | _, _, _ => .next s
    else .next s

/-! Chiplet reset. -/

/-- A write or reply of a lost crew comes back to nobody; its refusal records are still written (R315). -/
def dropRequests (dev u : Nat) (m : FMap Req) : FMap Req :=
  m.map (fun e => (e.1, if e.2.dev = dev ∧ e.2.crew = u ∧ e.2.kind ≠ .none then { e.2 with dropped := true } else e.2))

/-- A copy of a lost crew that goes on to the end of its granule: what it still has to write of it is on its way (R274). -/
def State.keepCopy (s : State) (op : Op) (fn : Nat) : Op :=
  let x := op.copyShape fn
  let due := (List.range x.units).filter (fun v => !op.unitDone x v && op.granuleBegun x (x.granule v))
  { op with orphan := true, kept := if fn = 3 then [] else due.foldl (fun m v => match s.copyRead op x v (x.unit v).2.2 with
      | .ok l => mset m v l
      | _ => m) [] }

/-- Engine operations of a lost crew (R21, R274, R315): a copy to memory stops at its next granule; a commit that has arrived, or whose last
segments may still arrive in this cycle, is applied. -/
def State.loseOps (s : State) (u : Nat) : State :=
  s.ops.foldl (fun (x : State) e =>
    if e.2.crew ≠ u then x
    else match e.2.kind with
      | .mma _ => x.endOp e.1 5 0 0
      | .aload _ => x.endOp e.1 5 0 0
      | .acommit _ =>
        if e.2.readOut then { x with ops := mset x.ops e.1 { e.2 with orphan := true, lostAt := x.time + 1 } } else x.endOp e.1 5 0 0
      | .copy fn =>
        if (fn = 1 ∨ fn = 3 ∨ fn = 5) ∧ e.2.started then { x with ops := mset x.ops e.1 (s.keepCopy e.2 fn) } else x.endOp e.1 5 0 0
      | _ => x) s

/-- Exchange stores on their way to a lost crew are discarded and acknowledged (R102, R316). -/
def State.loseStx (s : State) (c : Crew) : State :=
  let rank := c.stage * (s.launchOf c.launch).record.gridSize + c.index
  s.net.foldl (fun x e => if decide (e.2.kind = .stx rank) && decide (e.2.x = c.launch) then x.respond e.1 e.2 else x) s

/-- Writes of a crew that have not left the core's port are lost with it (R127). -/
def State.loseAtPort (s : State) (u : Nat) : State :=
  { s with net := s.net.filter (fun e => !(decide (e.2.crew = u) && decide (e.2.dev = s.dev) && decide (e.2.path = pathPort) && !e.2.left)) }

/-- A crew is lost with its chiplet: operations, records, arrivals, counts and state (R315). -/
def State.loseCrew (s : State) (u : Nat) : State :=
  let s1 := (((s.loseOps u).dropCrewRecords u).loseStx (s.crew u)).loseAtPort u
  { s1 with crews := mset s1.crews u default, net := dropRequests s.dev u s1.net, home := dropRequests s.dev u s1.home
            back := dropRequests s.dev u s1.back
            issueQ := s1.issueQ.filter (fun i => decide (i.crew ≠ u)) }

/-- The remaining cores can hold the crews of a launch that must be whole (R316). -/
def State.refits (s : State) (x : Launch) : Bool := !s.noFit x.part x.record

/-- The copies of a crew that is switched out resolve LOST. -/
def State.endCopies (s : State) (u : Nat) : State := (s.crewCopies u).foldl (fun x e => x.endOp e.1 5 0 0) s

/-- End the remaining crews of a launch as TERM of crew scope does, with the waits of R40 (R316). DESIGN CHOICE: the suspended copies of one
that is switched out resolve LOST; the spec does not say how they end. -/
def State.endCrews (s : State) (l : Nat) : State :=
  s.crews.foldl (fun (x : State) e =>
    if e.2.launch ≠ l then x
    else
      let x1 := x.termStrands e.1 e.2.keys true 0 0
      if e.2.resident then x1 else x1.endCopies e.1) s

/-- What becomes of the launch of a lost crew: restart it, or end the launch (R316). -/
def State.afterLoss (s : State) (chip : Nat) (c : Crew) : State :=
  let x := s.launchOf c.launch
  let again := nbit x.record.flags 0 && (!x.record.whole || s.refits x) && !x.cut
  if again then s.setLaunch c.launch { x with restarts := x.restarts ++ [(c.stage, c.index)] }
  else
    let s1 := s.endLaunch c.launch 9 0 chip
    (s1.setLaunch c.launch { s1.launchOf c.launch with cut := true }).endCrews c.launch

/-- A launch that is cut short and has no crew left completes (R316, R322). -/
def State.completeCut (s : State) (l : Nat) : State := (s.completeLaunch l).getD s

/-- Whether a core belongs to a chiplet. -/
def onChip (chip core : Nat) : Bool := decide (chipOf core = chip)

/-- The cistern of a core is lost; a claim that was evicted lies in memory and is kept (R20, R331). -/
def Core.loseCistern (c : Core) : Core := { c with claims := c.claims.filter (·.evicted), cistern := [] }

/-- The reset of a chiplet (R315): its resident crews are lost, with the cistern claims, caches and L1 TLBs of its cores; it is
fenced, and RESET is set (R346, R348). -/
def State.resetChiplet (s : State) (chip : Nat) : State :=
  let lost := s.crews.filter (fun e => e.2.resident && onChip chip e.2.core)
  let s1 := lost.foldl (fun (x : State) e => x.loseCrew e.1) s
  let s2 : State := { s1 with
    cores := (List.range 12).foldl (fun m i => mset m (12 * chip + i) (mget m (12 * chip + i)).loseCistern) s1.cores
    l1 := s1.l1.filter (fun e => !onChip chip e.core), icache := s1.icache.filter (fun e => !onChip chip e.core)
    tlb := s1.tlb.filter (fun e => e.owner < 2 || !onChip chip (e.owner - 2))
    chipctl := mset s1.chipctl chip ((s1.chip chip ||| 0xA) ^^^ 2) }
  let s3 := lost.foldl (fun (x : State) e => x.afterLoss chip e.2) s2
  (lost.map (fun e => e.2.launch)).eraseDups.foldl State.completeCut s3

/-- A reset of the chiplet is in progress (R346). -/
def State.resetting (s : State) (chip : Nat) : Bool := (s.chip chip).getLsbD 3

/-- CHIPLET_RESET (R315): chiplet k; one that is in progress ends (R346, R348). -/
def execChipletReset (k : Nat) (s : State) : Host.Outcome State Fault Refusal :=
  if 64 ≤ k then .next s
  else if s.resetting k then .next { s with chipctl := mset s.chipctl k (mget s.chipctl k &&& ~~~8) }
  else .next (s.resetChiplet k)

end Sys2Proof.Machine
end

