-- ==== Sys2Proof/Machine/Mmio.lean ====
section
/-! DEFINITION. The MMIO registers and tables (R7, R8, R296, R297), fencing (R346..R348), pair modes (R91), error counts (R376),
reports (R386) and the host's accesses to memory (R130, R387). -/

namespace Sys2Proof.Machine

/-! The map. -/

/-- The part of the MMIO range that an access reaches (R296), by its offset from 0xF00_0000_0000. -/
inductive Mmio where
  | bootstat | fabcfg | pump (d : Nat) | fwcfg
  | mailbox (o : Nat)
  | chip (c : Nat)
  | asroot (p k : Nat) | plist (p : Nat) | plcnt (p : Nat) | pview (p j : Nat)
  | idle (n i : Nat) | tvec (n : Nat) | counter (n i : Nat)
  | slot (n k : Nat) (hi : Bool)
  | errcnt (i : Nat)
  | route (g : Nat)
  | mcast (p g j : Nat)
  | coll (p id : Nat)
  | session (i j : Nat)
  | queue (p q j : Nat)
  | reserved
  deriving DecidableEq, Repr

/-- The register at an offset that is a multiple of 8 (R296). -/
def mmioAt (x : Nat) : Mmio :=
  if x = 0 then .bootstat
  else if x = 0x8 then .fabcfg
  else if x = 0x10 then .pump 0
  else if x = 0x18 then .pump 1
  else if x = 0x20 then .fwcfg
  else if 0x1000 ≤ x && x < 0x3000 then .mailbox (x - 0x1000)
  else if 0x10000 ≤ x && x < 0x10200 then .chip ((x - 0x10000) / 8)
  else if 0x20000 ≤ x && x < 0x28000 then
    let p := (x - 0x20000) / 0x1000
    let o := x % 0x1000
    if o < 0x80 then .asroot p (o / 8) else if o = 0x80 then .plist p else if o = 0x88 then .plcnt p
    else if 0x100 ≤ o && o < 0x180 then .pview p ((o - 0x100) / 8) else .reserved
  else if 0x100000 ≤ x && x < 0x130000 then
    let n := (x - 0x100000) / 0x100
    let o := x % 0x100
    if o < 0x40 then .idle n (o / 8) else if o = 0x40 then .tvec n else if o < 0x68 then .counter n ((o - 0x48) / 8) else .reserved
  else if 0x200000 ≤ x && x < 0x218000 then .slot ((x - 0x200000) / 0x80) (x % 0x80 / 16) (decide (x % 16 = 8))
  else if 0x300000 ≤ x && x < 0x300000 + 8 * 624 then .errcnt ((x - 0x300000) / 8)
  else if 0x310000 ≤ x && x < 0x310100 then .route ((x - 0x310000) / 8)
  else if 0x400000 ≤ x && x < 0x420000 then
    let g := x % 0x4000 / 128
    if g = 0 then .reserved else .mcast ((x - 0x400000) / 0x4000) g (x % 128 / 8)
  else if 0x500000 ≤ x && x < 0x580000 then
    let e := (x - 0x500000) / 16
    if e % 4096 = 0 || x % 16 = 8 then .reserved else .coll (e / 4096) (e % 4096)
  else if 0x600000 ≤ x && x < 0x640000 then .session ((x - 0x600000) / 256) (x % 256 / 8)
  else if 0x700000 ≤ x && x < 0x702000 then .queue ((x - 0x700000) / 1024) ((x - 0x700000) / 64 % 16) (x % 64 / 8)
  else .reserved

/-- Bits of 64 table entries as a word. -/
def boolWord (f : Nat → Bool) : Nat := ((List.range 64).map (fun i => if f i then 2 ^ i else 0)).sum

/-- A slot as its two words (R328). -/
def slotWord (n : Nat) (t : Slot) (hi : Bool) : Nat :=
  if hi then t.quota % 2 ^ 32 + t.placed % 2 ^ 32 * 2 ^ 32
  else t.launch % 2 ^ 32 + (t.coreOff + n) % 1024 * 2 ^ 32 + t.maxc % 256 * 2 ^ 48
    + (t.valid.toNat + 2 * (t.kind % 4) + 8 * t.hold.toNat) * 2 ^ 56

/-- The state field of a session as byte 82 reads (R368). -/
def State.sessionWord (s : State) (i j : Nat) : Nat :=
  leNat (mgetList s.sessTab (256 * i + 8 * j) 8) + (if j = 10 then (mget s.sessions i).state * 2 ^ 16 else 0)

/-- The value of a register (R7, R296). -/
def State.mmioRead (s : State) (m : Mmio) : Nat :=
  match m with
  | .bootstat => s.bootstat.toNat
  | .fabcfg => s.fabcfg.toNat
  | .pump d => (mget s.pumpCfg d).toNat
  | .fwcfg => s.fwcfg.toNat
  | .mailbox o => leNat (mgetList s.mailbox o 8)
  | .chip c => (s.chip c).toNat + (if s.fenced c || s.resetting c then 0 else 1)
  | .asroot p k => (mget s.asroot (16 * p + k)).toNat
  | .plist p => (mget s.plist p).toNat
  | .plcnt p => (mget s.plcnt p).toNat
  | .pview p j => boolWord (fun i => s.inView p (64 * j + i))
  | .idle n i => (mget (s.core n).idle i).toNat
  | .tvec n => (s.core n).tvec.toNat
  | .counter n i =>
    let c := s.core n
    (match i with | 0 => c.mxov | 1 => c.mxuf | 2 => c.mxnan | _ => c.mxskip).toNat
  | .slot n k hi => slotWord n (mget s.slots (8 * n + k)) hi
  | .errcnt i => (mget s.errcnt i).toNat
  | .route g => (mget s.groute g).toNat
  | .mcast p g j => boolWord (fun i => mget s.mgroup (mgroupKey p g (64 * j + i)))
  | .coll p id => (mget s.cgroup (4096 * p + id)).toNat
  | .session i j => s.sessionWord i j
  | .queue p q j => (mget s.hostq (8 * (16 * p + q) + j)).toNat
  | .reserved => 0

/-- Keep the bits of a mask. -/
def keepBits (v : Word64) (mask : Nat) : Word64 := v &&& BitVec.ofNat 64 mask

/-- Write 64 table entries from a word. -/
def setBools (m : FMap Bool) (lo : Nat) (v : Word64) : FMap Bool :=
  (List.range 64).foldl (fun m i => mset m (lo + i) (v.getLsbD i)) m

/-! The firmware's policy. -/

/-- The class of a launch as it is bound: deferred and filler count as normal while their policy is off (R330). -/
def State.boundClass (s : State) (r : LaunchRec) : Nat :=
  if r.cls = 2 then (if nbit s.fwcfg.toNat 0 then 1 else 0) else if r.cls = 1 then (if nbit s.fwcfg.toNat 1 then 2 else 0) else 0

/-- The place of a launch in the order of binding: class, priority, acceptance (R330). -/
def State.bindRank (s : State) (l : Nat) : Nat :=
  let r := (s.launchOf l).record
  (s.boundClass r * 8 + (7 - r.prio)) * 2 ^ 64 + (s.launchOf l).accepted

/-- The core has had no crew for `n` lease ticks. -/
def State.idleFor (s : State) (core n : Nat) : Bool :=
  (s.residents core).isEmpty && (List.range 16).all (fun k => decide (mget (s.core core).sliceUsed k + 4 * n ≤ s.clock))

/-- A launch of the partition with class number at most `top` has a crew on the core or one that it could still supply to it. -/
def State.coreWanted (s : State) (part core top : Nat) : Bool :=
  s.launches.any (fun e => decide (e.2.state = 1) && decide (e.2.part = part) && decide (s.boundClass e.2.record ≤ top)
    && (s.residentOn e.1 core || (s.supply e.1 core).isSome || (s.resuming e.1 core).isSome))

/-- A normal launch of a partition that comes before one in the order of binding is bound nowhere yet and could use the core (R330). -/
def State.bindsBefore (s : State) (part core rank : Nat) : Bool :=
  s.launches.any (fun e => decide (e.2.state = 1) && decide (e.2.part = part) && decide (s.boundClass e.2.record = 0)
    && decide (s.bindRank e.1 < rank) && (s.supply e.1 core).isSome
    && !s.slots.any (fun t => t.2.valid && decide (t.2.coreOff = 0) && decide (t.2.launch = e.1)))

/-- The JOBs of a partition that have filler launches with a crew to supply to a core. -/
def State.fillerJobs (s : State) (part core : Nat) : List Nat :=
  ((s.launches.filter (fun e => decide (e.2.state = 1) && decide (e.2.part = part) && decide (s.boundClass e.2.record = 2)
    && ((s.supply e.1 core).isSome || (s.resuming e.1 core).isSome))).map (fun e => e.2.record.job)).eraseDups

/-- The JOB whose filler queue a partition visits next, in rotation by JOB number (R330). -/
def State.nextJob (s : State) (part core : Nat) : Option Nat :=
  let jobs := s.fillerJobs part core
  let least := fun (l : List Nat) => l.foldl (fun (m : Option Nat) j => match m with
    | some x => some (min x j)
    | none => some j) none
  match least (jobs.filter (fun j => decide (mget s.fillerJob part ≤ j))) with
  | some j => some j
  | none => least jobs

/-- The oldest live filler launch of a JOB with a crew to supply to a core. -/
def State.oldestFiller (s : State) (part core job l : Nat) : Bool :=
  let x := s.launchOf l
  decide (x.record.job = job) && !s.launches.any (fun e => decide (e.2.state = 1) && decide (e.2.part = part)
    && decide (s.boundClass e.2.record = 2) && decide (e.2.record.job = job) && decide (e.2.accepted < x.accepted)
    && ((s.supply e.1 core).isSome || (s.resuming e.1 core).isSome))

/-- The core has crews of the launch, or another slot that names it: its binding is only moved or renewed. -/
def State.boundHere (s : State) (l core k : Nat) : Bool :=
  s.residentOn l core || (List.range 8).any (fun j => decide (j ≠ k) && decide ((mget s.slots (8 * core + j)).launch = l))

/-- The firmware makes a binding valid only as its policy allows: the kind is the class, the slots of the core stay in order, normal launches are bound
first and in their order, a deferred launch comes to a core that no normal one needs, a filler to an idle one, from the filler queue that is visited next (R330). -/
def State.bindAllowed (s : State) (n k : Nat) (t : Slot) : Bool :=
  let x := s.launchOf t.launch
  let old := mget s.slots (8 * n + k)
  if !t.valid || t.coreOff ≠ 0 || x.state ≠ 1 || (old.valid && decide (old.launch = t.launch)) then true
  else
    let cls := s.boundClass x.record
    let other := fun (j : Nat) => let y := mget s.slots (8 * n + j); y.valid && decide (y.coreOff = 0)
      && decide ((s.launchOf y.launch).state = 1) && decide (y.launch ≠ t.launch)
    decide (t.kind = x.record.cls)
    && (List.range 8).all (fun j => j = k || !other j ||
        (if j < k then decide (s.bindRank (mget s.slots (8 * n + j)).launch < s.bindRank t.launch)
         else decide (s.bindRank t.launch < s.bindRank (mget s.slots (8 * n + j)).launch)))
    && (s.boundHere t.launch n k
      || !s.bindsBefore x.part n (s.bindRank t.launch) && ((cls ≠ 1 || (!s.coreWanted x.part n 0 && (s.stageOf t.launch n).isSome))
        && (cls ≠ 2 || (s.idleFor n (64 * nbits s.fwcfg.toNat 8 8)
          && (match s.nextJob x.part n with
            | some j => s.oldestFiller x.part n j t.launch
            | none => true)
          && !(List.range 8).any (fun j => s.slotPlaces n j && decide (s.boundClass (s.launchOf (mget s.slots (8 * n + j)).launch).record ≠ 2))))))

/-- A slot after a write of its bytes 0..7: PLACED is read-only and starts from 0 with a new binding (R328). -/
def Slot.bind (t : Slot) (n w : Nat) : Slot :=
  { t with launch := nbits w 0 32, coreOff := (nbits w 32 10 + 1024 - n) % 1024, maxc := nbits w 48 8, valid := nbit w 56
           kind := nbits w 57 2, hold := nbit w 59, placed := if t.valid && decide (t.launch = nbits w 0 32) then t.placed else 0 }

/-- A filler launch has been bound: its partition goes on to the next filler queue (R330). -/
def State.visitJob (s : State) (l n k : Nat) : State :=
  let x := s.launchOf l
  if x.state = 1 ∧ s.boundClass x.record = 2 ∧ !s.boundHere l n k
  then { s with fillerJob := mset s.fillerJob x.part (x.record.job + 1) } else s

/-- A write of one half of a slot (R328). A valid record whose CORE is another core's is invalid and binds nothing. -/
def State.slotWrite (s : State) (n k : Nat) (hi : Bool) (v : Word64) : State :=
  let key := 8 * n + k
  let t := mget s.slots key
  if hi then { s with slots := mset s.slots key { t with quota := nbits v.toNat 0 32 } }
  else
    let t1 := t.bind n v.toNat
    let s0 := if t1.valid && decide (t1.coreOff = 0) && !t.valid then s.visitJob t1.launch n k else s
    let s1 : State := { s0 with slots := mset s0.slots key t1 }
    if t1.valid && decide (t1.coreOff = 0) then s1.firstBind t1.launch else s1

/-- The policy of R330 does not allow a store yet: one that puts a binding in force. The firmware has not made it. -/
def State.storeWaits (s : State) (m : Mmio) (v : Word64) : Bool :=
  match m with
  | .slot n k false => !s.bindAllowed n k ((mget s.slots (8 * n + k)).bind n v.toNat)
  | _ => false

/-! Stores. -/

/-- A store to a register without behaviour of its own (R7, R8, R297). DESIGN CHOICE: PLCNT keeps 21 bits, so a count above 2^20 is one of that many
entries; the spec gives the range and no outcome beyond it. -/
def State.mmioStore (s : State) (m : Mmio) (v : Word64) : State :=
  match m with
  | .fabcfg => { s with fabcfg := keepBits v 0xFFFFFF01 }
  | .pump d => { s with pumpCfg := mset s.pumpCfg d (keepBits v 0xFFFF00FFFF03) }
  | .mailbox o => { s with mailbox := msetList s.mailbox o (leBytes 8 v.toNat) }
  | .asroot p k => { s with asroot := mset s.asroot (16 * p + k) (keepBits v 0x3FFFFFFFFFF001) }
  | .plist p => { s with plist := mset s.plist p (keepBits v 0x3FFFFFFFFFFFF0) }
  | .plcnt p => { s with plcnt := mset s.plcnt p (keepBits v 0x1FFFFF) }
  | .pview p j => { s with pview := setBools s.pview (1024 * p + 64 * j) v }
  | .tvec n => s.setCore n { s.core n with tvec := keepBits v 0x1FFFFFFFFFFFFFC }
  | .slot n k hi => s.slotWrite n k hi v
  | .route g => ({ s with groute := mset s.groute g (keepBits v 0x1FF) }).linksChanged
  | .mcast p g j => { s with mgroup := setBools s.mgroup (mgroupKey p g (64 * j)) v }
  | .coll p id => { s with cgroup := mset s.cgroup (4096 * p + id) v }
  | .session i j =>
    if j < 10 then { s with sessTab := msetList s.sessTab (256 * i + 8 * j) (leBytes 8 v.toNat) }
    else if j = 10 then { s with sessTab := msetList s.sessTab (256 * i + 80) (leBytes 2 (nbits v.toNat 0 3 + nbits v.toNat 8 4 * 256)) }
    else s
  | .queue p q j =>
    if j = 0 then { s with hostq := mset s.hostq (8 * (16 * p + q)) v }
    else if j = 1 then { s with hostq := mset s.hostq (8 * (16 * p + q) + 1) (keepBits v 0x10F) }
    else s
  | _ => s

/-- A host may write only the mailboxes (R297). -/
def mayStore (a : MmioAccess) (m : Mmio) : Bool := !a.host || (match m with | .mailbox _ => true | _ => false)

/-- Where an access of the management core lies in the MMIO range; a host's is an offset of the BAR already (R296, R297, R387). -/
def mmioPlace (a : MmioAccess) : Nat := if a.host then a.addr else a.addr - 0xF0000000000

/-- The offset of an access in the MMIO range; none when it is not an aligned 8-byte access of it (R89, R297). -/
def mmioOffset (a : MmioAccess) : Option Nat :=
  if a.size = 8 && decide (a.addr % 8 = 0) && (a.host || decide (0xF0000000000 ≤ a.addr)) then some (mmioPlace a) else none

/-- The register that an access reaches. -/
def mmioTarget (a : MmioAccess) : Mmio := match mmioOffset a with | some x => mmioAt x | none => .reserved

/-- The block that owns a register, so that it performs its accesses in the order in which they come (R297). DESIGN CHOICE: pages of 4 KiB below offset
0x10_0000 and 256 bytes above, as the spec does not say which registers share a block. -/
def mmioBlock (a : MmioAccess) : Nat :=
  let x := mmioPlace a
  if x < 0x100000 then x / 0x1000 else 0x1000 + x / 0x100

/-- A store that the firmware has still to make: it has no place in its block's order (R330). -/
def State.mmioLater (s : State) (a : MmioAccess) : Bool := a.write && mayStore a (mmioTarget a) && s.storeWaits (mmioTarget a) a.data

/-- The access is at the head of its block's order. -/
def State.mmioTurn (s : State) (k : Nat) (a : MmioAccess) : Bool :=
  a.live && !s.mmioIn.any (fun e => decide (e.1 < k) && e.2.live && decide (mmioBlock e.2 = mmioBlock a) && !s.mmioLater e.2)

/-- The access has performed; a store is acknowledged (R297). -/
def State.mmioDone (s : State) (k : Nat) : State :=
  { s with mmioIn := mset s.mmioIn k default, mmioAcks := if (mget s.mmioIn k).write then s.mmioAcks ++ [k] else s.mmioAcks }

/-- Stores to these registers are steps of their own. -/
def ownStep (m : Mmio) : Bool :=
  match m with
  | .chip _ => true
  | .errcnt _ => true
  | _ => false

/-- MMIO_WRITE (R297): access k: a store to a register without behaviour of its own; a load, or an access that writes nothing, is
performed here too. -/
def execMmioWrite (k : Nat) (s : State) : Host.Outcome State Fault Refusal :=
  let a := mget s.mmioIn k
  let m := mmioTarget a
  if !s.mmioTurn k a then .next s
  else if !a.write then
    let s1 := s.mmioDone k
    .next { s1 with mmioOut := s1.mmioOut ++ [BitVec.ofNat 64 (s.mmioRead m)] }
  else if !mayStore a m then .next (s.mmioDone k)
  else if ownStep m || s.storeWaits m a.data then .next s
  else .next ((s.mmioDone k).mmioStore m a.data)

/-! Chiplet control. -/

/-- PART takes effect while FENCE = 1; ERR is cleared by a 1 (R346). -/
def chipWrite (old v : Word64) : Word64 :=
  let part := if old.getLsbD 1 then v &&& 0xE0 else old &&& 0xE0
  part ||| (old &&& ~~~v &&& 4) ||| (v &&& 2)

/-- CHIPCTL after a store, FENCE kept inverted. -/
def State.setChip (s : State) (c : Nat) (v : Word64) : State := { s with chipctl := mset s.chipctl c (v ^^^ 2) }

/-- CHIPCTL_FENCE (R348): access k writes FENCE := 1; the chiplet is reset unless it is fenced already. -/
def execChipctlFence (k : Nat) (s : State) : Host.Outcome State Fault Refusal :=
  let a := mget s.mmioIn k
  match mmioTarget a with
  | .chip c =>
    if s.mmioTurn k a && a.write && !a.host && a.data.getLsbD 1 then
      let s1 := s.mmioDone k
      let s2 := if s.fenced c then s1 else s1.resetChiplet c
      .next (s2.setChip c (chipWrite (s.chip c) a.data ||| (s2.chip c &&& 8)))
    else .next s
  | _ => .next s

/-- The chiplet writes zero to its storage and invalidates its L1 caches and TLBs before it returns to service (R348). -/
def State.clearChiplet (s : State) (c : Nat) : State :=
  { s with
    cores := (List.range 12).foldl (fun m i => mset m (12 * c + i) (mget m (12 * c + i)).loseCistern) s.cores
    l1 := s.l1.filter (fun e => !onChip c e.core), icache := s.icache.filter (fun e => !onChip c e.core)
    tlb := s.tlb.filter (fun e => e.owner < 2 || !onChip c (e.owner - 2)) }

/-- CHIPCTL_UNFENCE (R348): access k writes FENCE := 0; it takes effect when no reset is in progress. A chiplet whose last self-test failed stays fenced
(R384). -/
def execChipctlUnfence (k : Nat) (s : State) : Host.Outcome State Fault Refusal :=
  let a := mget s.mmioIn k
  match mmioTarget a with
  | .chip c =>
    if s.mmioTurn k a && a.write && !a.host && !a.data.getLsbD 1 && !s.resetting c then
      let v := chipWrite (s.chip c) a.data
      let s1 := s.mmioDone k
      .next (if s.fenced c && mget s.tests.chips c then s1.setChip c (v ||| 2)
        else (if s.fenced c then s1.clearChiplet c else s1).setChip c v)
    else .next s
  | _ => .next s

/-! Error counts. -/

/-- ERRCNT after a store: a 1 in a count field clears that field (R376). -/
def errWrite (old v : Word64) : Word64 :=
  let f := fun (lo n : Nat) => if nbits v.toNat lo n = 0 then nbits old.toNat lo n * 2 ^ lo else 0
  BitVec.ofNat 64 (f 0 32 + f 32 24)

/-- ERRCNT_CLEAR (R376): access k. -/
def execErrcntClear (k : Nat) (s : State) : Host.Outcome State Fault Refusal :=
  let a := mget s.mmioIn k
  match mmioTarget a with
  | .errcnt i =>
    if s.mmioTurn k a && a.write && !a.host then
      .next { s.mmioDone k with errcnt := mset s.errcnt i (errWrite (mget s.errcnt i) a.data) }
    else .next s
  | _ => .next s

/-- A corrected event (R374, R376). -/
def State.countCorr (s : State) (i : Nat) : State :=
  let w := (mget s.errcnt i).toNat
  { s with errcnt := mset s.errcnt i (BitVec.ofNat 64 (nbits w 32 24 * 2 ^ 32 + min (nbits w 0 32 + 1) (2 ^ 32 - 1))) }

/-- An uncorrectable event (R374, R376). -/
def State.countUncorr (s : State) (i : Nat) : State :=
  let w := (mget s.errcnt i).toNat
  { s with errcnt := mset s.errcnt i (BitVec.ofNat 64 (min (nbits w 32 24 + 1) (2 ^ 24 - 1) * 2 ^ 32 + nbits w 0 32)) }

/-! Pair modes. -/

/-- PAIR_MODE_WRITE (R91): the firmware sets pair k / 2 to domain-local when k is odd, interleaved when it is even; every byte of the
pair becomes zero. DESIGN CHOICE: a write that names the mode that the pair has already clears it too; the spec speaks of a change. -/
def execPairModeWrite (k : Nat) (s : State) : Host.Outcome State Fault Refusal :=
  let m := k / 2
  let lo := s.dev * 2 ^ 44 + m * 2 ^ 31
  if m < 512 then
    .next { s with pairLocal := mset s.pairLocal m (decide (k % 2 = 1)), mem := mcut s.mem lo (lo + 2 ^ 31)
                   poison := mcut s.poison lo (lo + 2 ^ 31) }
  else .next s

/-! Reports. -/

/-- The configuration block of the running image (R382). -/
def BootImage.configBytes (i : BootImage) : List Byte := i.body.drop (field i.header 16 4)

/-- A number as `n` bytes, most significant first. -/
def beBytes (n v : Nat) : List Byte := (leBytes n v).reverse

/-- An attestation report for a nonce (R386). -/
def State.report (s : State) (nonce : List Byte) : List Byte :=
  let i := s.running
  let b := nonce ++ leBytes 2 s.dev ++ leBytes 2 0 ++ (i.header.drop 4).take 4 ++ leBytes 4 s.rollbackFuse
    ++ leBytes 4 s.bootstat.toNat ++ beBytes 64 (Config.sha512 (i.header ++ i.body)).toNat
    ++ beBytes 64 (Config.sha512 i.configBytes).toNat
    ++ beBytes 64 (Config.sha512 ((List.range 32768).flatMap (fun j => leBytes 8 (s.sessionWord (j / 32) (j % 32))))).toNat
  b ++ beBytes 132 (Config.identitySign b).toNat

/-- REPORT_REQUEST (R385..R387): the nonce stands in the first 64 bytes of the mailbox of domain k; the report goes out with the certificate. DESIGN
CHOICE: both lie in the mailbox after the nonce, where a host reads them through the BAR; the spec gives them no place. -/
def execReportRequest (k : Nat) (s : State) : Host.Outcome State Fault Refusal :=
  let o := 4096 * (k % 2)
  let r := s.report (mgetList s.mailbox o 64)
  if nbits s.bootstat.toNat 0 4 = 8 then
    .next { s with reports := s.reports ++ [(r, s.running.certificate)]
                   mailbox := msetList s.mailbox (o + 64) ((r ++ s.running.certificate).take 4032) }
  else .next s

/-! Host accesses. -/

/-- HOST_ACCESS (R130): access k over CXL.mem performs at its home slices; a write takes its place there and waits for leases (R95); one outside the tiers, or to a
poisoned line, reads nothing and writes nothing. -/
def execHostAccess (k : Nat) (s : State) : Host.Outcome State Fault Refusal :=
  let a := mget s.hostIn k
  let n := a.bytes.length
  let pa := s.dev * 2 ^ 44 + a.addr
  let s1 := { s with hostIn := mset s.hostIn k default }.unqueue (hostToken k) (fun _ => true)
  if !a.live || mget s.cxlDown a.die then .next s
  else if 2 ^ 44 < a.addr + n || !s.inTiers pa || !s.inTiers (pa + n - 1) || s.rangePoisoned pa n then
    .next (if a.write then s1 else { s1 with hostOut := s1.hostOut ++ [[]] })
  else if s.bridgeStops a.die (linesOf pa n) then .next s
  else if !s.channelsReady (linesOf pa n) then .next (s.wakeChannels (linesOf pa n))
  else if !a.write then .next { s1.useChannels (linesOf pa n) with hostOut := s1.hostOut ++ [s.rdBytes pa n] }
  else if s.mayWriteBy (hostToken k) (linesOf pa n) then
    .next ((s1.wrEngine pa a.bytes).useChannels (linesOf pa n))
  else .next (s.queueWrite (hostToken k) noCore s.dev (linesOf pa n))

end Sys2Proof.Machine
end

