-- ==== Sys2Proof/Machine/Tiers.lean ====
section
/-! DEFINITION. Page walks (R337, R339, R349) and the tier pumps: pump lists, scores, moves and the halving of reuse estimates
(R341..R344). -/

namespace Sys2Proof.Machine

/-! Walks. -/

/-- Walkers of a domain (R339). -/
def walkers : Nat := 64

/-- A walk has a walker: fewer than 64 of its domain came before it (R339). -/
def State.walkRuns (s : State) (k : Nat) (w : Walk) : Bool :=
  w.live && decide ((s.walks.filter (fun e => decide (e.1 < k) && e.2.live && decide (e.2.dom = w.dom))).length < walkers)

/-- Leave a fault of a walk with a strand that waited for it; a strand that is gone takes none. -/
def State.walkFailed (s : State) (page cause : Nat) (x : Nat × Nat) : State :=
  if (s.crew x.1).launch = 0 then s
  else s.setStrand x.1 x.2 { s.strand x.1 x.2 with walkFaults := (s.strand x.1 x.2).walkFaults ++ [(page, cause)] }

/-- Leave a fault of a walk with an engine operation that waited for it. -/
def State.walkFailedEngine (s : State) (page : Nat) (tok : Nat) : State := { s with engineFaults := s.engineFaults ++ [(tok, page)] }

/-- PAGE_WALK (R335..R339): the walk with number k; the pseudo-channels of its tables wake first (R378), and one that meets a busy leaf reads it again
later. The result for a core of a fenced chiplet is discarded (R349). -/
def execPageWalk (k : Nat) (s : State) : Host.Outcome State Fault Refusal :=
  let w := mget s.walks k
  let lines := s.walkLines w.part w.space w.va
  let s1 := ({ s with walks := mset s.walks k default } : State).useChannels lines
  if !s.walkRuns k w then .next s
  else if !s.channelsReady lines then .next (s.wakeChannels lines)
  else match s.walk w.part w.space w.va with
    | .busy => .next s
    | .leaf _ e pb =>
      .next (if decide (w.core < coreCount) && s.fenced (chipOf w.core) then s1 else s1.tlbFill w.core w.dom w.part w.space w.va e pb)
    | .fault c =>
      .next (w.engines.foldl (fun s x => s.walkFailedEngine (w.va / 2 ^ 16) x) (w.waiters.foldl (fun s x => s.walkFailed (w.va / 2 ^ 16) c x) s1))

/-! Pump lists. -/

/-- An entry of a pump list: its address, and the fields (R341). -/
structure PumpEntry where
  at_ : Nat
  addr : Nat
  kind : Nat
  zero : Nat
  deriving DecidableEq, Repr, Inhabited

/-- The pump list of a partition; empty, so that the pumps ignore it, when it is inconsistent, by a KIND or by a byte that should be
zero, or poisoned (R8, R341, R375). -/
def State.pumpList (s : State) (p : Nat) : List PumpEntry :=
  let base := (mget s.plist p).toNat
  let n := (mget s.plcnt p).toNat
  let l := (List.range n).map (fun i => ({ at_ := base + 16 * i, addr := s.rdNat (base + 16 * i) 8
                                           kind := s.rdNat (base + 16 * i + 8) 4, zero := s.rdNat (base + 16 * i + 12) 4 } : PumpEntry))
  if l.all (fun e => decide (e.kind ≤ 2) && decide (e.zero = 0) && !s.poisoned e.at_) then l else []

/-- The tier of a physical address: 0 near, 1 and 2 the far-tier dies (R89). -/
def tierOf (pa : Nat) : Nat := localOf pa / 2 ^ 40

/-- The PA of a leaf (R336). -/
def leafPa (e : Nat) : Nat := nbits e 16 38 * 2 ^ 16
/-- The reuse estimate of a leaf. -/
def leafRe (e : Nat) : Nat := nbits e 8 8

/-- A leaf of a 2 MiB page is consistent: its reserved bits are zero, and it passes the checks of a walk (R8, R336, R337). -/
def State.leafGood (s : State) (addr x : Nat) : Bool :=
  match s.leafRes 1 addr x with
  | .fault _ => false
  | _ => true

/-- A page that the pumps may move now: a valid, consistent leaf with MV = 1 and BUSY = 0 that no move has been chosen for (R343). -/
def State.movable (s : State) (e : PumpEntry) : Bool :=
  let x := s.rdNat e.addr 8
  decide (e.kind = 1) && nbits x 0 2 = 3 && nbit x 6 && !nbit x 7 && decide (devOf (leafPa x) = s.dev) && !s.poisoned e.addr
  && s.leafGood e.addr x && !s.moves.any (fun m => m.2.live && (decide (m.2.leaf = e.addr) || decide (m.2.promote = some e.addr)))

/-- Movable pages of a tier, in list order: leaf address and reuse estimate. -/
def State.pagesOn (s : State) (l : List PumpEntry) (tier : Nat) : List (Nat × Nat) :=
  (l.filter (fun e => s.movable e && decide (tierOf (leafPa (s.rdNat e.addr 8)) = tier))).map
    (fun e => (e.addr, leafRe (s.rdNat e.addr 8)))

/-- The first free frame of a tier that no move is using. -/
def State.freeOn (s : State) (l : List PumpEntry) (tier : Nat) : Option PumpEntry :=
  l.find? (fun e => decide (e.kind = 2) && decide (tierOf e.addr = tier) && !s.moves.any (fun m => m.2.live && decide (m.2.entry = e.at_)))

/-- The refetch cost of a die in a pump's configuration (R342). -/
def pumpCost (cfg : Word64) (die : Nat) : Nat := nbits cfg.toNat (8 + 8 * die) 8
/-- HYST. -/
def pumpHyst (cfg : Word64) : Nat := nbits cfg.toNat 32 16

/-- The first page with the greatest score at a cost: leaf address and reuse estimate (R343). -/
def firstMax (cost : Nat) (l : List (Nat × Nat)) : Option (Nat × Nat) :=
  l.foldl (fun b x => match b with | none => some x | some y => if cost * y.2 < cost * x.2 then some x else some y) none

/-- The victim: near page, score, frame; the least score, then the lowest index, then die 0 (R343). -/
def State.victim (s : State) (cfg : Word64) (l : List PumpEntry) : Option (Nat × Nat × PumpEntry) :=
  let dies := ([0, 1] : List Nat).filterMap (fun k => (s.freeOn l (k + 1)).map (fun f => (pumpCost cfg k, f)))
  let all := (s.pagesOn l 0).flatMap (fun v => dies.map (fun d => (v.1, d.1 * v.2, d.2)))
  all.foldl (fun b x => match b with | none => some x | some y => if x.2.1 < y.2.1 then some x else some y) none

/-! Moves. -/

/-- Bytes of a page that moves. -/
def movedBytes : Nat := 2 ^ 21

/-- The address lies in the 2 MiB frame at `base`. -/
def inFrame (base a : Nat) : Bool := decide (base ≤ a) && decide (a < base + movedBytes)

/-- Set bits of a leaf by an atomic of the pump (R117, R336). -/
def State.writeLeaf (s : State) (leaf v : Nat) : State := (s.wrBytes leaf (leBytes 8 v)).bumpSeq leaf

/-- Step 1 of a move, once the leaf may be written: BUSY, no TLB entry for the page, and the accesses under way are noted (R344). -/
def State.moveBegin (s : State) (k : Nat) (m : PageMove) : State :=
  let x := s.rdNat m.leaf 8
  let pa := leafPa x
  if m.begun || !s.mayWrite m.leaf 8 || !s.channelsReady [lineOf m.leaf] then s
  else
    let s1 := s.writeLeaf m.leaf (x.lor 0x80)
    let ids : FMap Req → List Nat := fun n => (n.filter (fun e => decide (e.2.kind ≠ .none) && decide (e.2.kind ≠ .hold) && decide (e.2.dev = s.dev) && inFrame pa e.2.pa)).map (·.1)
    { s1 with tlb := s1.tlb.filter (fun e => !(decide (e.pageBits = 21) && decide (leafPa e.leaf.toNat = pa)))
              moves := mset s1.moves k { m with begun := true, before := ids s.net ++ ids s.home } }

/-- PAGE_MOVE_START: a move of the page with a leaf to a frame (R344). -/
def State.moveStart (s : State) (m : PageMove) : State :=
  ({ s with moves := mset s.moves s.nextId m, nextId := s.nextId + 1 }).moveBegin s.nextId m

/-- The evaluation of a partition by pump d (R343). -/
def State.evaluate (s : State) (d p : Nat) : State :=
  let cfg := mget s.pumpCfg d
  let l := s.pumpList p
  let new := fun (leaf : Nat) (f : PumpEntry) (promote : Option Nat) =>
    ({ live := true, pump := d, part := p, leaf := leaf, frame := f.addr, entry := f.at_, promote := promote, begun := false
       before := [], copied := 0 } : PageMove)
  if s.moves.any (fun m => m.2.live && decide (m.2.pump = d) && decide (m.2.part = p)) then s
  else match firstMax (pumpCost cfg d) (s.pagesOn l (d + 1)) with
    | none => s
    | some (leaf, re) =>
      match s.freeOn l 0 with
      | some f => if 0 < re then s.moveStart (new leaf f none) else s
      | none =>
        match s.victim cfg l with
        | none => s
        | some (v, score, f) =>
          if pumpCost cfg d * re ≤ score + pumpHyst cfg then s else s.moveStart (new v f (some leaf))

/-- Lease ticks between evaluations, and between halvings (R343). -/
def evalTicks : Nat := 4096
/-- Lease ticks between halvings. -/
def decayTicks : Nat := 2 ^ 20

/-- A halving is due, and the evaluations of earlier ticks have been made. -/
def State.decayDue (s : State) : Bool := decide (s.decayAt ≤ s.ltime) && decide (s.decayAt ≤ s.evalAt)

/-- A halving is still on its way to its leaf, or waits at its home. -/
def State.halving (s : State) : Bool :=
  s.net.any (fun e => decide (e.2.kind = .atomic halveAop)) || s.home.any (fun e => decide (e.2.kind = .atomic halveAop))

/-- PUMP_EVALUATION (R343): that of every multiple of 4,096 ticks, after a halving of the same tick (R349). -/
def execPumpEvaluation (s : State) : Host.Outcome State Fault Refusal :=
  if decide (s.evalAt ≤ s.ltime) && !s.decayDue && !s.halving then
    let one := fun (s : State) (d : Nat) =>
      if (mget s.pumpCfg d).getLsbD 0 then (List.range 8).foldl (fun s p => s.evaluate d p) s else s
    .next (([0, 1] : List Nat).foldl one { s with evalAt := s.evalAt + evalTicks })
  else .next s

/-- The RE byte of a leaf is halved by an atomic of its own (R343). -/
def State.halve (s : State) (leaf : Nat) : State :=
  s.send { (default : Req) with
    kind := .atomic halveAop, core := noCore, dev := s.dev, pa := lineOf leaf, accs := [mkAccess 0 (leaf + 1) 1 0 0 0], dropped := true
    readyAt := s.time, bornAt := s.time }

/-- RE_DECAY (R343): every page entry on a pump's die, and by pump 0 the near ones, when the pump's DECAY = 1. -/
def execReDecay (s : State) : Host.Outcome State Fault Refusal :=
  if s.decayDue then
    let one := fun (s : State) (e : PumpEntry) =>
      let x := s.rdNat e.addr 8
      let t := tierOf (leafPa x)
      let d := if t = 2 then 1 else 0
      if e.kind = 1 && nbits x 0 2 = 3 && s.leafGood e.addr x && !s.poisoned e.addr && (mget s.pumpCfg d).getLsbD 1 then s.halve e.addr else s
    .next ((List.range 8).foldl (fun s p => (s.pumpList p).foldl one s) { s with decayAt := s.decayAt + decayTicks })
  else .next s

/-- A commit has translated its tile to the page and has still to be applied there (R270). -/
def State.commitTo (s : State) (pa : Nat) : Bool :=
  s.ops.any (fun e => (match e.2.kind with | .acommit _ => true | _ => false) && e.2.readOut && e.2.frames.any (inFrame pa))

/-- Steps 3 to 5 may run: the accesses and commits of step 2 have performed. An engine that has still to write translates again after the move. -/
def State.moveReady (s : State) (m : PageMove) (pa : Nat) : Bool :=
  let pending := fun (n : FMap Req) => n.any (fun e => m.before.contains e.1)
  m.begun && !pending s.net && !pending s.home && !s.commitTo pa

/-- Lines of a page that moves. -/
def movedLines : Nat := movedBytes / 128

/-- Line i of the page is read at its home, with no write waiting there, and written at the frame, where no lease holds it (R95, R136, R344): bytes and
poison, with sequence number 0; words cached of what stood there are dropped. -/
def State.moveLine (s : State) (k : Nat) (m : PageMove) (pa : Nat) : State :=
  let src := pa + 128 * m.copied
  let dst := m.frame + 128 * m.copied
  let writes := s.home.any (fun e => decide (e.2.kind ≠ .none) && decide (e.2.kind ≠ .load) && decide (e.2.pa = src))
  if writes || !s.leaseFree dst then s
  else if !s.channelsReady [src, dst] then s.wakeChannels [src, dst]
  else
    ({ s with mem := msetList s.mem dst (s.rdBytes src 128), poison := mset s.poison dst (s.poisoned src), seqs := mset s.seqs dst 0
              moves := mset s.moves k { m with copied := m.copied + 1 }
              icache := s.icache.filter (fun e => decide (lineOf e.addr ≠ dst)) } : State).useChannels [src, dst]

/-- Step 4: the leaf names the frame and is no longer busy (R344). -/
def State.moveLeaf (s : State) (k : Nat) (m : PageMove) : State :=
  let x := s.rdNat m.leaf 8
  if !s.mayWrite m.leaf 8 then s
  else { s with moves := mset s.moves k { m with copied := m.copied + 1, before := [leafPa x] } }.writeLeaf m.leaf
    (x - leafPa x - 0x80 * nbits x 7 1 + m.frame)

/-- Step 5: the list entry of the frame holds the released one; the page that is to take that starts to move (R344). -/
def State.moveFinish (s : State) (k : Nat) (m : PageMove) : State :=
  let pa := m.before.headD 0
  if !s.mayWrite m.entry 8 then s
  else
    let s1 := { s with moves := mset s.moves k default }.wrEngine m.entry (leBytes 8 pa)
    match m.promote with
    | some leaf => s1.moveStart { m with leaf := leaf, frame := pa, promote := none, begun := false, before := [], copied := 0 }
    | none => s1

/-- PAGE_MOVE_COPY (R344): the move with number k begins, copies its next line, or ends. -/
def execPageMoveCopy (k : Nat) (s : State) : Host.Outcome State Fault Refusal :=
  let m := mget s.moves k
  let pa := leafPa (s.rdNat m.leaf 8)
  if !m.live then .next s
  else if !m.begun then .next (if s.channelsReady [lineOf m.leaf] then s.moveBegin k m else s.wakeChannels [lineOf m.leaf])
  else if m.copied = movedLines + 1 then .next (s.moveFinish k m)
  else if m.copied = movedLines then .next (s.moveLeaf k m)
  else if s.moveReady m pa then .next (s.moveLine k m pa)
  else .next s

end Sys2Proof.Machine
end

