-- ==== Sys2Proof/Machine/Pod.lean ====
section
/-! DEFINITION. What collective commands and arriving packets share: Ultra Ethernet sessions (R367..R369), group descriptors (R360),
the reduction tree (R363), elastic generations (R366), and bulk data (R362). -/

namespace Sys2Proof.Machine

/-! Sessions. -/

/-- A packet for an Ethernet session leaves a domain by one of the ports that are up, in turn, or is held (R367). -/
def State.emitUe (s : State) (dom i : Nat) (p : Packet) : State :=
  let up := (List.range 8).filter (fun j => !mget s.ethDown j)
  let x : Sent := ⟨0, i + 1, p, 1, s.time, 0, dom⟩
  let s1 := { s with nextId := s.nextId + 1 }
  match up[s.nextId % up.length]? with
  | some j => s1.leaveEth s.nextId j x
  | none => { s1 with held := mset s1.held s.nextId x }

/-- The packet counter never reaches this value under one key (R369). -/
def counterLimit : Nat := 2 ^ 31

/-- A session can carry a packet: OPEN, and its counter below the limit. -/
def State.sessionReady (s : State) (i : Nat) : Bool :=
  decide ((mget s.sessions i).state = 2) && decide ((mget s.sessions i).counter + 1 < counterLimit)

/-- Seal a packet of a domain and send it; it stays until it is acknowledged (R367, R369). -/
def State.seal (s : State) (dom i : Nat) (p : Packet) : State :=
  let x := mget s.sessions i
  { s with sessions := mset s.sessions i { x with next := x.next + 1, counter := x.counter + 1, unacked := x.unacked ++ [(x.next, p)] } }.emitUe dom
    i (.sealed i x.next x.counter [] p)

/-- The number under which the firmware's own random values are counted, beside those of the partitions 0 to 7. -/
def firmwarePart : Nat := 8

/-- A packet of an exchange of keys leaves: bare, or sealed in an OPEN session, under the keys of before (R368, R369). -/
def State.sendKeying (s : State) (i : Nat) (p : Packet) : State :=
  if (mget s.sessions i).state ≠ 2 then s.emitUe 2 i p else if s.sessionReady i then s.seal 2 i p else s

/-- An exchange is under way. -/
def Session.exchanging (x : Session) : Bool := decide (x.state = 1) || x.rekeying

/-- An exchange begins here, with a new nonce of this side (R368, R369). -/
def State.newNonce (s : State) (i : Nat) : State :=
  let x := mget s.sessions i
  { s with sessions := mset s.sessions i { x with
      state := if x.state = 2 then 2 else 1, rekeying := decide (x.state = 2), ownNonce := Config.ownNonce (s.freeAt firmwarePart)
      peerNonce := [], ownKey := [] } }.freeUp firmwarePart

/-- This side opens an exchange: its nonce goes to the peer. -/
def State.openExchange (s : State) (i : Nat) : State :=
  let s1 := s.newNonce i
  s1.sendKeying i (.hello i false (mget s1.sessions i).ownNonce)

/-- Send this side's key message of the exchange. -/
def State.sendKey (s : State) (i : Nat) : State :=
  let x := mget s.sessions i
  s.sendKeying i (.keyMessage i false x.ownNonce x.ownKey)

/-- The peer's nonce is here: this side answers with its ephemeral key of a new pair, signed over both nonces (R368). -/
def State.takeNonce (s : State) (i : Nat) (nonce : List Byte) : State :=
  let s1 := if (mget s.sessions i).exchanging then s else s.newNonce i
  let x := mget s1.sessions i
  ({ s1 with sessions := mset s1.sessions i { x with peerNonce := nonce, ownKey := Config.ownKeyMessage (s1.freeAt firmwarePart) (x.ownNonce ++ nonce) } }.freeUp
    firmwarePart).sendKey i

/-- A command names a session: an IDLE one is opened (R368). -/
def State.nameSession (s : State) (i : Nat) : State := if (mget s.sessions i).state = 0 then s.openExchange i else s

/-- A packet of a domain for a session: sealed, or kept at the ports until the session opens; a failed one carries none (R368, R369). -/
def State.toSession (s : State) (dom i : Nat) (p : Packet) : State :=
  if s.sessionReady i then s.seal dom i p
  else if (mget s.sessions i).state = 3 then s
  else
    let s1 := s.nameSession i
    { s1 with sessions := mset s1.sessions i { mget s1.sessions i with queued := (mget s1.sessions i).queued ++ [p] } }

/-- The packets that waited for a session leave. -/
def State.sendQueued (s : State) (i : Nat) : State :=
  let l := (mget s.sessions i).queued
  l.foldl (fun s p => s.toSession 2 i p) { s with sessions := mset s.sessions i { mget s.sessions i with queued := [] } }

/-- Partition of the address space that the peer's writes use (R368). -/
def State.sessPart (s : State) (i : Nat) : Nat := (mget s.sessTab (256 * i + 80)).toNat % 8
/-- The space. -/
def State.sessSpace (s : State) (i : Nat) : Nat := (mget s.sessTab (256 * i + 81)).toNat % 16

/-! Groups. -/

/-- A member of a collective group (R360): `id` is a device, or with EXT a session. -/
structure Member where
  ext : Bool
  tmo : Nat
  wgrp : Nat
  id : Nat
  deriving DecidableEq, Repr, Inhabited

/-- A collective group as its descriptor gives it, and this device's rank. -/
structure CollGroup where
  pa : Nat
  elastic : Bool
  gen : Nat
  me : Nat
  members : List Member
  deriving DecidableEq, Repr, Inhabited

/-- What a group id names. -/
inductive GroupRes where
  | unregistered
  | bad
  | fault (cause : Nat)
  | ok (g : CollGroup)
  deriving DecidableEq, Repr

/-- MEMBER[k] (R360). -/
def memberOf (w : Nat) : Member := ⟨nbit w 63, nbits w 56 7, nbits w 24 24, nbits w 0 10⟩

/-- The rules of R360 that a MEMBER word breaks. -/
def memberBad (elastic : Bool) (w : Nat) : Bool :=
  decide (nbits w 48 8 ≠ 0) || decide (nbits w 10 14 ≠ 0)
  || (if elastic then decide (nbits w 56 7 = 0) || decide (60 < nbits w 56 7) else decide (nbits w 56 7 ≠ 0))

/-- The group that a partition's table gives an id (R360). -/
def State.collGroup (s : State) (part id : Nat) : GroupRes :=
  let pa := (mget s.cgroup (4096 * part + id)).toNat
  if id = 0 || 4096 ≤ id || pa = 0 then .unregistered
  else
    let n := s.rdNat pa 2
    let flags := s.rdNat (pa + 2) 1
    let words := (List.range n).map (fun k => s.rdNat (pa + 16 + 8 * k) 8)
    let elastic := nbit flags 0
    let ms := words.map memberOf
    let own := fun (m : Member) => !m.ext && decide (m.id = s.dev)
    if s.rangePoisoned pa (16 + 8 * n) then .fault cDataError
    else if n = 0 || 1024 < n || 2 ≤ flags || s.rdNat (pa + 3) 5 ≠ 0 || s.rdNat (pa + 12) 4 ≠ 0 || words.any (memberBad elastic)
        || (ms.filter own).length ≠ 1 || !s.inTiers pa then .bad
    else .ok { pa := pa, elastic := elastic, gen := s.rdNat (pa + 8) 4, me := (ms.findIdx? own).getD 0, members := ms }

/-- Members of the group. -/
def CollGroup.n (g : CollGroup) : Nat := g.members.length
/-- The member at a rank. -/
def CollGroup.at_ (g : CollGroup) (k : Nat) : Member := g.members.getD k default

/-- The group as an operation with a header sees it: elastic rules are for REDUCE and BARRIER (R366). -/
def CollGroup.under (g : CollGroup) (head : Nat) : CollGroup := if head % 16 = 4 then { g with elastic := false } else g

/-- Key of operation `seq` of a group: SEQ has 16 bits (R353, R363). -/
def collKey (part id seq : Nat) : Nat := (4096 * part + id) * 2 ^ 16 + seq % 2 ^ 16
/-- The group of an operation. -/
def State.keyGroup (s : State) (key : Nat) : GroupRes := s.collGroup (key / 2 ^ 28) (key / 2 ^ 16 % 4096)

/-- The member can be reached now. -/
def State.canReach (s : State) (m : Member) : Bool :=
  if m.ext then s.sessionReady m.id else decide (m.id = s.dev) || (s.choosePath m.id).isSome

/-- Send a packet of a domain to a member, in `flits` (R362, R369). -/
def State.sendMember (s : State) (dom : Nat) (m : Member) (flits : Nat) (p : Packet) : State :=
  if m.ext then s.toSession dom m.id p else if m.id = s.dev then s else s.emit dom m.id flits p

/-! The reduction tree. -/

/-- What members must agree on besides LEN: OP, DT, ALL and ARG (R363). -/
def collHead (op dt all arg : Nat) : Nat := op + 16 * dt + 32 * all + 64 * arg

/-- combine(a, b) of R363 for the operation and type of a header. -/
def collCombine (head : Nat) (a b : Word) : Word :=
  let mx := decide (nbits head 22 2 = 1)
  if nbit head 4 then
    let x := nbits a.toNat 0 16
    let y := nbits b.toNat 0 16
    BitVec.ofNat 32 (if mx then (fmtBF16.minmax true false x y).1
      else (fmtF32.convert fmtBF16 rneKeep (add32 (x * 2 ^ 16) (y * 2 ^ 16)).1).1)
  else BitVec.ofNat 32 (if mx then (fmtF32.minmax true false a.toNat b.toNat).1 else (add32 a.toNat b.toNat).1)

/-- Combine two contributions element by element; absent with x gives x (R363). -/
def collJoin (head : Nat) : Option (List Word) → Option (List Word) → Option (List Word)
  | some a, some b => some (List.zipWith (collCombine head) a b)
  | some a, none => some a
  | none, b => b

/-- One level of the tree: neighbours combine. -/
def treePair {α : Type} (f : α → α → α) : List α → List α
  | a :: b :: r => f a b :: treePair f r
  | l => l

/-- The tree of R363 over contributions in rank order, in `fuel` levels. -/
def treeReduce {α : Type} (f : α → α → α) : Nat → List α → List α
  | 0, l => l
  | n + 1, l => treeReduce f n (treePair f l)

/-- reduce(v) of R363; 1,024 members make ten levels. -/
def reduceAll (head : Nat) (v : List (Option (List Word))) : List Word := ((treeReduce (collJoin head) 10 v).headD none).getD []

/-- The ranks whose contributions the device at rank k combines, in the order of the steps; all of them at the coordinator of an
elastic group (R363, R366). -/
def CollGroup.children (g : CollGroup) (k : Nat) : List Nat :=
  if g.elastic then (if k = 0 then (List.range g.n).filter (fun j => decide (0 < j)) else [])
  else (List.range 10).filterMap (fun i => if k % 2 ^ (i + 1) = 0 ∧ k + 2 ^ i < g.n then some (k + 2 ^ i) else none)

/-- The rank that rank k's combination goes to. -/
def CollGroup.parent (g : CollGroup) (k : Nat) : Nat :=
  if g.elastic then 0 else k - 2 ^ ((List.range 10).find? (fun i => decide (k % 2 ^ (i + 1) ≠ 0))).getD 0

/-- A contribution at a rank is there. -/
def CollOp.has (o : CollOp) (k : Nat) : Bool := mget o.here k
/-- The contribution. -/
def CollOp.part (o : CollOp) (k : Nat) : Option (List Word) := if o.has k then some (mget o.parts k) else none

/-- Put a contribution. -/
def CollOp.put (o : CollOp) (k len head : Nat) (elems : List Word) : CollOp :=
  { o with here := mset o.here k true, parts := mset o.parts k elems, heads := mset o.heads k (len, head) }

/-- The header of the contributions that have come. -/
def CollOp.head (o : CollOp) : Nat := match o.heads with | (_, h) :: _ => h.2 | [] => 0

/-- The contributions that have come do not agree (R363). -/
def CollOp.disagrees (o : CollOp) : Bool :=
  match o.heads with
  | [] => false
  | (_, h) :: r => r.any (fun e => decide (e.2 ≠ h))

/-- What this device's rank passes on: its own contribution with those of its subtrees. -/
def CollOp.node (o : CollOp) (g : CollGroup) : List Word :=
  let head := (mget o.heads g.me).2
  if g.elastic then reduceAll head ((List.range g.n).map o.part)
  else ((g.children g.me).foldl (fun v j => collJoin head v (o.part j)) (o.part g.me)).getD []

/-- Bytes of an element, by the header's DT. -/
def elemSize (head : Nat) : Nat := if nbit head 4 then 2 else 4

/-- Elements in the packets that carry them, at most 128 bytes in one (R353): the first element's index, the elements; one packet when there are
none. -/
def elemPackets (head : Nat) (l : List Word) : List (Nat × List Word) :=
  let n := 128 / elemSize head
  if l.isEmpty then [(0, [])] else (List.range ((l.length + n - 1) / n)).map (fun i => (n * i, (l.drop (n * i)).take n))

/-- Send elements to a member, each packet made of the first index and the elements that it carries. -/
def State.sendElems (s : State) (dom : Nat) (m : Member) (head : Nat) (l : List Word) (mk : Nat → List Word → Packet) : State :=
  (elemPackets head l).foldl (fun s e => s.sendMember dom m (flitsOf (elemSize head * e.2.length)) (mk e.1 e.2)) s

/-- Elements of packets that lie at 2^32 rank + first index: all of them, once there are `total`. -/
def gathered (m : FMap (List Word)) (rank total : Nat) : Option (List Word) :=
  let l := (m.filter (fun e => decide (e.1 / 2 ^ 32 = rank))).flatMap (·.2)
  if l.length = total then some l else none

/-- Without those of a rank. -/
def ungathered (m : FMap (List Word)) (rank : Nat) : FMap (List Word) := m.filter (fun e => decide (e.1 / 2 ^ 32 ≠ rank))

/-- Change an operation. -/
def State.setOp (s : State) (key : Nat) (o : CollOp) : State := { s with collOps := mset s.collOps key o }

/-- The number of a group operation's transfers up and down the tree, for demands (R357). -/
def collXfer (key : Nat) : Nat := 4 * (2 ^ 81 + key)

/-- Tell every other member of a failure (R363); what the switches do for an operation leaves by the port's own domain. -/
def State.tellAll (s : State) (g : CollGroup) (key status cause : Nat) : State :=
  ((List.range g.n).filter (fun j => decide (j ≠ g.me))).foldl (fun s j => s.sendMember 2 (g.at_ j) 1 (.failure key g.me status cause)) s

/-- The operation fails everywhere (R363). -/
def State.failOp (s : State) (g : CollGroup) (key status cause : Nat) : State :=
  let o := mget s.collOps key
  if o.failed ≠ 0 then s else (s.setOp key { o with failed := status, cause := cause }).tellAll g key status cause

/-- The results that the coordinator owes leave, each when its member's device has granted credit for it; one for a member that cannot be reached
any more goes (R357, R366). -/
def State.payOwed (s : State) (g : CollGroup) (key : Nat) : State :=
  let o := mget s.collOps key
  let n := elemSize o.head * o.result.length
  o.owed.foldl (fun s e =>
    let m := g.at_ e.1
    let go := fun (s : State) => s.sendElems 2 m o.head o.result (.result key o.gen o.count e.2 · o.result.length ·)
    let rest := fun (s : State) => s.setOp key { mget s.collOps key with owed := (mget s.collOps key).owed.erase e }
    if !m.ext && !s.canReach m then rest s
    else if m.ext then rest (go s)
    else match s.useCredit m.id n with
      | some s1 => rest (go s1)
      | none => s.askCredit 2 (collXfer key) m.id n) s

/-- The number by which the write of a generation keeps its place at the home of the group's descriptor (R95). -/
def genToken (key : Nat) : Nat := opToken (2 ^ 80 + key)

/-- GENERATION_CLOSE (R366): at the coordinator, once every member has contributed or been dropped: the present contributions are
reduced, GEN + 1 is written and the result goes to every member that can be reached. -/
def State.tryClose (s : State) (g : CollGroup) (key : Nat) : State :=
  let o := mget s.collOps key
  let whole := (List.range g.n).all (fun j => o.has j || mget o.dropped j)
  if !g.elastic || g.me ≠ 0 || o.closed || o.failed ≠ 0 || !whole then s
  else if o.disagrees then s.failOp g key 2 0
  else if !s.channelsReady (linesOf (g.pa + 8) 4) then s.wakeChannels (linesOf (g.pa + 8) 4)
  else if !s.mayWriteBy (genToken key) (linesOf (g.pa + 8) 4) then s.queueWrite (genToken key) noCore s.dev (linesOf (g.pa + 8) 4)
  else
    let head := o.head
    let r := reduceAll head ((List.range g.n).map o.part)
    let count := ((List.range g.n).filter o.has).length
    let s1 := ((s.wrEngine (g.pa + 8) (leBytes 4 (g.gen + 1))).unqueue (genToken key) (fun _ => true)).setOp key
      { o with closed := true, ready := true, result := r, gen := g.gen, count := count, incl := o.has 0
               owed := ((g.children 0).filter (fun j => s.canReach (g.at_ j))).map (fun j => (j, o.has j)) }
    s1.payOwed g key

/-- A contribution reaches this device: it counts, or, when its generation has closed, its sender gets the result (R363, R366). -/
def State.contribute (s : State) (g : CollGroup) (key rank len head : Nat) (elems : List Word) : State :=
  let o := mget s.collOps key
  if o.closed then
    (if s.canReach (g.at_ rank) then (s.setOp key { o with owed := o.owed ++ [(rank, false)] }).payOwed g key else s)
  else
    let o1 := { o.put rank len head elems with clock := if o.clock = 0 then s.ltime + 1 else o.clock }
    (s.setOp key o1).tryClose g key

/-- A packet of a contribution: it counts when all of its contribution are there (R353, R363). -/
def State.contributed (s : State) (g : CollGroup) (key rank len head first total : Nat) (elems : List Word) : State :=
  let o := mget s.collOps key
  let m := mset o.frags (2 ^ 32 * rank + first) elems
  match gathered m rank total with
  | some l => (s.setOp key { o with frags := ungathered m rank }).contribute g key rank len head l
  | none => s.setOp key { o with frags := m }

/-- A packet of a result. -/
def State.resulted (s : State) (key gen count : Nat) (incl : Bool) (first total : Nat) (elems : List Word) : State :=
  let o := mget s.collOps key
  let m := mset o.resFrags first elems
  match gathered m 0 total with
  | some l => s.setOp key { o with resFrags := [], ready := true, result := l, gen := gen, count := count, incl := incl }
  | none => s.setOp key { o with resFrags := m }

/-! Bulk data. -/

/-- Bytes of bulk data that have performed here count for the command that waits for them. -/
def State.bulkLanded (s : State) (op n : Nat) : State :=
  if op % 4 = 1 then s.setOp (op / 4) { mget s.collOps (op / 4) with landed := (mget s.collOps (op / 4)).landed + n }
  else if op % 4 = 2 then
    let r := mget s.colls (op / 4)
    if r.live then { s with colls := mset s.colls (op / 4) { r with done := r.done + n } } else s
  else s

/-- Bulk data of an operation of this device failed elsewhere, or cannot be sent: its command or copy fails (R352, R361, R363). -/
def State.bulkFailed (s : State) (op cause : Nat) : State :=
  let run := mget s.colls (op / 4)
  if op % 4 = 1 then
    match s.keyGroup (op / 4) with
    | .ok g => s.failOp g (op / 4) 3 cause
    | _ => s
  else if op % 4 = 0 then
    match (mget s.ops (op / 4)).kind with
    | .copy _ => s.endOp (op / 4) (if (mget s.ops (op / 4)).orphan then 5 else 3) (if (mget s.ops (op / 4)).orphan then 0 else cause) 0
    | _ => s
  else if run.live then { s with colls := mset s.colls (op / 4) { run with cause := cause } } else s

/-- Bulk data of an operation of this device has performed at another. -/
def State.bulkAcked (s : State) (op n : Nat) : State :=
  let run := mget s.colls (op / 4)
  if op % 4 = 1 then s.setOp (op / 4) { mget s.collOps (op / 4) with acked := (mget s.collOps (op / 4)).acked + n }
  else if op % 4 = 0 then s.copyLanded (op / 4) n
  else if op % 4 = 3 ∧ run.live then { s with colls := mset s.colls (op / 4) { run with landed := run.landed + n } }
  else s

/-- The number by which a packet of bulk data keeps its place at the home of a line. -/
def pktToken (k : Nat) : Nat := 4 * k + 3

/-- The credit of R362. -/
def State.creditWeir (s : State) (weir n : Nat) : State := if weir % 2 ^ 16 = 0 || n = 0 then s else s.weirAdd weir 0 n

/-- Bulk data at a physical address of this device: its write and its credit, with the cause of its failure; none while it cannot be written
yet, and nothing is written to a line that it would leave poisoned (R95, R137, R362, R375). -/
def State.bulkPhys (s : State) (tok op pa : Nat) (l : List Byte) (credit weir : Nat) : Option (State × Nat) :=
  if devOf pa ≠ s.dev || !s.inTiers pa then some (s, cTranslation)
  else if (s.poisonBlocks pa l).isSome then some (s, cDataError)
  else if s.mayWriteBy tok (linesOf pa l.length) then some (((s.wrEngine pa l).bulkLanded op l.length).creditWeir weir credit, 0)
  else none

end Sys2Proof.Machine
end

