-- ==== Sys2Proof/Machine/Fabric.lean ====
section
/-! DEFINITION. Packets that arrive and return, links and the bridge, the reach timeout, ordered flags, pacing, elastic timeouts and
session keys (R350..R359, R363, R366..R371, R389). -/

namespace Sys2Proof.Machine

/-! Failing requests. -/

/-- The cause that a request fails with when its destination cannot be reached (R352). -/
def Req.reachCause (r : Req) : Nat :=
  match r.kind with
  | .store => if r.group = 0 then cRemote else cMmember
  | .put _ => cRemote
  | .stx _ => cRemote
  | _ => cTranslation

/-- A request as it comes back failed. -/
def Req.failed (r : Req) (c : Nat) : Req :=
  { r with fail := c, tags := [], readyAt := 0, left := true
           vals := match r.kind with
             | .put _ => r.accs.map (fun x => (x.thread, BitVec.ofNat 128 (16 + c + 256 * x.cmp.toNat)))
             | _ => [] }

/-- A request fails: its failure comes back to the strand and settles its count (R352, R356). -/
def State.failRequest (s : State) (id : Nat) (r : Req) (c : Nat) : State :=
  { s with net := mset s.net id default, home := mset s.home id default, back := mset s.back id (r.failed c), flagAsk := mset s.flagAsk id 0 }

/-- The reach timeout has passed since a time; REACH = 0 means none (R352, R358). -/
def State.reachOver (s : State) (since : Nat) : Bool :=
  let reach := nbits s.fabcfg.toNat 16 16
  decide (reach ≠ 0) && decide (since / 8 + 1024 * reach ≤ s.ltime)

/-! Arrival. -/

/-- A request of another device for this one starts on its way to its home here (R92, R355). -/
def State.letIn (s : State) (r : Req) : State :=
  if devOf r.pa = s.dev && decide (r.dev ≠ s.dev) then
    { s with net := mset s.net s.nextId { r with left := true, dropped := false, stamp := 0 }, nextId := s.nextId + 1 }
  else s

/-- The domain of the port by which packets of a device come in. DEDUCED: that of the minimal path to it. -/
def State.entryDom (s : State) (dev : Nat) : Nat := portDom ((s.minPort dev).getD 0)

/-- MULTICAST_REPLICATION (R359): one copy for each member of the group that lies in this device's electrical group; by the minimal rule alone, and one
whose link is down goes back to its source (R355, R389). -/
def State.replicate (s : State) (r : Req) (ids : List (Nat × Nat)) : State :=
  let ms := (s.members r.part r.group).filter (fun m => decide (groupNum m = groupNum s.dev) && ids.any (fun e => decide (e.1 = m)))
  ms.foldl (fun s m =>
    let id := ((ids.find? (fun e => decide (e.1 = m))).map (·.2)).getD 0
    let r1 := { r with pa := onDevice r.pa m, peerId := id }
    let port := memberPort (memberNum s.dev) (memberNum m)
    if m = s.dev then s.letIn r1
    else if s.portUp port && s.pathUp m 0 then
      { s with nextId := s.nextId + 1 }.leaveBy s.nextId port ⟨m, 0, .request r1, flitsOf r.payload, s.time, 0, s.entryDom r.dev⟩
    else s.emit (s.entryDom r.dev) r.dev (flitsOf r.payload) (.copyReturned id)) s

/-- The port by which a packet passes on to its destination by the minimal rule: to another group from the intermediate of its path, or by a circuit of
this device's own; none at a gateway whose circuit is gone (R351, R355). -/
def State.onwardPort (s : State) (src dst path : Nat) : Option Nat :=
  let own := memberNum s.dev
  if groupNum dst = groupNum s.dev || (decide (groupNum src = groupNum s.dev) && decide (path = 1 + own))
    || decide ((s.route (groupNum dst)).map (·.1) = some own)
  then s.minPort dst else none

/-- A packet that passes through: by the minimal rule, or back to its source by any path; it is held when there is none (R351, R355, R389). -/
def State.forward (s : State) (src id dst flits path : Nat) (back : Bool) : State :=
  match (if back then none else s.onwardPort src dst path) with
  | some p =>
    if s.portUp p && s.pathUp dst 0 then
      { s with nextId := s.nextId + 1 }.leaveBy s.nextId p ⟨dst, 0, .transit src id dst flits path false, flits, s.time, 0, s.entryDom src⟩
    else s.emit (s.entryDom src) src flits (.transit src id dst flits path true)
  | none => s.emit (if back then 2 else s.entryDom src) src flits (.transit src id dst flits path true)

/-- The answer to a request of this device comes back (R232, R354). Each is delivered once. -/
def State.answered (s : State) (id : Nat) (r : Req) : State :=
  let q := mget s.net id
  if q.kind = .none || decide (devOf q.pa = s.dev) || decide (q.dev ≠ s.dev) || !q.left then s
  else { s with net := mset s.net id default, flagAsk := mset s.flagAsk id 0
                back := mset s.back id { q with vals := r.vals, tags := r.tags, fail := r.fail, readyAt := 0 } }

/-- The virtual memory here that a packet's data uses: the engine that translates, partition, space, address, bytes; whether it is written. -/
structure PacketUse where
  eng : Nat
  part : Nat
  space : Nat
  va : Nat
  n : Nat
  write : Bool
  deriving DecidableEq, Repr, Inhabited

/-- The collective engine of the list that asked for bulk data. -/
def State.runEngine (s : State) (op : Nat) : Nat := domEngine (domOf (mget s.ops (mget s.colls (op / 4)).handle.toNat).core)

/-- The engine that translates for a session's peer. DESIGN CHOICE: that of domain 0. -/
def sessEngine : Nat := domEngine 0

/-- Bulk data that a session's peer sends: in the address space of the session, or, when a RECV asked for it, in that of its list, beside where it lay
(R362, R368). -/
def State.bulkPlace (s : State) (i op addr n : Nat) : PacketUse :=
  let run := mget s.colls (op / 4)
  let asked := mget s.ops run.handle.toNat
  if op % 4 = 2 then ⟨s.runEngine op, asked.part, asked.space, (addr + run.served) % 2 ^ 64, n, true⟩
  else ⟨sessEngine, s.sessPart i, s.sessSpace i, addr, n, true⟩

/-- The packet authenticates under the session's keys, or under those before the last exchange (R369). -/
def Session.opens (x : Session) (bytes : List Byte) : Bool :=
  Config.packetAuthentic x.keys bytes || (match x.oldKeys with | some o => Config.packetAuthentic o bytes | none => false)

/-- A sealed packet is authentic and has not been delivered yet (R367, R369). -/
def Session.fresh (x : Session) (number : Nat) (bytes : List Byte) : Bool :=
  decide (x.state = 2) && x.opens bytes && !x.received.any (fun e => decide (e.1 = number))

/-- What the data of a packet uses of virtual memory; that of a sealed one when it is delivered. -/
def State.packetUse (s : State) (p : Packet) : PacketUse :=
  match p with
  | .bulk _ op true part space addr l _ _ => ⟨s.runEngine op, part, space, addr, l.length, true⟩
  | .sealed i n _ b inner =>
    if (mget s.sessions i).fresh n b then
      (match inner with
      | .bulk _ op _ _ _ addr l _ _ => s.bulkPlace i op addr l.length
      | .pull _ addr len => ⟨sessEngine, s.sessPart i, s.sessSpace i, addr, len, false⟩
      | _ => default)
    else default
  | _ => default

/-- The lines here that the data of a packet uses. -/
def State.packetLines (s : State) (p : Packet) : List Nat :=
  match p with
  | .bulk _ _ false _ _ addr l _ _ => linesOf addr l.length
  | .podPull _ _ _ _ pa n _ => linesOf pa n
  | _ =>
    let u := s.packetUse p
    if u.n = 0 then [] else s.virtLines u.eng u.part u.space u.va u.n (if u.write then permW else permR)

/-- The packet writes bulk data. -/
def Packet.writes : Packet → Bool
  | .bulk _ _ _ _ _ _ _ _ _ => true
  | .sealed _ _ _ _ (.bulk _ _ _ _ _ _ _ _ _) => true
  | _ => false

/-- Bulk data of another device waits for the bridge (R370). -/
def State.packetStops (s : State) (p : Packet) : Bool :=
  match p with
  | .bulk src _ false _ _ addr l _ _ => s.bridgeStops (s.entryDom src) (linesOf addr l.length)
  | _ => false

/-- The write of a session's bulk data, with the cause of a failure, which goes into the acknowledgement. -/
def State.bulkVirt (s : State) (tok i op addr : Nat) (l : List Byte) (credit weir : Nat) : Option (State × Nat) :=
  let w := s.bulkPlace i op addr l.length
  match s.wrVirtBy tok true w.eng w.part w.space w.va l with
  | .ok s1 => some ((s1.bulkLanded op l.length).creditWeir (weirKey w.part (weir / 2 ^ 16 % 2 ^ 24) (weir % 2 ^ 16)) credit, 0)
  | .fault c _ => some (s, c)
  | .busy => none

/-- Serve a RECV of a session's peer: the answer names the address that was read. -/
def State.servePull (s : State) (i op addr len : Nat) : Option (State × Nat) :=
  match s.rdVirt sessEngine (s.sessPart i) (s.sessSpace i) addr len with
  | .ok l => if s.sessionReady i then some (s.seal 2 i (.bulk s.dev op true 0 0 addr l 0 0), 0) else none
  | .fault c _ => some (s, c)
  | .busy => none

/-- The transport's acknowledgement of a packet, sealed like any other; it is not acknowledged itself (R367, R369). -/
def State.sendAck (s : State) (i number cause : Nat) : State :=
  let x := mget s.sessions i
  if s.sessionReady i then
    { s with sessions := mset s.sessions i { x with counter := x.counter + 1 } }.emitUe 2 i (.sealed i 0 x.counter [] (.ueAck i number cause))
  else s

/-- A packet has been received under the present keys: when every number below it has been received too, nothing sent under the old keys is still
to be acknowledged (R369). -/
def Session.settle (x : Session) (number : Nat) (fresh : Bool) : Session :=
  if fresh && (List.range number).all (fun n => x.received.any (fun e => decide (e.1 = n))) then { x with oldKeys := none } else x

/-- The transport's acknowledgement arrives; a failed write fails the command that sent it. -/
def State.ueAcked (s : State) (i number cause : Nat) : State :=
  let x := mget s.sessions i
  let s1 : State := { s with sessions := mset s.sessions i { x with unacked := x.unacked.filter (fun e => decide (e.1 ≠ number)) } }
  if cause = 0 then s1
  else match x.unacked.find? (fun e => decide (e.1 = number)) with
    | some (_, .bulk _ op _ _ _ _ _ _ _) => s1.bulkFailed op cause
    | some (_, .pull op _ _) => s1.bulkFailed op cause
    | _ => s1

/-- A message of an exchange of keys that came sealed. -/
def Packet.cameSealed : Packet → Packet
  | .hello i _ n => .hello i true n
  | .keyMessage i _ n b => .keyMessage i true n b
  | p => p

/-- The content of a sealed packet is delivered once; then it is acknowledged, each time that it comes, with the outcome that it had (R367). -/
def State.unsealed (s : State) (tok i number : Nat) (fresh : Bool) (inner : Packet) : Option State :=
  let x := mget s.sessions i
  let ack := fun (s : State) (c : Nat) =>
    let y := mget s.sessions i
    { s with sessions := mset s.sessions i (({ y with received := (number, c) :: y.received } : Session).settle number fresh) }.sendAck i number c
  match inner with
  | .ueAck _ n c => some (s.ueAcked i n c)
  | _ =>
    match x.received.find? (fun e => decide (e.1 = number)) with
    | some e => some (s.sendAck i number e.2)
    | none =>
      match inner with
      | .bulk _ op _ _ _ addr l credit weir => (s.bulkVirt tok i op addr l credit weir).map (fun r => ack r.1 r.2)
      | .pull op addr len => (s.servePull i op addr len).map (fun r => ack r.1 r.2)
      | p => some (ack { s with packetsIn := mset s.packetsIn s.nextId p.cameSealed, nextId := s.nextId + 1 } 0)

/-- A sealed packet arrives: one that fails authentication is dropped and counted (R369). -/
def State.openSealed (s : State) (tok i number : Nat) (bytes : List Byte) (inner : Packet) : Option State :=
  let x := mget s.sessions i
  if x.state = 2 && x.opens bytes then s.unsealed tok i number (Config.packetAuthentic x.keys bytes) inner
  else some { s with sessions := mset s.sessions i { x with badTags := x.badTags + 1 } }

/-! RECVs of other devices. -/

/-- Serve the RECVs of a device as far as its credit goes, in packets of a line at their destination each, at most `fuel` of them; then ask for more
(R353, R357). -/
def State.servePulls (s : State) (dev : Nat) : Nat → State
  | 0 => s
  | fuel + 1 =>
    match s.pulls.find? (fun e => decide (e.2.src = dev)) with
    | none => s
    | some (k, q) =>
      let n := min (128 - q.va % 128) q.n
      if devOf q.pa ≠ s.dev || !s.inTiers q.pa || (s.poisonAt q.pa n).isSome then
        { s.emit 2 dev 1 (.landed q.op n (if devOf q.pa ≠ s.dev || !s.inTiers q.pa then cTranslation else cDataError)) with
          pulls := mset s.pulls k default }.servePulls dev fuel
      else match s.useCredit dev n with
        | none => s.askCredit 2 (4 * k + 2) dev q.n
        | some s1 =>
          let s2 := (s1.useChannels (linesOf q.pa n)).emit (s.homeSlice q.pa / 256) dev (flitsOf n)
            (.bulk s.dev q.op true q.part q.space q.va (s.rdBytes q.pa n) 0 0)
          { s2 with pulls := mset s2.pulls k (if q.n ≤ n then default else { q with pa := q.pa + n, n := q.n - n, va := q.va + n })
            }.servePulls dev fuel

/-- As much of the RECVs of a device as its credit lets leave now. -/
def State.serveAll (s : State) (dev : Nat) : State := s.servePulls dev ((s.pulls.map (fun e => e.2.n / 128 + 2)).sum + 1)

/-! Packets that are discarded (R374). -/

/-- An access of this device whose packet has been discarded fails with code 3: one that has not performed anything (R306, R374). -/
def State.loseRequest (s : State) (id : Nat) : State :=
  let r := mget s.net id
  if r.kind = .none || decide (r.dev ≠ s.dev) || !r.left || decide (r.stamp ≠ 0) || r.half then s else s.failRequest id r cDataError

/-- The access of another device fails with code 3: its source learns of it. -/
def State.tellLost (s : State) (dev id : Nat) (r : Req) : State := s.emit 2 dev 1 (.answer id (r.failed cDataError))

/-- A packet is sent again by the one that holds what it says. -/
def State.sendAgain (s : State) (dst : Nat) (p : Packet) : State :=
  if dst = s.dev then { s with packetsIn := mset s.packetsIn s.nextId p, nextId := s.nextId + 1 } else s.emit 2 dst 1 p

/-- A demand of this device to another was lost: it asks again. -/
def State.askedAgain (s : State) (dev n : Nat) : State :=
  match s.asked.find? (fun e => decide (e.1 % 1024 = dev) && decide (e.2 = n)) with
  | some e => { s with asked := mset s.asked e.1 0 }
  | none => s

/-- A packet bound for `dst` is discarded in this device: the access, command or operation that it belongs to fails with code 3; what answers one that has
performed, a demand, a grant and a packet of a session are sent again (R306, R367, R374, R389). -/
def State.losePacket (s : State) (dst : Nat) (p : Packet) : State :=
  let fails := fun (key : Nat) => match s.keyGroup key with
    | .ok g => s.failOp (g.under (mget s.collOps key).head) key 3 cDataError
    | _ => s
  match p with
  | .request r => if r.dev = s.dev then s else s.tellLost r.dev r.peerId r
  | .multicast r ids => ids.foldl (fun s e => if r.dev = s.dev then s.loseRequest e.2 else s.tellLost r.dev e.2 r) s
  | .copyReturned id => if dst = s.dev then s.loseRequest id else s.tellLost dst id { (default : Req) with kind := .store, dev := dst }
  | .transit src id _ _ _ _ => s.emit 2 src 1 (.lost id)
  | .bulk src op virt _ _ _ l _ _ =>
    if (src = s.dev) = (virt = true) then s.emit 2 (if src = s.dev then dst else src) 1 (.landed op l.length cDataError) else s.bulkFailed op cDataError
  | .podPull src op _ _ _ n _ => if src = s.dev then s.bulkFailed op cDataError else s.emit 2 src 1 (.landed op n cDataError)
  | .contribution key _ _ _ _ _ _ => fails key
  | .result key _ _ _ _ _ _ => fails key
  | .failure key _ _ _ => fails key
  | .demand _ n => if dst = s.dev then s else s.askedAgain dst n
  | .grant d => if dst = s.dev then s.grantTo d else { s with demands := mset s.demands dst (mget s.demands dst + grantBytes) }
  | .answer _ _ => s.sendAgain dst p
  | .landed _ _ _ => s.sendAgain dst p
  | .unsupported _ _ => s.sendAgain dst p
  | .refused _ => s.sendAgain dst p
  | .returned _ => s.sendAgain dst p
  | .lost _ => s.sendAgain dst p
  | _ => s

/-- Packet `id`, as it left this device or waits here, is discarded. -/
def State.lostAs (s : State) (id : Nat) (x : Sent) : State :=
  match x.p with
  | .none => s.loseRequest id
  | .request r => if r.dev = s.dev then s.loseRequest id else s.losePacket x.dst x.p
  | p => s.losePacket x.dst p

/-- Packet `id` of this device has been discarded on its way. -/
def State.lostBack (s : State) (id : Nat) : State :=
  ({ s with packetsOut := mset s.packetsOut id default } : State).lostAs id (mget s.packetsOut id)

/-- The packet is handled by a step of its own. -/
def Packet.ownStep : Packet → Bool
  | .none => true
  | .returned _ => true
  | .copyReturned _ => true
  | .failure _ _ _ _ => true
  | .demand _ _ => true
  | .grant _ => true
  | .hello _ _ _ => true
  | .keyMessage _ _ _ _ => true
  | _ => false

/-- A packet is delivered, forwarded, replicated or combined (R354, R355, R359, R363, R366); none while it must wait at its home. -/
def State.deliverPacket (s : State) (tok : Nat) : Packet → Option State
  | .request r => some (s.letIn r)
  | .answer id r => some (if r.dev = s.dev then s.answered id r else s.emit 2 r.dev (flitsOf r.replyBytes) (.answer id r))
  | .multicast r ids => some (s.replicate r ids)
  | .unsupported dev id => some (s.emit 2 dev 1 (.refused id))
  | .refused id =>
    let r := mget s.net id
    some (if r.kind = .none || decide (devOf r.pa = s.dev) || decide (r.dev ≠ s.dev) then s else s.failRequest id r r.reachCause)
  | .lost id => some (s.lostBack id)
  | .transit src id dst flits path back => some (s.forward src id dst flits path back)
  | .contribution key rank len head first total elems =>
    match s.keyGroup key with
    | .ok g => some (s.contributed (g.under head) key rank len head first total elems)
    | _ => some s
  | .result key gen count incl first total elems => some (s.resulted key gen count incl first total elems)
  | .bulk src op virt part space addr l credit weir =>
    if virt then match s.wrVirtBy tok true (s.runEngine op) part space addr l with
      | .ok s1 => some ((s1.bulkLanded op l.length).creditWeir weir credit)
      | .fault c _ => some (s.bulkFailed op c)
      | .busy => none
    else (s.bulkPhys tok (if op % 4 = 1 then op else 0) addr l credit weir).map (fun r =>
      r.1.emit (s.homeSlice addr / 256) src 1 (.landed op l.length r.2))
  | .landed op n cause => some (if cause = 0 then s.bulkAcked op n else s.bulkFailed op cause)
  | .podPull src op part space pa n va =>
    some ({ s with pulls := mset s.pulls s.nextId ⟨src, op, part, space, pa, n, va⟩, nextId := s.nextId + 1 }.serveAll src)
  | .sealed i number _ bytes inner => s.openSealed tok i number bytes inner
  | .ueAck i _ _ =>
    let x := mget s.sessions i
    some (if x.state = 2 then { s with sessions := mset s.sessions i { x with badTags := x.badTags + 1 } } else s)
  | .seen pa l => some (if devOf pa = s.dev then s else s.wrBytes pa l)
  | _ => some s

/-- PACKET_ARRIVAL (R355): packet k. Its pages are walked (R339); the bridge and the pseudo-channels of its lines let it through (R370, R378); bulk data that
must wait takes its place at the homes of its lines (R95). -/
def execPacketArrival (k : Nat) (s : State) : Host.Outcome State Fault Refusal :=
  let p := mget s.packetsIn k
  let u := s.packetUse p
  let tok := pktToken k
  if p.ownStep then .next s
  else .next (s.withWalks tok u.eng u.part u.space (if u.n = 0 then [] else [(u.va, u.n)]) (fun s =>
    let lines := s.packetLines p
    if s.packetStops p then s
    else if !s.channelsReady lines then s.wakeChannels lines
    else match ({ s with packetsIn := mset s.packetsIn k default } : State).deliverPacket tok p with
      | some s1 => (s1.unqueue tok (fun _ => true)).useChannels lines
      | none => if p.writes then s.queueWrite tok noCore s.dev lines else s))

/-- COLLECTIVE_FAILURE_NOTICE (R363, R366): packet k: the operation resolves with the status; in an elastic group the member is dropped,
or, from the coordinator, its members disagree. -/
def execCollectiveFailureNotice (k : Nat) (s : State) : Host.Outcome State Fault Refusal :=
  match mget s.packetsIn k with
  | .failure key rank status cause =>
    let s1 : State := { s with packetsIn := mset s.packetsIn k default }
    let o := mget s1.collOps key
    match s1.keyGroup key with
    | .ok g0 =>
      let g := g0.under o.head
      if g.elastic && decide (rank ≠ 0) then
        .next ((s1.setOp key { o with dropped := if g.me = 0 then mset o.dropped rank true else o.dropped }).tryClose g key)
      else if o.failed ≠ 0 then .next s1
      else .next (s1.setOp key { o with failed := status, cause := cause })
    | _ => .next s1
  | _ => .next s

/-- A request of this device is back: its source chooses again, or it fails when its reach timeout has passed (R352). -/
def State.requestBack (s : State) (id : Nat) : State :=
  let r := mget s.net id
  if r.kind = .none || decide (devOf r.pa = s.dev) || decide (r.dev ≠ s.dev) || !r.left then s
  else if s.reachOver r.bornAt then s.failRequest id r r.reachCause
  else s.depart id { r with left := false }

/-- The operation of this device that fails when one of its packets cannot be sent for the reach timeout: bulk data of its own, the request of a
RECV, a contribution, but for one to an elastic group's coordinator, which waits; answers, grants and results have none (R352, R366, R389). -/
def State.unsent (s : State) (p : Packet) : Option State :=
  match p with
  | .bulk _ op false _ _ _ _ _ _ => some (s.bulkFailed op cTranslation)
  | .podPull _ op _ _ _ _ _ => some (s.bulkFailed op cTranslation)
  | .contribution key _ _ head _ _ _ =>
    match s.keyGroup key with
    | .ok g => if (g.under head).elastic then none else some (s.failOp (g.under head) key 3 cTranslation)
    | _ => some s
  | _ => none

/-- A packet of this device that is no request is back: it leaves again under its first time, or its operation fails (R351, R352, R389). -/
def State.packetBack (s : State) (id : Nat) : State :=
  let x := mget s.packetsOut id
  let s1 : State := { s with packetsOut := mset s.packetsOut id default }
  if x.p = .none then s
  else if x.sess ≠ 0 then { s1 with held := mset s1.held id x }
  else match (if s.reachOver x.at_ then s1.unsent x.p else none) with
    | some s2 => s2
    | none => s1.emitSince x.dom x.at_ x.dst x.flits x.p

/-- PACKET_RETURN (R351, R352, R389): a packet of this device comes back; a multicast copy with the requests of all its members. A copy that this device has
made as a gateway goes on back to its source. -/
def execPacketReturn (k : Nat) (s : State) : Host.Outcome State Fault Refusal :=
  let s1 : State := { s with packetsIn := mset s.packetsIn k default }
  match mget s.packetsIn k with
  | .returned id =>
    .next (match (mget s1.packetsOut id).p with
      | .multicast _ ids => ids.foldl (fun s e => s.requestBack e.2) { s1 with packetsOut := mset s1.packetsOut id default }
      | .request r =>
        if r.dev = s.dev then s1.requestBack id
        else { s1 with packetsOut := mset s1.packetsOut id default }.emit 2 r.dev (flitsOf r.payload) (.copyReturned r.peerId)
      | _ => if (mget s1.net id).kind = .none then s1.packetBack id else s1.requestBack id)
  | .copyReturned id => .next (s1.requestBack id)
  | _ => .next s

/-! Reach timeout. -/

/-- The number of a collective list's running command, when it has waited for an unreachable member for the reach timeout (R352). -/
def State.runOver (s : State) (r : CollRun) : Bool := r.live && decide (r.heldAt ≠ 0) && s.reachOver (r.heldAt - 1)

/-- A list ends with a result; it keeps no place at a home (R249, R361). -/
def State.listEnd (s : State) (k : Nat) (r : CollRun) (status cause detail : Nat) : State :=
  ({ s with colls := mset s.colls k default }).endOp r.handle.toNat status cause detail

/-- A packet that is held here and whose operation fails with the reach timeout. -/
def State.heldOver (s : State) (k : Nat) : Option State :=
  let x := mget s.held k
  if x.port = 0 && x.sess = 0 && s.reachOver x.at_ then { s with held := mset s.held k default }.unsent x.p else none

/-- The copy with handle k has waited for an unreachable device for the reach timeout. -/
def State.copyOverdue (s : State) (k : Nat) : Bool :=
  let op := mget s.ops k
  (match op.kind with | .copy _ => true | _ => false) && decide (op.heldAt ≠ 0) && s.reachOver (op.heldAt - 1)

/-- REACH_TIMEOUT (R352): request or packet k that is held at its source, the collective command of list k, or the copy with handle k; an
ordered flag is held once it may leave. -/
def execReachTimeout (k : Nat) (s : State) : Host.Outcome State Fault Refusal :=
  let r := mget s.net k
  let run := mget s.colls k
  if decide (r.kind ≠ .none) && decide (r.dev = s.dev) && decide (devOf r.pa ≠ s.dev) && !r.left && (!r.kind.isWrite || r.counted)
      && decide (r.path ≠ pathRouter) && s.reachOver r.bornAt then .next (s.failRequest k r r.reachCause)
  else if s.runOver run then
    let s1 := match s.keyGroup (run.op - 1) with
      | .ok g => if run.op = 0 then s else s.failOp g (run.op - 1) 3 cTranslation
      | _ => s
    .next (s1.listEnd k run 3 cTranslation run.index)
  else if s.copyOverdue k then .next (s.bulkFailed (4 * k) cTranslation)
  else .next ((s.heldOver k).getD s)

/-! Ordered flags. -/

/-- A held ordered flag of this device. -/
def State.heldFlag (s : State) (k : Nat) : Bool :=
  let r := mget s.net k
  decide (r.kind ≠ .none) && r.flagged && !r.left && decide (r.dev = s.dev) && decide (devOf r.pa ≠ s.dev)

/-- Counters of the flag's strand and destination in its own switch, and in the other. -/
def State.flagSum (s : State) (k : Nat) (own : Bool) : Nat :=
  let r := mget s.net k
  let d := domOf (s.crew r.crew).core
  s.pathSum (if own then d else 1 - d) r.crew r.strand (devOf r.pa)

/-- ORDERED_FLAG_QUERY (R356): the switch of flag k asks the other; one that holds no counter answers at once. -/
def execOrderedFlagQuery (k : Nat) (s : State) : Host.Outcome State Fault Refusal :=
  if s.heldFlag k && decide (s.flagSum k true = 0) && decide (mget s.flagAsk k = 0) then
    .next { s with flagAsk := mset s.flagAsk k 1 }
  else .next s

/-- ORDERED_FLAG_ANSWER (R356): the other switch's counters have reached zero. -/
def execOrderedFlagAnswer (k : Nat) (s : State) : Host.Outcome State Fault Refusal :=
  if s.heldFlag k && decide (mget s.flagAsk k = 1) && decide (s.flagSum k false = 0) && !s.bridgeDown then
    .next ({ s with flagAsk := mset s.flagAsk k 2 }).flagsLeave
  else .next s

/-! Pacing. -/

/-- DEMAND (R357): packet k, a bulk source's demand. -/
def execDemand (k : Nat) (s : State) : Host.Outcome State Fault Refusal :=
  match mget s.packetsIn k with
  | .demand d n =>
    .next { s with packetsIn := mset s.packetsIn k default, demands := mset s.demands d (mget s.demands d + n) }
  | _ => .next s

/-- Grants that this device may issue in a window (R358). -/
def State.pace (s : State) : Nat := max 1 (nbits s.fabcfg.toNat 8 8)

/-- The source that is served next: the lowest device after the one served last with demand, else the lowest (R357); a
port that withholds grants under its budget is passed over (R380). -/
def State.nextSource (s : State) : Option Nat :=
  let held := fun (d : Nat) => match s.choosePath d with
    | some (_, port) => decide (s.time < (mget s.ports port).grantsHeld)
    | none => false
  match s.demands.find? (fun e => decide (s.lastServed < e.1) && !held e.1) with
  | some e => some e.1
  | none => (s.demands.find? (fun e => !held e.1)).map (·.1)

/-- GRANT_ISSUE (R357): the next grant of this window of 256 base cycles, if one is left in it. -/
def execGrantIssue (s : State) : Host.Outcome State Fault Refusal :=
  let w := s.time / 256
  let used := if s.grantWindow = w then s.grantsUsed else 0
  if used < s.pace then
    match s.nextSource with
    | some d =>
      let s1 := s.emit 2 d 1 (.grant s.dev)
      .next { s1 with demands := mset s1.demands d (mget s1.demands d - grantBytes), lastServed := d, grantWindow := w
                      grantsUsed := used + 1 }
    | none => .next s
  else .next s

/-- GRANT_ARRIVAL (R357): packet k, a grant of 4 KiB; RECVs of that device and results owed to it take it first. -/
def execGrantArrival (k : Nat) (s : State) : Host.Outcome State Fault Refusal :=
  match mget s.packetsIn k with
  | .grant d =>
    let s1 := ({ s with packetsIn := mset s.packetsIn k default, credits := mset s.credits d (mget s.credits d + grantBytes) }.grantTo d).serveAll d
    .next (s1.collOps.foldl (fun s e => match (if e.2.owed.isEmpty then .unregistered else s.keyGroup e.1) with
      | .ok g => s.payOwed (g.under e.2.head) e.1
      | _ => s) s1)
  | _ => .next s

/-! Links and the bridge. -/

/-- LINK_REPLAY (R353): port k replays; nothing else changes. -/
def execLinkReplay (k : Nat) (s : State) : Host.Outcome State Fault Refusal :=
  let p := mget s.ports k
  .next { s with ports := mset s.ports k { p with replays := p.replays + 1 } }

/-- UALink ports of a device (R350). -/
def portCount : Nat := 36

/-- A link is down or up: port k < 36 of this device, else hop k - 36 beyond it, by 64 × target + path. -/
def State.setLink (s : State) (k : Nat) (down : Bool) : State :=
  if k < portCount then { s with ports := mset s.ports k { mget s.ports k with down := down } }
  else { s with hopsDown := mset s.hopsDown (k - portCount) down }

/-- LINK_DOWN (R389): packets that cannot go on come back by PACKET_RETURN. -/
def execLinkDown (k : Nat) (s : State) : Host.Outcome State Fault Refusal := .next (s.setLink k true)

/-- LINK_UP (R389): held packets try again. -/
def execLinkUp (k : Nat) (s : State) : Host.Outcome State Fault Refusal := .next (s.setLink k false).linksChanged

/-- BRIDGE_RETRAIN (R370). -/
def execBridgeRetrain (s : State) : Host.Outcome State Fault Refusal :=
  .next (if s.bridgeDown then s else { s with bridgeDown := true, bridgeAt := s.time })

/-- A packet between a core and a home slice of this device crosses the bridge. -/
def State.crosses (s : State) (r : Req) : Bool :=
  decide (r.kind ≠ .none) && decide (r.dev = s.dev) && decide (devOf r.pa = s.dev) && decide (domOf r.core ≠ s.homeSlice r.pa / 256)

/-- Packets on their way across the bridge: requests, replies and acknowledgements, packets for the other domain's ports, and the commit
segments that are still on their way. -/
def State.crossing (s : State) : Nat :=
  (s.net.filter (fun e => s.crosses e.2)).length + (s.back.filter (fun e => s.crosses e.2)).length
  + (s.held.filter (fun e => decide (e.2.port ≠ 0))).length
  + ((s.ops.filter (fun e => e.2.readOut)).map (fun e => ((List.range (tileSegs e.2.form.ranked)).filter (fun g =>
      !mget e.2.units g && decide (domOf e.2.core ≠ s.homeSlice (e.2.segmentPa g) / 256))).length)).sum

/-- The bridge's retrain lasts at most this many base cycles (R370). -/
def retrainMax : Nat := 2048

/-- BRIDGE_RETRAIN_DONE (R370): every unacknowledged packet is sent again, in its order. -/
def execBridgeRetrainDone (s : State) : Host.Outcome State Fault Refusal :=
  .next (if s.bridgeDown then { s with bridgeDown := false, bridgeResent := s.bridgeResent + s.crossing }.sendHeld else s)

/-! Elastic timeouts. -/

/-- Lease ticks of a second (R366). -/
def ticksPerSecond : Nat := 200000000

/-- A contribution of a rank to an operation is at a port. -/
def State.arriving (s : State) (key rank : Nat) : Bool :=
  s.packetsIn.any (fun e => match e.2 with
    | .contribution c r _ _ _ _ _ => decide (c = key) && decide (r = rank)
    | .sealed _ _ _ _ (.contribution c r _ _ _ _ _) => decide (c = key) && decide (r = rank)
    | _ => false)

/-- The timeout of a member of a generation has expired and its contribution is not there: never rank 0's (R366, R371). -/
def State.memberLate (s : State) (g : CollGroup) (key rank : Nat) : Bool :=
  let o := mget s.collOps key
  g.elastic && decide (g.me = 0) && decide (0 < rank) && decide (rank < g.n) && decide (o.clock ≠ 0) && !o.closed && !o.has rank
  && !mget o.dropped rank && decide (o.clock - 1 + (g.at_ rank).tmo * ticksPerSecond ≤ s.ltime) && !s.arriving key rank

/-- ELASTIC_TIMEOUT (R366): member k mod 1024 of operation k / 1024; a generation that is complete and whose descriptor could not be written yet
closes. -/
def execElasticTimeout (k : Nat) (s : State) : Host.Outcome State Fault Refusal :=
  let key := k / 1024
  let rank := k % 1024
  match s.keyGroup key with
  | .ok g0 =>
    let g := g0.under (mget s.collOps key).head
    if s.memberLate g key rank then
      let o := mget s.collOps key
      .next ((s.setOp key { o with dropped := mset o.dropped rank true }).tryClose g key)
    else .next (s.tryClose g key)
  | _ => .next s

/-! Session keys. -/

/-- New keys from an exchange: both messages, both nonces and the digests of both identities (R368, R369). -/
def Session.rekeyed (x : Session) (nonce bytes digest : List Byte) : Session :=
  { x with state := 2, counter := 0, rekeying := false, doneNonce := nonce, oldKeys := if x.state = 2 then some x.keys else none
           keys := Config.sessionKeys (x.ownKey ++ bytes ++ x.ownNonce ++ nonce ++ Config.ownIdentity ++ digest) }

/-- A bare message for an OPEN session is no packet of it: dropped and counted (R369). -/
def State.dropBare (s : State) (i : Nat) : State :=
  let x := mget s.sessions i
  { s with sessions := mset s.sessions i { x with badTags := x.badTags + 1 } }

/-- The peer's nonce arrives. One that came before is answered with this side's key message again: the peer lacks it (R368). -/
def State.helloCame (s : State) (i : Nat) (inside : Bool) (n : List Byte) : State :=
  let x := mget s.sessions i
  if x.state = 3 then s
  else if !n.isEmpty && decide (x.peerNonce = n) then (if inside then s else s.emitUe 2 i (.keyMessage i false x.ownNonce x.ownKey))
  else if x.state = 2 && !inside then s.dropBare i
  else s.takeNonce i n

/-- SHA-512 of the identity key that the peer's entry names (R368). -/
def State.peerDigest (s : State) (i : Nat) : List Byte := mgetList s.sessTab (256 * i + 16) 64

/-- The peer's key message arrives with its nonce: a good one, signed over both nonces, opens the session or replaces its keys, a bad one puts it in
FAILED (R368, R369). -/
def State.keyCame (s : State) (i : Nat) (inside : Bool) (n b : List Byte) : State :=
  let x := mget s.sessions i
  if x.state = 3 then s
  else if x.state = 2 && !inside then (if x.doneNonce = n then s else s.dropBare i)
  else if !x.exchanging then s
  else if !Config.keyMessageGood (s.peerDigest i ++ x.ownNonce ++ n ++ b) then { s with sessions := mset s.sessions i { x with state := 3 } }
  else
    let s1 := if x.peerNonce = n then s else s.takeNonce i n
    { s1 with sessions := mset s1.sessions i ((mget s1.sessions i).rekeyed n b (s.peerDigest i)) }.sendQueued i

/-- KEY_EXCHANGE (R368): packet k, a message of an exchange of keys. -/
def execKeyExchange (k : Nat) (s : State) : Host.Outcome State Fault Refusal :=
  let s1 : State := { s with packetsIn := mset s.packetsIn k default }
  match mget s.packetsIn k with
  | .hello i inside n => .next (s1.helloCame i inside n)
  | .keyMessage i inside n b => .next (s1.keyCame i inside n b)
  | _ => .next s

/-- The counter at which this device begins a new exchange. -/
def rekeyAt : Nat := counterLimit - 2 ^ 20

/-- REKEY (R369): session k, whose packet counter nears its limit. -/
def execRekey (k : Nat) (s : State) : Host.Outcome State Fault Refusal :=
  let x := mget s.sessions k
  if x.state = 2 && decide (rekeyAt ≤ x.counter) && !x.rekeying then .next (s.openExchange k) else .next s

/-- RETRANSMISSION_TIMEOUT (R367): while session k opens, its messages of the exchange are sent again; afterwards its oldest unacknowledged packet is
sealed and sent again. -/
def execRetransmissionTimeout (k : Nat) (s : State) : Host.Outcome State Fault Refusal :=
  let x := mget s.sessions k
  if x.state = 1 then
    let s1 := s.emitUe 2 k (.hello k false x.ownNonce)
    .next (if x.peerNonce.isEmpty then s1 else s1.emitUe 2 k (.keyMessage k false x.ownNonce x.ownKey))
  else match x.unacked with
  | (n, p) :: _ =>
    if s.sessionReady k then
      .next ({ s with sessions := mset s.sessions k { x with counter := x.counter + 1 } }.emitUe 2 k (.sealed k n x.counter [] p))
    else .next s
  | [] => .next s

end Sys2Proof.Machine
end

