-- ==== Sys2Proof/Machine/Collective.lean ====
section
/-! DEFINITION. The commands of collective lists (R361..R366): one step of the running command of list k at a time. -/

namespace Sys2Proof.Machine

/-! Commands. -/

/-- A command with its addresses as written, before the base is added (R361). -/
structure Cmd where
  op : Nat
  flags : Nat
  group : Nat
  len : Nat
  addr0 : Nat
  addr1 : Nat
  arg : Nat
  base : Nat
  deriving DecidableEq, Repr

/-- A command from its 32 bytes. -/
def cmdOf (b : List Byte) (base : Word64) : Cmd :=
  let f := fun (o n : Nat) => leNat ((b.drop o).take n)
  { op := f 0 1, flags := f 1 1, group := f 2 2, len := f 4 4, addr0 := f 8 8, addr1 := f 16 8, arg := f 24 8, base := base.toNat }

/-- ADDR0 under BREL0. -/
def Cmd.a0 (c : Cmd) : Nat := if nbit c.flags 0 then (c.addr0 + c.base) % 2 ^ 64 else c.addr0
/-- ADDR1 under BREL1. -/
def Cmd.a1 (c : Cmd) : Nat := if nbit c.flags 1 then (c.addr1 + c.base) % 2 ^ 64 else c.addr1
/-- DT: BF16. -/
def Cmd.bf16 (c : Cmd) : Bool := nbit c.flags 2
/-- ALL. -/
def Cmd.all_ (c : Cmd) : Bool := nbit c.flags 3
/-- FMT. -/
def Cmd.fmt (c : Cmd) : Nat := nbits c.flags 5 2
/-- The rank in ARG. -/
def Cmd.rank (c : Cmd) : Nat := nbits c.arg 0 10
/-- The weir in ARG. -/
def Cmd.weir (c : Cmd) : Nat := nbits c.arg 32 16

/-- What an operation uses (R361, R362): bits of FLAGS and of ARG; GROUP, LEN, ADDR0, ADDR1. -/
structure CmdUse where
  flags : Nat
  arg : Nat
  group : Bool
  len : Bool
  a0 : Bool
  a1 : Bool
  deriving DecidableEq, Repr

/-- The fields that each operation uses. -/
def cmdUse (op : Nat) : CmdUse :=
  match op with
  | 1 => ⟨0x03, 0xFFFF000003FF, true, true, true, true⟩
  | 2 => ⟨0x03, 0xFFFF000003FF, true, true, true, true⟩
  | 3 => ⟨0x0F, 0xFFFF000303FF, true, true, true, true⟩
  | 4 => ⟨0x03, 0xFFFF000003FF, true, true, true, true⟩
  | 5 => ⟨0x01, 2 ^ 64 - 1, false, false, true, false⟩
  | 6 => ⟨0x01, 0xFFFF, false, false, true, false⟩
  | 7 => ⟨0x00, 2 ^ 64 - 1, true, false, false, false⟩
  | 8 => ⟨0x67, 2 ^ 64 - 1, false, true, true, true⟩
  | 9 => ⟨0x67, 1, false, true, true, true⟩
  | 10 => ⟨0x02, 0, true, false, false, true⟩
  | _ => ⟨0, 0, false, false, false, false⟩

/-- The limits of R362 and R365. -/
def cmdLimit (c : Cmd) : Bool :=
  match c.op with
  | 1 => decide (c.len % 4 ≠ 0)
  | 2 => decide (c.len % 4 ≠ 0)
  | 3 => decide (c.len % 64 ≠ 0) || nbit c.arg 17
  | 4 => decide (c.len % 4 ≠ 0)
  | 5 => !selectorOk (BitVec.ofNat 64 c.a0) false
  | 6 => decide (nbits c.arg 0 16 = 0) || decide (2 ^ 32 ≤ c.a0)
  | 7 => decide (64 ≤ c.group)
  | 8 => decide (c.len % (if c.bf16 then 512 else 1024) ≠ 0) || decide (c.fmt = 0) || decide (c.fmt = 3) || decide (c.arg % 4 ≠ 0)
  | 9 => decide (c.len % (if c.bf16 then 512 else 1024) ≠ 0) || decide (c.fmt = 0) || decide (c.fmt = 3)
  | _ => decide (10 < c.op)

/-- The command breaks a rule that needs no group (R361). -/
def Cmd.bad (c : Cmd) : Bool :=
  let u := cmdUse c.op
  decide (c.flags.land u.flags ≠ c.flags) || decide (c.arg.land u.arg ≠ c.arg) || (!u.group && decide (c.group ≠ 0))
  || (!u.len && decide (c.len ≠ 0)) || (!u.a0 && decide (c.addr0 ≠ 0)) || (!u.a1 && decide (c.addr1 ≠ 0)) || cmdLimit c

/-! Lists. -/

/-- Change a running list. -/
def State.setRun (s : State) (k : Nat) (r : CollRun) : State := { s with colls := mset s.colls k r }

/-- The command completes; the list goes on with the next (R361). -/
def State.listNext (s : State) (k : Nat) (r : CollRun) : State :=
  (s.unqueue (opToken r.handle.toNat) (fun _ => true)).setRun k { (default : CollRun) with live := true, handle := r.handle, index := r.index + 1 }

/-- The list resolves with a status and a cause, DETAIL the command's index (R361..R363). -/
def State.listFail (s : State) (k : Nat) (r : CollRun) (status cause : Nat) : State := s.listEnd k r status cause r.index

/-- The command waits for a member that cannot be reached; the reach timeout runs from the first attempt (R352). -/
def State.listHeld (s : State) (k : Nat) (r : CollRun) : State :=
  s.setRun k { r with heldAt := if r.heldAt = 0 then s.time + 1 else r.heldAt }

/-- The engine that runs a list: that of its core's domain. -/
def Op.engine (op : Op) : Nat := domEngine (domOf op.core)

/-- The way of a list's engine to some lines is open: the bridge and the lines' pseudo-channels (R370, R378). -/
def State.listOpen (s : State) (op : Op) (lines : List Nat) : Bool := !s.bridgeStops (domOf op.core) lines && s.channelsReady lines

/-- Read memory for a list, once its pages have been walked and the way to its lines is open (R339, R370, R378). -/
def State.listRead (s : State) (r : CollRun) (op : Op) (va n : Nat) : RdRes × State :=
  let tok := opToken r.handle.toNat
  if n = 0 then (.ok [], s)
  else if !(s.pagesMissed tok op.engine op.part op.space [(va, n)]).isEmpty then
    (.busy, s.withWalks tok op.engine op.part op.space [(va, n)] id)
  else
    let s1 := s.walksDone tok
    let lines := s1.virtLines op.engine op.part op.space va n permR
    if s1.listOpen op lines then (s1.rdVirt op.engine op.part op.space va n, s1.useChannels lines) else (.busy, s1.wakeChannels lines)

/-- What a step gives a command that writes its results: all are written, one more step, or a failure. -/
inductive OutRes where
  | done
  | wait (s : State)
  | fault (cause : Nat)

/-- Write the first part of a list's results that can be written, each within one line (R136); when none can, the first waits at its home (R95). `wr`
is the write of a part, with the cause of its failure; it counts for its line when the command has not written there before (R117). `lines` is the line
that it writes. -/
def State.writeOut (s : State) (k : Nat) (r : CollRun) (op : Op) (lines : Nat × List Byte → List Nat)
    (wr : Bool → Nat × List Byte → Option (State × Nat)) : OutRes :=
  let tok := opToken r.handle.toNat
  let write := fun (x : Nat × List Byte) => wr (!(lines x).all r.lines.contains) x
  match r.out with
  | [] => .done
  | head :: _ =>
    match (List.range r.out.length).find? (fun i => s.listOpen op (lines (r.out.getD i head)) && (write (r.out.getD i head)).isSome) with
    | none =>
      .wait (if s.listOpen op (lines head) then s.queueWrite tok noCore s.dev (lines head) else s.wakeChannels (lines head))
    | some i =>
      let x := r.out.getD i head
      match write x with
      | some (s1, 0) =>
        .wait (((s1.unqueue tok (fun l => (lines x).contains l)).useChannels (lines x)).setRun k
          { r with out := r.out.eraseIdx i, lines := r.lines ++ lines x })
      | some (_, c) => .fault c
      | none => .wait s

/-- Results for virtual memory of the list's space. -/
def State.writeVirt (s : State) (k : Nat) (r : CollRun) (op : Op) : OutRes :=
  let tok := opToken r.handle.toNat
  let ranges := r.out.map (fun x => (x.1, x.2.length))
  if !(s.pagesMissed tok op.engine op.part op.space ranges).isEmpty then .wait (s.withWalks tok op.engine op.part op.space ranges id)
  else (s.walksDone tok).writeOut k r op (fun x => s.virtLines op.engine op.part op.space x.1 x.2.length permW) (fun counts x =>
    match (s.walksDone tok).wrVirtBy tok counts op.engine op.part op.space x.1 x.2 with
    | .ok s1 => some (s1, 0)
    | .fault c _ => some (s, c)
    | .busy => none)

/-- Results for physical memory of this device. -/
def State.writePhys (s : State) (k : Nat) (r : CollRun) (op : Op) : OutRes :=
  s.writeOut k r op (fun x => linesOf x.1 x.2.length) (fun _ x => s.bulkPhys (opToken r.handle.toNat) 0 x.1 x.2 0 0)

/-- The weir of this device that a command credits or waits on, 0 for none (R362). -/
def State.cmdWeir (s : State) (op : Op) (c : Cmd) : Nat :=
  if c.op = 6 then weirKey op.part (s.launchOf op.launchId).group (nbits c.arg 0 16)
  else if c.weir = 0 ∨ c.op = 0 ∨ 4 < c.op then 0
  else match s.collGroup op.part c.group with
    | .ok g =>
      let m := g.at_ (if c.op = 1 then c.rank else g.me)
      if !m.ext && decide (m.id = s.dev) then weirKey op.part m.wgrp c.weir else 0
    | _ => 0

/-- Credit for bytes that have performed here, unless WDROP has removed the weir since the command started (R254, R362). -/
def State.creditHere (s : State) (r : CollRun) (weir n : Nat) : State := if r.weirGone then s else s.creditWeir weir n

/-- The list may start its first command: those issued before it in its context have (R133). -/
def State.listTurn (s : State) (r : CollRun) : Bool :=
  decide (r.index ≠ 0) || !r.cmd.isEmpty || (s.earlierOps r.handle.toNat).all (fun e => e.2.started)

/-- A step of list k when its running command is one of `mine`: the command is read when it starts; a cancelled list stops before its
next command (R133, R135, R250, R361). -/
def State.listStep (s : State) (k : Nat) (mine : Nat → Bool) (body : State → CollRun → Op → Cmd → State) :
    Host.Outcome State Fault Refusal :=
  let r := mget s.colls k
  let op := mget s.ops r.handle.toNat
  if !r.live then .next s
  else if r.cmd.isEmpty && op.cancel then .next (s.listEnd k r 4 0 0)
  else if !s.listTurn r then .next s
  else
    match (if r.cmd.isEmpty then s.listRead r op (op.a.toNat + 32 * r.index) 32 else (.ok r.cmd, s)) with
    | (.busy, s1) => .next s1
    | (.fault c _, s1) => .next (s1.listFail k r 3 c)
    | (.ok b, s1) =>
      let c := cmdOf b op.b
      let op1 := { op with started := true }
      let r1 := if r.cmd.isEmpty then { r with cmd := b, weir := s.cmdWeir op c } else r
      if mine c.op then .next (body (({ s1 with ops := mset s1.ops r.handle.toNat op1 }).setRun k r1) r1 op1 c)
      else .next s

/-- A command without a collective operation: BAD_SHAPE when it breaks a rule, else its effect. -/
def plainCmd (k : Nat) (body : State → CollRun → Op → Cmd → State) (s : State) (r : CollRun) (op : Op) (c : Cmd) : State :=
  if c.bad then s.listFail k r 2 0 else body s r op c

/-- A command of a group that is no collective operation: its members, with a rank within them (R360). -/
def groupCmd (k : Nat) (body : State → CollRun → Op → Cmd → CollGroup → State) : State → CollRun → Op → Cmd → State :=
  plainCmd k (fun s r op c =>
    match s.collGroup op.part c.group with
    | .ok g => if g.n ≤ c.rank then s.listFail k r 2 0 else body s r op c g
    | .fault e => s.listFail k r 3 e
    | _ => s.listFail k r 2 0)

/-- END (R362); an OP that no operation has is a bad shape (R361). -/
def execCEnd (k : Nat) (s : State) : Host.Outcome State Fault Refusal :=
  s.listStep k (fun n => n = 0 || decide (10 < n)) (plainCmd k (fun s r _ _ => s.listEnd k r 0 0 0))

/-- WAITTL (R362). -/
def execWaittl (k : Nat) (s : State) : Host.Outcome State Fault Refusal :=
  s.listStep k (fun n => n = 5) (plainCmd k (fun s r op c =>
    if c.arg ≤ s.timelineOf op.core (BitVec.ofNat 64 c.a0) then s.listNext k r else s))

/-- WAITWEIR (R362): an entry that is absent is a bad shape, a spilled one is waited for. -/
def execWaitweir (k : Nat) (s : State) : Host.Outcome State Fault Refusal :=
  s.listStep k (fun n => n = 6) (plainCmd k (fun s r op c =>
    let w := mget s.weirs (weirKey op.part (s.launchOf op.launchId).group (nbits c.arg 0 16))
    if w.state = 0 || r.weirGone then s.listFail k r 2 0
    else if w.state = 1 && phasePassed w.ph (BitVec.ofNat 32 c.a0) then s.listNext k r else s))

/-- SIGNAL (R362). -/
def execSignal (k : Nat) (s : State) : Host.Outcome State Fault Refusal :=
  s.listStep k (fun n => n = 7) (plainCmd k (fun s r op c =>
    let key := 64 * domOf op.core + c.group
    ({ s with signals := mset s.signals key (mget s.signals key + BitVec.ofNat 64 c.arg) }).listNext k r))

/-! Compression. -/

/-- Groups of 16 consecutive elements. -/
def chunks {α : Type} (n : Nat) (l : List α) : List (List α) :=
  (List.range ((l.length + n - 1) / n)).map (fun i => (l.drop (n * i)).take n)

/-- Elements of a byte string as FP32 patterns (R365). -/
def wideElems (bf16 : Bool) (l : List Byte) : List Nat :=
  if bf16 then (chunks 2 l).map (fun b => leNat b * 2 ^ 16) else (chunks 4 l).map leNat

/-- A block as it is encoded: its q values and its scale byte, QNT's for a signed, scaled slot with offset 0 under RNE (R364). -/
def encodeBlock (xs : List Nat) : List Int × Nat :=
  let v := xs.map (fmtF32.value false)
  let m := v.foldl (fun acc x => magMax acc (match x with | .fin _ k y => some (k, y) | _ => if x.isNan then acc else none)) (some (0, 0))
  let byte : Nat := match m with
    | none => 254
    | some (k, y) => if k = 0 then 127 else (max 0 (min 254 (leastExp k y 127 + 127))).toNat
  let q := fun (x : Fl) => match x with
    | .nan _ => (0 : Int)
    | .inf sg => if sg then -127 else 127
    | .fin sg n e => max (-127) (min 127 (roundInt rneKeep sg n (e - ((byte : Int) - 127))))
  if v.any Fl.isNan then (xs.map (fun _ => 0), 255) else (v.map q, byte)

/-- An element as it is decoded (R364). -/
def decodeElem (fmt : Nat) (q : Int) (byte : Nat) : Fl :=
  if byte = 255 then .nan false
  else if fmt = 1 then .fin (decide (q < 0)) q.natAbs ((byte : Int) - 127)
  else
    let y := q / 16 * 2 + 1
    .fin (decide (y < 0)) y.natAbs ((byte : Int) - 124)

/-- The stored bytes of a block, without its scale (R364). -/
def blockBytes (fmt : Nat) (q : List Int) : List Byte :=
  if fmt = 1 then q.map (fun x => BitVec.ofInt 8 x)
  else
    let r := planify (q.map (fun x => (BitVec.ofInt 8 x).toNat)) 0
    (List.range 8).map (fun b => BitVec.ofNat 8 (recByte r b))

/-- The q values of a stored block. -/
def blockInts (fmt : Nat) (l : List Byte) : List Int :=
  if fmt = 1 then l.map (fun b => b.toInt)
  else
    let r : BitVec 136 := BitVec.ofNat 136 (leNat l)
    (List.range 16).map (fun i => sint 8 (unplane r i))

/-- Bytes of a block without its scale, and of a group of 16 blocks. -/
def blockSize (fmt : Nat) : Nat := if fmt = 1 then 16 else 8
/-- Bytes of a group. -/
def groupBytes (fmt : Nat) : Nat := 16 * blockSize fmt + 16

/-- A group from its 16 encoded blocks. -/
def encodeGroup (fmt : Nat) (bs : List (List Int × Nat)) : List Byte :=
  bs.flatMap (fun b => blockBytes fmt b.1) ++ bs.map (fun b => BitVec.ofNat 8 b.2)

/-- The decoded elements of a group. -/
def decodeGroup (fmt : Nat) (l : List Byte) : List Fl :=
  (List.range 16).flatMap (fun b =>
    let byte := (l.getD (16 * blockSize fmt + b) 0).toNat
    (blockInts fmt ((l.drop (blockSize fmt * b)).take (blockSize fmt))).map (fun q => decodeElem fmt q byte))

/-- Elements of a command: 4 bytes each, or 2. -/
def Cmd.elems (c : Cmd) : Nat := c.len / (if c.bf16 then 2 else 4)

/-- The sum of R365, rounded once. -/
def addFl (a b : Fl) : Nat := (fmtF32.add rneKeep a b).1

/-- What COMPRESS makes of its elements: the groups, and the new residuals (R364, R365). -/
def compressed (fmt : Nat) (xs : List Nat) : List Byte × List Nat :=
  let blocks := (chunks 16 xs).map (fun x => (x, encodeBlock x))
  ((chunks 16 (blocks.map (·.2))).flatMap (encodeGroup fmt),
   blocks.flatMap (fun b => List.zipWith (fun x q => if b.2.2 = 255 then 0
     else addFl (fmtF32.value false x) (decodeElem fmt q b.2.2).neg) b.1 b.2.1))

/-- A command that forms its results at one instant and then writes them part by part (R136): `reads` are what it reads, `form` what it
writes at which addresses. -/
def State.formCmd (s : State) (k : Nat) (r : CollRun) (op : Op) (reads : List (Nat × Nat)) (form : List (List Byte) → List (Nat × List Byte)) : State :=
  if r.formed then
    match s.writeVirt k r op with
    | .done => s.listNext k r
    | .wait s1 => s1
    | .fault e => s.listFail k r 3 e
  else
    let rs := reads.foldl (fun (x : RdRes × List (List Byte) × State) e =>
      match x with
      | (.ok _, ls, s1) => match s1.listRead r op e.1 e.2 with
        | (.ok l, s2) => (.ok [], ls ++ [l], s2)
        | (y, s2) => (y, ls, s2)
      | y => y) (.ok [], [], s)
    match rs with
    | (.ok _, ls, s1) => s1.setRun k { r with formed := true, lines := [], out := (form ls).flatMap (fun w => lineSpans w.1 w.2) }
    | (.fault e _, _, s1) => s1.listFail k r 3 e
    | (.busy, _, s1) => s1

/-- COMPRESS (R365). -/
def execCompress (k : Nat) (s : State) : Host.Outcome State Fault Refusal :=
  s.listStep k (fun n => n = 8) (plainCmd k (fun s r op c =>
    s.formCmd k r op ((c.a0, c.len) :: (if c.arg = 0 then [] else [(c.arg, 4 * c.elems)])) (fun ls =>
      let src := wideElems c.bf16 (ls.getD 0 [])
      let xs := if c.arg = 0 then src
        else List.zipWith (fun a b => addFl (fmtF32.value false a) (fmtF32.value false b)) src (wideElems false (ls.getD 1 []))
      let y := compressed c.fmt xs
      (c.a1, y.1) :: (if c.arg = 0 then [] else [(c.arg, y.2.flatMap (leBytes 4))]))))

/-- DECOMPRESS (R365). -/
def execDecompress (k : Nat) (s : State) : Host.Outcome State Fault Refusal :=
  s.listStep k (fun n => n = 9) (plainCmd k (fun s r op c =>
    s.formCmd k r op ((c.a0, c.elems / 256 * groupBytes c.fmt) :: (if c.arg = 0 then [] else [(c.a1, c.len)])) (fun ls =>
      let ys := (chunks (groupBytes c.fmt) (ls.getD 0 [])).flatMap (decodeGroup c.fmt)
      let zs := if c.arg = 0 then ys
        else List.zipWith (fun d y => fmtF32.value false (addFl (fmtF32.value false d) y)) (wideElems c.bf16 (ls.getD 1 [])) ys
      let t := if c.bf16 then fmtBF16 else fmtF32
      [(c.a1, zs.flatMap (fun y => leBytes (if c.bf16 then 2 else 4) (t.place rneKeep y).1))])))

/-! Members' memory. -/

/-- Where a range lies on a member: parts with their offsets, physical addresses there and lengths (R362). -/
inductive SpanRes where
  | ok (l : List (Nat × Nat × Nat))
  | fault (cause : Nat)
  | busy

/-- Translate a range at this device, once its pages have been walked, and put the member's device in place of the page's (R339, R362). -/
def State.memberSpans (s : State) (r : CollRun) (op : Op) (dev va n need : Nat) : SpanRes × State :=
  let tok := opToken r.handle.toNat
  if n = 0 then (.ok [], s)
  else if !(s.pagesMissed tok op.engine op.part op.space [(va, n)]).isEmpty then
    (.busy, s.withWalks tok op.engine op.part op.space [(va, n)] id)
  else ((pageSpans va n).foldl (fun x p =>
    match x with
    | .ok l => match s.engineXl op.engine op.part op.space p.2.1 need with
      | .ok pa => .ok (l ++ [(p.1, onDevice pa dev, p.2.2)])
      | .fault c => .fault c
      | _ => .busy
    | x => x) (.ok []), s.walksDone tok)

/-- What a part of a transfer to a member gives: it is on its way or being written, a failure, or a wait that leaves a state. -/
inductive MoveRes where
  | ok (s : State)
  | fault (cause : Nat)
  | wait (s : State)

/-- Bytes `lo` to `lo + l.length` of a transfer of `len` bytes to a member, within one line there: a write here, or, once there is credit, the packet that
carries them there; the weir takes the whole length with the last part (R352, R353, R357, R362). -/
def State.toMember (s : State) (k : Nat) (r : CollRun) (op : Op) (m : Member) (va lo len opId weir : Nat) (l : List Byte) : MoveRes :=
  let n := l.length
  let dom := domOf op.core
  let r1 := { r with done := lo + n, heldAt := 0, starved := false }
  let credit := if lo + n = len then len else 0
  if m.ext then .ok ((s.seal dom m.id (.bulk s.dev opId true 0 0 ((va + lo) % 2 ^ 64) l credit weir)).setRun k r1)
  else if !s.inView op.part m.id then .fault cTranslation
  else if !s.canReach m then .wait (s.listHeld k r)
  else match s.memberSpans r op m.id (va + lo) n permW with
    | (.fault c, _) => .fault c
    | (.busy, s1) => .wait s1
    | (.ok spans, s1) =>
      if m.id = s.dev then
        .ok (s1.setRun k { r1 with formed := true, lines := [], out := spans.flatMap (fun e => lineSpans e.2.1 ((l.drop e.1).take e.2.2)) })
      else match s1.useCredit m.id n with
        | none => .wait ((s1.askCredit dom opId m.id (len - lo)).setRun k { r with starved := true })
        | some s2 =>
          .ok (spans.foldl (fun s e =>
            let b := (l.drop e.1).take e.2.2
            (s.wrBytes e.2.1 b).emit dom m.id (flitsOf b.length) (.bulk s.dev opId false 0 0 e.2.1 b credit weir)) s2 |>.setRun k r1)

/-- The sessions that a command names: all ready, one failed, or a wait while they open (R368, R369). -/
def State.openSessions (s : State) (ms : List Member) : State × Bool × Bool :=
  let ids := (ms.filter (fun m => m.ext)).map (fun m => m.id)
  (ids.foldl State.nameSession s, ids.all s.sessionReady, ids.any (fun i => decide ((mget s.sessions i).state = 3)))

/-- A packet with an operation number is not yet acknowledged in a session. -/
def State.unackedIn (s : State) (i opId : Nat) : Bool :=
  let mine := fun (p : Packet) => match p with | .bulk _ o _ _ _ _ _ _ _ => decide (o = opId) | _ => false
  (mget s.sessions i).unacked.any (fun e => mine e.2) || (mget s.sessions i).queued.any mine

/-- Bytes of the next part of a transfer: as far as the line goes that it is written to. -/
def partLen (va done len : Nat) : Nat := min (128 - (va + done) % 128) (len - done)

/-- The next step of a transfer of `len` bytes at `va0` to a member at `va`: the line that this device is still writing, else the next
part. The last one leaves when the others have performed, as `settled` says, so that its credit covers them all; none once it is over (R362). -/
def State.moveStep (s : State) (k : Nat) (r : CollRun) (op : Op) (m : Member) (va0 va len opId weir : Nat) (settled : Bool) : Option MoveRes :=
  let n := partLen va r.done len
  if r.formed then
    match s.writePhys k r op with
    | .wait s1 => some (.wait s1)
    | .fault e => some (.fault e)
    | .done =>
      some (.ok ((if r.done = len then s.creditHere r weir len else s).setRun k { r with formed := false }))
  else if n = 0 then (if settled then none else some (.wait s))
  else if r.done + n = len && !settled then some (.wait s)
  else match s.listRead r op (va0 + r.done) n with
    | (.fault e _, _) => some (.fault e)
    | (.busy, s1) => some (.wait s1)
    | (.ok l, s1) => some (s1.toMember k r op m va r.done len opId weir l)

/-- SEND (R362): it completes when its data has performed at the member. -/
def execSend (k : Nat) (s : State) : Host.Outcome State Fault Refusal :=
  s.listStep k (fun n => n = 1) (groupCmd k (fun s r op c g =>
    let m := g.at_ c.rank
    let x := s.openSessions [m]
    let settled := if m.ext then !s.unackedIn m.id (4 * k + 3) else decide (m.id = s.dev) || decide (r.landed = r.done)
    if r.cause ≠ 0 then s.listFail k r 3 r.cause
    else if x.2.2 then s.listFail k r 3 cProtection
    else if !x.2.1 then x.1
    else match s.moveStep k r op m c.a0 c.a1 c.len (4 * k + 3) (weirKey op.part m.wgrp c.weir) settled with
      | none => s.listNext k r
      | some (.fault e) => s.listFail k r 3 e
      | some (.ok s1) => s1
      | some (.wait s1) => s1))

/-- RECV's data is here: the credit on this device, then the next command. -/
def State.recvDone (s : State) (k : Nat) (r : CollRun) (op : Op) (c : Cmd) (g : CollGroup) : State :=
  (s.creditHere r (weirKey op.part (g.at_ g.me).wgrp c.weir) c.len).listNext k r

/-- A RECV from this device's own memory: line by line (R362). -/
def State.recvHere (s : State) (k : Nat) (r : CollRun) (op : Op) (c : Cmd) : State :=
  let n := partLen c.a0 r.done c.len
  if r.formed then
    match s.writeVirt k r op with
    | .done => s.setRun k { r with formed := false, done := r.done + n }
    | .wait s1 => s1
    | .fault e => s.listFail k r 3 e
  else match s.memberSpans r op s.dev (c.a1 + r.done) n permR with
    | (.fault e, _) => s.listFail k r 3 e
    | (.busy, s1) => s1
    | (.ok spans, s1) =>
      let lines := spans.flatMap (fun p => linesOf p.2.1 p.2.2)
      if spans.any (fun p => (s.poisonAt p.2.1 p.2.2).isSome) then s.listFail k r 3 cDataError
      else if !s.listOpen op lines then s1.wakeChannels lines
      else (s1.useChannels lines).setRun k
        { r with formed := true, lines := [], out := lineSpans (c.a0 + r.done) (spans.flatMap (fun p => s.rdBytes p.2.1 p.2.2)) }

/-- A RECV asks the peer of a session for the next line's bytes; the answer names where they lay (R362). -/
def State.recvPull (s : State) (k : Nat) (r : CollRun) (op : Op) (c : Cmd) (m : Member) : State :=
  let n := partLen c.a0 r.landed c.len
  (s.seal (domOf op.core) m.id (.pull (4 * k + 2) ((c.a1 + r.landed) % 2 ^ 64) n)).setRun k
    { r with landed := r.landed + n, served := (c.a0 + 2 ^ 64 - c.a1) % 2 ^ 64 }

/-- A RECV asks the device of the pod whose memory the translated address names, once (R357, R362). -/
def State.recvAsk (s : State) (k : Nat) (r : CollRun) (op : Op) (c : Cmd) (m : Member) : State :=
  if !s.inView op.part m.id then s.listFail k r 3 cTranslation
  else if !s.canReach m then s.listHeld k r
  else match s.memberSpans r op m.id c.a1 c.len permR with
    | (.fault e, _) => s.listFail k r 3 e
    | (.busy, s1) => s1
    | (.ok spans, s1) =>
      (spans.foldl (fun s e => s.emit (domOf op.core) m.id 1
        (.podPull s.dev (4 * k + 2) op.part op.space e.2.1 e.2.2 ((c.a0 + e.1) % 2 ^ 64))) s1).setRun k { r with up := true, heldAt := 0 }

/-- RECV (R362); one that names a FAILED session fails (R369). -/
def execRecv (k : Nat) (s : State) : Host.Outcome State Fault Refusal :=
  s.listStep k (fun n => n = 2) (groupCmd k (fun s r op c g =>
    let m := g.at_ c.rank
    let x := s.openSessions [m]
    if r.cause ≠ 0 then s.listFail k r 3 r.cause
    else if x.2.2 then s.listFail k r 3 cProtection
    else if c.len ≤ r.done && (decide (c.len ≠ 0) || x.2.1) then s.recvDone k r op c g
    else if !x.2.1 then x.1
    else if m.ext then (if r.landed < c.len then s.recvPull k r op c m else s)
    else if m.id = s.dev then s.recvHere k r op c
    else if r.up then s
    else s.recvAsk k r op c m))

/-! Collective operations. -/

/-- The command of list k joins its group's next operation (R363): the count rises, whatever its own checks say. What a closed generation half the
range of SEQ away left is forgotten, so that its number can come again (R353, R366). -/
def State.joinOp (s : State) (k : Nat) (r : CollRun) (op : Op) (c : Cmd) : State :=
  let id := 4096 * op.part + c.group
  let seq := mget s.collSeq id + 1
  ({ s with collSeq := mset s.collSeq id seq }.setOp (collKey op.part c.group (seq + 2 ^ 15)) default).setRun k { r with op := collKey op.part c.group seq + 1 }

/-- This member's command fails its own checks (R363): the others learn of it; in an elastic group only this list fails. -/
def State.ownFail (s : State) (k : Nat) (r : CollRun) (g : CollGroup) (key status cause : Nat) : State :=
  let o := mget s.collOps key
  (if !g.elastic then s.failOp g key status cause
   else if g.me = 0 then (s.setOp key { o with dropped := mset o.dropped 0 true }).tryClose g key
   else s.sendMember (domOf (mget s.ops r.handle.toNat).core) (g.at_ 0) 1 (.failure key g.me status cause)).listFail k r status cause

/-- The operation is over for this member: its record goes, but for a closed generation at its coordinator, which answers late
contributions (R366). -/
def State.opDone (s : State) (k : Nat) (r : CollRun) (g : CollGroup) (key : Nat) : State :=
  (if g.elastic && g.me = 0 then s else s.setOp key default).listNext k r

/-- A collective operation of a list: joining, its own checks, failures that resolve it, then its body (R363). -/
def collCmd (k : Nat) (body : State → CollRun → Op → Cmd → CollGroup → Nat → State) (s : State) (r : CollRun) (op : Op) (c : Cmd) : State :=
  match s.collGroup op.part c.group with
  | .unregistered => s.listFail k r 2 0
  | res =>
    if r.op = 0 then s.joinOp k r op c
    else
      let key := r.op - 1
      let o := mget s.collOps key
      match res with
      | .ok g0 =>
        let g := g0.under (collHead c.op 0 0 0)
        let x := s.openSessions g.members
        if o.failed ≠ 0 then (s.setOp key default).listFail k r o.failed o.cause
        else if c.bad || (c.op ≠ 10 && decide (g.n ≤ c.rank)) then s.ownFail k r g key 2 0
        else if x.2.2 && !g.elastic then s.ownFail k r g key 3 cProtection
        else if !x.2.1 && !g.elastic then x.1
        else body x.1 r op c g key
      | .fault e => s.listFail k r 3 e
      | _ => s.listFail k r 2 0

/-- What the tree gives: a wait that leaves a state, or the result, which has been passed on. -/
inductive TreeRes where
  | wait (s : State)
  | done (o : CollOp)

/-- Send elements to a tree neighbour: reachable, with credit for all of them (R352, R357). -/
def State.toNeighbour (s : State) (k : Nat) (r r1 : CollRun) (g : CollGroup) (key j head : Nat) (l : List Word) (mk : Nat → List Word → Packet) : State :=
  let m := g.at_ j
  let n := elemSize head * l.length
  let dom := domOf (mget s.ops r.handle.toNat).core
  if !s.canReach m then (if g.elastic || m.ext then s else s.listHeld k r)
  else match (if m.ext then some s else s.useCredit m.id n) with
    | none => (s.askCredit dom (collXfer key) m.id n).setRun k { r with starved := true }
    | some s1 => (s1.sendElems dom m head l mk).setRun k { r1 with heldAt := 0, starved := false }

/-- One step of the tree at this device, once its own contribution is there: combine and pass up; at rank 0 form the result; pass it
down (R363). -/
def State.treeStep (s : State) (k : Nat) (r : CollRun) (g : CollGroup) (key len head : Nat) : TreeRes :=
  let o := mget s.collOps key
  let kids := g.children g.me
  let whole := kids.all o.has
  let mine := if g.elastic then mget o.parts g.me else o.node g
  if !g.elastic && o.disagrees then .wait (s.failOp g key 2 0)
  else if o.ready then
    match (if g.elastic then [] else kids).drop r.served with
    | [] => .done o
    | j :: _ =>
      .wait (s.toNeighbour k r { r with served := r.served + 1 } g key j o.head o.result (.result key o.gen o.count true · o.result.length ·))
  else if g.me = 0 then
    if g.elastic then .wait (s.tryClose g key)
    else if whole then .wait (s.setOp key { o with ready := true, result := o.node g, count := g.n, incl := true })
    else .wait s
  else if r.up || !(g.elastic || whole) then .wait s
  else .wait (s.toNeighbour k r { r with up := true } g key (g.parent g.me) head mine (.contribution key g.me len head · mine.length ·))

/-- The outcome record of R366. -/
def outcomeBytes (o : CollOp) : List Byte := leBytes 4 o.gen ++ leBytes 4 o.count ++ leBytes 1 o.incl.toNat ++ leBytes 7 0

/-- Elements of a REDUCE as they are read and written. -/
def reduceElems (bf16 : Bool) (l : List Byte) : List Word := (chunks (if bf16 then 2 else 4) l).map (fun b => BitVec.ofNat 32 (leNat b))
/-- Bytes of elements. -/
def elemBytes (bf16 : Bool) (l : List Word) : List Byte := l.flatMap (fun w => leBytes (if bf16 then 2 else 4) w.toNat)

/-- The writes that end an operation here, part by part: the result `l` at `va`, then in an elastic group the outcome record (R136, R363, R366);
`fin` is what follows them. -/
def State.endWrites (s : State) (k : Nat) (r : CollRun) (op : Op) (g : CollGroup) (key va rec : Nat) (l : List Byte) (fin : State → State) : State :=
  let o := mget s.collOps key
  match (if r.formed then s.writeVirt k r op else .done) with
  | .wait s1 => s1
  | .fault e => s.ownFail k r g key 3 e
  | .done =>
    if !r.formed then s.setRun k { r with formed := true, lines := [], out := lineSpans va l }
    else if rec ≠ 0 && r.done = 0 then s.setRun k { r with done := 1, out := lineSpans rec (outcomeBytes o) }
    else fin s

/-- REDUCE (R363, R366). -/
def execReduce (k : Nat) (s : State) : Host.Outcome State Fault Refusal :=
  s.listStep k (fun n => n = 3) (collCmd k (fun s r op c g key =>
    let o := mget s.collOps key
    let head := collHead 3 c.bf16.toNat c.all_.toNat c.arg
    let receives := c.all_ || decide (g.me = c.rank)
    if !o.has g.me then
      match s.memberSpans r op s.dev c.a1 (if receives then c.len else 0) permW with
      | (.fault e, _) => s.ownFail k r g key 3 e
      | (.busy, s1) => s1
      | (.ok _, s1) =>
        match s1.listRead r op c.a0 c.len with
        | (.fault e _, _) => s.ownFail k r g key 3 e
        | (.ok l, s2) => s2.contribute g key g.me c.len head (reduceElems c.bf16 l)
        | (.busy, s2) => s2
    else match s.treeStep k r g key c.len head with
      | .wait s1 => s1
      | .done o =>
        s.endWrites k r op g key c.a1 (if g.elastic then c.a1 + c.len else 0) (if receives then elemBytes c.bf16 o.result else []) (fun s1 =>
          (if receives then s1.creditHere r (weirKey op.part (g.at_ g.me).wgrp c.weir) c.len else s1).opDone k r g key)))

/-- BARRIER (R362, R366). -/
def execBarrier (k : Nat) (s : State) : Host.Outcome State Fault Refusal :=
  s.listStep k (fun n => n = 10) (collCmd k (fun s r op c g key =>
    let o := mget s.collOps key
    let head := collHead 10 0 0 0
    if !o.has g.me then s.contribute g key g.me 0 head []
    else match s.treeStep k r g key 0 head with
      | .wait s1 => s1
      | .done _ => s.endWrites k r op g key c.a1 (if g.elastic then c.a1 else 0) [] (fun s1 => s1.opDone k r g key)))

/-- Members of the pod, other than this device, below a rank: each takes the whole of an MCAST. -/
def State.podBelow (s : State) (g : CollGroup) (j : Nat) : Nat :=
  ((g.members.take j).filter (fun m => !m.ext && decide (m.id ≠ s.dev))).length

/-- The root's transfer to the members in rank order: `served` beyond the tree's children counts members, `done` bytes of the next one;
it ends when every member's data has performed (R363). -/
def State.mcastStep (s : State) (k : Nat) (r : CollRun) (op : Op) (c : Cmd) (g : CollGroup) (key : Nat) : State :=
  let j := r.served - (g.children g.me).length
  let opId := 4 * key + 1
  let m := g.at_ j
  let acked := (mget s.collOps key).acked
  let settled := if m.ext then !s.unackedIn m.id opId else decide (m.id = s.dev) || decide (acked = c.len * s.podBelow g j + r.done)
  if g.n ≤ j then (if acked = c.len * s.podBelow g g.n then s.opDone k r g key else s)
  else match s.moveStep k r op m c.a0 c.a1 c.len opId (weirKey op.part m.wgrp c.weir) settled with
    | none => s.setRun k { r with served := r.served + 1, done := 0, heldAt := 0, starved := false }
    | some (.fault e) => s.ownFail k r g key 3 e
    | some (.ok s1) => s1
    | some (.wait s1) => s1

/-- MCAST (R362, R363): the members agree first, then the root sends. -/
def execMcast (k : Nat) (s : State) : Host.Outcome State Fault Refusal :=
  s.listStep k (fun n => n = 4) (collCmd k (fun s r op c g key =>
    let o := mget s.collOps key
    let head := collHead 4 0 0 c.arg
    if !o.has g.me then s.contribute g key g.me c.len head []
    else if o.ready && decide ((g.children g.me).length ≤ r.served) then
      (if g.me = c.rank then s.mcastStep k r op c g key
       else if c.len ≤ o.landed then s.opDone k r g key else s)
    else match s.treeStep k r g key 0 head with
      | .wait s1 => s1
      | .done _ => s))

end Sys2Proof.Machine
end

