-- ==== Sys2Proof/Machine/Power.lean ====
section
/-! DEFINITION. Power states, budgets and temperature (R378..R381), checks, scrubbing and uncorrectable errors (R374..R376), boot and
bring-up (R382..R384), and the CXL ports (R388). -/

namespace Sys2Proof.Machine

/-! Power states: timing only (R378). -/

/-- SLICE_GATE (R378): a slice that has had no live strand for 64 core cycles. -/
def execSliceGate (core slice : Nat) (s : State) : Host.Outcome State Fault Refusal :=
  let c := s.core core
  if decide (core < coreCount) && decide (slice < 16) && (s.occupants core).all (fun o => decide (o.1 ≠ slice))
      && decide (mget c.sliceUsed slice + 64 ≤ s.clock) then
    .next (s.setCore core { c with sliceGated := mset c.sliceGated slice true })
  else .next s

/-- ARRAY_GATE (R378): core k's array after 256 core cycles without a matrix-context operation. -/
def execArrayGate (k : Nat) (s : State) : Host.Outcome State Fault Refusal :=
  let c := s.core k
  let ctx := mget s.ctxs (ctxKey 2 k)
  if decide (k < coreCount) && decide (ctx.issued = ctx.timeline) && decide (c.arrayUsed + 256 ≤ s.clock)
      && decide (c.arrayFree + 512 ≤ s.time) then
    .next (s.setCore k { c with arrayGated := true })
  else .next s

/-- CISTERN_RETENTION (R378): core k's cistern after 4,096 core cycles without an MMA, G2C or C2G. -/
def execCisternRetention (k : Nat) (s : State) : Host.Outcome State Fault Refusal :=
  let c := s.core k
  if decide (k < coreCount) && decide (c.cistUsed + 4096 ≤ s.clock) then .next (s.setCore k { c with cistAsleep := true }) else .next s

/-- ROUTER_PORT_DOWN (R378, R379): port k after 8,192 base cycles without a flit; the time is kept for a wake signal of the same cycle. -/
def execRouterPortDown (k : Nat) (s : State) : Host.Outcome State Fault Refusal :=
  if !mget s.routerDown k && decide (mget s.routerUsed k + 8192 ≤ s.time) then
    .next { s with routerDown := mset s.routerDown k true, routerUsed := mset s.routerUsed k s.time }
  else .next s

/-- WAKE_SIGNAL (R379): port k wakes and its idle count restarts; it wins over a power-down of the same cycle. -/
def execWakeSignal (k : Nat) (s : State) : Host.Outcome State Fault Refusal := .next ((s.wakeRouter k).useRouter k)

/-- LINK_LOW_POWER (R378): UALink port k, or Ethernet port k - 36, after 2^20 base cycles without traffic. -/
def execLinkLowPower (k : Nat) (s : State) : Host.Outcome State Fault Refusal :=
  let p := mget s.ports k
  if k < portCount then
    (if p.usedAt + 2 ^ 20 ≤ s.time && p.queue = 0 then .next { s with ports := mset s.ports k { p with lowPower := true } } else .next s)
  else if k < portCount + 8 && decide (mget s.ethUsed (k - portCount) + 2 ^ 20 ≤ s.time) then
    .next { s with ethLow := mset s.ethLow (k - portCount) true }
  else .next s

/-- SELF_REFRESH (R378): pseudo-channel k after 2^16 base cycles without a request. -/
def execSelfRefresh (k : Nat) (s : State) : Host.Outcome State Fault Refusal :=
  if k < 512 && decide (mget s.channelUsed k + 2 ^ 16 ≤ s.time) then .next { s with channelAsleep := mset s.channelAsleep k true }
  else .next s

/-! Budgets and temperature. -/

/-- Base cycles of a power window (R380). -/
def windowCycles : Nat := 1024

/-- What a block was over its budget in the window, by its own activity counts (R380). -/
def State.excess (s : State) (block : Nat) : Nat := Config.energyOf block (mget s.activity block) - mget s.budgets block

/-- The throttle of a core in the next window: its slices withhold issue periods, its array starts operations later (R380). DESIGN CHOICE: one
issue period, of those that a throttled slice withholds (`coolPeriod`), and one base cycle of delay, for each unit of the excess, at most a window's
worth; the spec gives no measure. -/
def State.throttleCore (s : State) (n : Nat) (c : Core) : Core :=
  let wait := min (s.excess (arrayBlock n)) windowCycles
  { c with withheld := (List.range 16).foldl (fun m k => mset m k (min (s.excess (16 * n + k)) (windowCycles / 16))) c.withheld
           arrayFree := if wait = 0 then c.arrayFree else max c.arrayFree s.time + wait }

/-- The throttle of a port in the next window: it withholds grants, for as many base cycles as the excess has units (R380). -/
def State.throttlePort (s : State) (p : Nat) (x : Port) : Port :=
  let wait := min (s.excess (portBlock p)) windowCycles
  if wait = 0 then x else { x with grantsHeld := s.time + wait }

/-- The throttles of the next window (R380). -/
def State.throttle (s : State) : State :=
  { s with cores := (List.range coreCount).foldl (fun m n => mset m n (s.throttleCore n (mget m n))) s.cores
           ports := (List.range portCount).foldl (fun m p => mset m p (s.throttlePort p (mget m p))) s.ports
           activity := [] }

/-- BUDGET_WINDOW (R380): at the end of a window of 1,024 base cycles, once. -/
def execBudgetWindow (s : State) : Host.Outcome State Fault Refusal :=
  if s.time % windowCycles = 0 && decide (s.windowAt < s.time) then .next { s.throttle with windowAt := s.time } else .next s

/-- Some sensor of a chiplet reads at least `t` degrees (R381). -/
def State.hotter (s : State) (chip t : Nat) : Bool := (List.range 4).any (fun j => decide (t ≤ mget s.sensors (4 * chip + j)))

/-- THERMAL_THROTTLE (R381): chiplet k at 105 degrees. -/
def execThermalThrottle (k : Nat) (s : State) : Host.Outcome State Fault Refusal :=
  if k < 64 && s.hotter k 105 then .next { s with throttled := mset s.throttled k true } else .next s

/-- THERMAL_THROTTLE_END (R381): every sensor of chiplet k is below 105 degrees. -/
def execThermalThrottleEnd (k : Nat) (s : State) : Host.Outcome State Fault Refusal :=
  if s.hotter k 105 then .next s else .next { s with throttled := mset s.throttled k false }

/-- A chiplet sets ERR, resets itself and is fenced (R348, R374, R381); the device's error vector is raised (R387). -/
def State.chipletError (s : State) (c : Nat) : State :=
  let s1 := s.resetChiplet c
  (s1.setChip c (s1.chip c ||| 6)).raise 0

/-- THERMAL_TRIP (R381): chiplet k at 120 degrees, unless it has tripped and is fenced already. -/
def execThermalTrip (k : Nat) (s : State) : Host.Outcome State Fault Refusal :=
  if k < 64 && s.hotter k 120 && !((s.chip k).getLsbD 2 && s.fenced k) then .next (s.chipletError k) else .next s

/-! Checks. -/

/-- Lease ticks of a scrub (R376). -/
def scrubTicks : Nat := 2 ^ 30

/-- The ERRCNT number of an HBM4E controller or a far-tier channel, whose memory is scrubbed (R296, R376). -/
def memoryUnit (i : Nat) : Bool := decide (512 ≤ i) && decide (i < 560)

/-- SCRUB (R374, R376): a correctable error is corrected and counted by its unit, in the memories that are scrubbed once in 2^30 ticks, elsewhere at
once; no value changes. -/
def execScrub (s : State) : Host.Outcome State Fault Refusal :=
  let due := decide (s.scrubAt + scrubTicks ≤ s.ltime)
  let now := s.correctable.filter (fun i => due || !memoryUnit i)
  let s1 : State := { now.foldl State.countCorr s with correctable := s.correctable.filter (fun i => !(due || !memoryUnit i)) }
  .next (if due then { s1 with scrubAt := s.ltime, scrubs := s.scrubs + 1 } else s1)

/-- The number of a chiplet's ERRCNT (R296). -/
def chipUnit (c : Nat) : Nat := 560 + c

/-- A line is poisoned (R375). -/
def State.poisonLine (s : State) (pa : Nat) : State := { s with poison := mset s.poison (lineOf pa) true }

/-- A launch completes TERMINATED with code 0x7E once its crews are gone (R374). -/
def State.loseLaunch (s : State) (l : Nat) : State :=
  let s1 := s.endLaunch l 10 0x7E 0
  (s1.setLaunch l { s1.launchOf l with cut := true }).endCrews l

/-- Entries of a shared TLB without the i-th. -/
def State.dropShared (s : State) (dom i : Nat) : State :=
  let own := s.tlb.filter (fun e => decide (e.owner = dom))
  { s with tlb := own.eraseIdx i ++ s.tlb.filter (fun e => decide (e.owner ≠ dom)), mgmtIrq := s.mgmtIrq + 1 }

/-- The packet of request or answer `id`, or packet `id` of this device, is discarded in a switch or bridge buffer: the access fails with code 3; an answer is
sent again (R306, R374, R389). -/
def State.loseAccess (s : State) (id : Nat) : State :=
  let r := mget s.net id
  let x := mget s.held id
  if r.kind ≠ .none ∧ r.dev ≠ s.dev then
    (if decide (r.stamp ≠ 0) || r.half then s else ({ s with net := mset s.net id default } : State).tellLost r.dev r.peerId r)
  else if (mget s.back id).kind ≠ .none then s
  else if x.p ≠ .none then ({ s with held := mset s.held id default } : State).lostAs id x
  else s.lostBack id

/-- A packet inside the device of an engine's operation is discarded: the operation fails with code 3, a commit only while it is not complete at its
merge units (R270, R374). -/
def State.loseEngine (s : State) (h : Nat) : State :=
  let op := mget s.ops h
  match op.kind with
  | .copy _ => if op.started then s.commitFails h op cDataError else s
  | .aload _ => s.commitFails h op cDataError
  | .acommit _ => if op.readOut && !op.allHere then s.commitFails h op cDataError else s
  | _ => s

/-- A packet that has reached this device's ports is discarded there. -/
def State.loseArrived (s : State) (p : Packet) : State :=
  match p with
  | .returned id => s.lostBack id
  | .lost id => s.lostBack id
  | p => s.losePacket s.dev p

/-- The effect of an uncorrectable error (R374, R375). -/
def State.uncorrectable (s : State) : CheckError → State
  | .none => s
  | .line unit pa => (s.poisonLine pa).countUncorr unit
  | .tag unit lines => (lines.foldl State.poisonLine s).countUncorr unit
  | .chiplet c => (s.countUncorr (chipUnit c)).chipletError c
  | .l1 core =>
    { s with l1 := s.l1.filter (fun e => decide (e.core ≠ core)), icache := s.icache.filter (fun e => decide (e.core ≠ core))
             tlb := s.tlb.filter (fun e => decide (e.owner ≠ core + 2)) }
  | .sharedTlb dom i => s.dropShared dom i
  | .weirTable key =>
    let group := key / 2 ^ 16
    let mine := s.launches.filter (fun e => decide (e.2.state = 1) && decide (e.2.part * 2 ^ 24 + e.2.group = group))
    mine.foldl (fun s e => s.loseLaunch e.1) { s with mgmtIrq := s.mgmtIrq + 1 }
  | .slotTable key =>
    { s with slots := mset s.slots key { mget s.slots key with valid := false }, mgmtIrq := s.mgmtIrq + 1 }
  | .sfrq key =>
    let l := (mget s.sfrq key).launch
    let s1 : State := { s with mgmtIrq := s.mgmtIrq + 1 }
    if l = 0 then s1 else s1.loseLaunch l
  | .packet id => s.loseAccess id
  | .engine h => s.loseEngine h
  | .arrived k => { s with packetsIn := mset s.packetsIn k default }.loseArrived (mget s.packetsIn k)

/-- UNCORRECTABLE_ERROR (R374): error k, as a check reports it. -/
def execUncorrectableError (k : Nat) (s : State) : Host.Outcome State Fault Refusal :=
  .next (({ s with errIn := mset s.errIn k default } : State).uncorrectable (mget s.errIn k))

/-! Bring-up. -/

/-- The boot ROM accepts an image (R382). -/
def BootImage.accepted (i : BootImage) (fuse : Nat) : Bool :=
  let f := field i.header
  let zero := fun (lo n : Nat) => ((i.header.drop lo).take n).all (fun b => decide (b = 0))
  decide (i.header.length = 512) && decide (f 0 4 = 0x5A4C5446) && decide (f 12 4 = i.body.length) && zero 20 108 && zero 260 252
  && decide (f 8 4 ≤ 63) && decide (fuse ≤ f 8 4) && Config.imageVerifies (i.header ++ i.body)

/-- Number of the image that runs: 1, 2, or 0 when both are refused (R382). -/
def State.bootSlot (s : State) : Nat :=
  if s.image.accepted s.rollbackFuse then 1 else if s.image2.accepted s.rollbackFuse then 2 else 0

/-- BOOTSTAT (R383). -/
def bootWord (stage : Nat) (err : Bool) (t : SelfTests) : Word64 :=
  BitVec.ofNat 64 (stage + 2 ^ 8 * err.toNat + (if 3 ≤ stage || (err && stage = 2) then 2 ^ 16 * t.hbm.toNat else 0)
    + (if 4 ≤ stage then 2 ^ 32 * t.dies.toNat else 0) + (if 5 ≤ stage then 2 ^ 34 * t.cxl.toNat else 0))

/-- CHIPLET_BRING_UP (R384): self-test, partition, service. -/
def State.bringUpChiplet (s : State) (m : FMap Byte) (c : Nat) : State :=
  let e := (mget m c).toNat
  if mget s.tests.chips c then s.setChip c 6
  else if nbit e 7 || decide (nbits e 3 4 ≠ 0) then s.setChip c 2
  else (s.clearChiplet c).setChip c (BitVec.ofNat 64 (e % 8 * 32))

/-- Near-tier memory of this device is scrubbed to zero (R383). -/
def State.scrubNear (s : State) : State :=
  let lo := s.dev * 2 ^ 44
  { s with mem := mcut s.mem lo (lo + 2 ^ 40), poison := mcut s.poison lo (lo + 2 ^ 40) }

/-- Budgets whose sum stays within a limit: each takes what is left of it. DESIGN CHOICE: in the order of the blocks (R380). -/
def cutBudgets (limit : Nat) (m : FMap Nat) : FMap Nat :=
  (m.foldl (fun (x : Nat × FMap Nat) e => let b := min e.2 (limit - x.1); (x.1 + b, mset x.2 e.1 b)) (0, [])).2

/-- The board's package limit that an image states, in watts, within the range of R12. -/
def BootImage.boardLimit (i : BootImage) : Nat := max 4200 (min 6000 i.limit)

/-- Stage n of the bring-up, 1 to 8; none when the device stops there (R330, R380, R382..R384). -/
def State.bringUp (s : State) (n : Nat) : Option State :=
  let t := s.tests
  let i := if s.imageUsed = 2 then s.image2 else s.image
  match n with
  | 1 =>
    let m := s.bootSlot
    let level := field (if m = 2 then s.image2 else s.image).header 8 4
    if m = 0 then none
    else some { s with imageUsed := m, rollbackFuse := max s.rollbackFuse level, rollbackRaised := decide (s.rollbackFuse < level) }
  | 2 => if t.bridge then none else some s
  | 3 => if t.hbm ≠ 0 then none else some s
  | 5 => some { s with cxlDown := ([0, 1] : List Nat).foldl (fun m d => mset m d (t.cxl.getLsbD d)) s.cxlDown }
  | 6 => some { s with
      ports := (List.range portCount).foldl (fun m p => if mget t.ualink p then mset m p { mget m p with down := true } else m) s.ports }
  | 7 => some { s with ethDown := t.eth }
  | 8 =>
    let s1 : State := { s with fwcfg := i.config &&& 0xFF0F, packageLimit := i.boardLimit, budgets := cutBudgets i.boardLimit i.budgets }
    some ((List.range 64).foldl (fun s c => s.bringUpChiplet i.chipMap c) s1.scrubNear)
  | _ => some s

/-- POWER_ON (R382..R384): the next stage after reset, until the device is in service or has stopped with ERR = 1. -/
def execPowerOn (s : State) : Host.Outcome State Fault Refusal :=
  let n := nbits s.bootstat.toNat 0 4
  if s.bootstat.getLsbD 8 || decide (8 ≤ n) then .next s
  else match s.bringUp (n + 1) with
    | some t => .next { t with bootstat := bootWord (n + 1) false t.tests }
    | none => .next { s with bootstat := bootWord n true s.tests }

/-! CXL ports. -/

/-- CXL_PORT_DOWN (R388): the port of die k; host accesses in flight on it are lost. -/
def execCxlPortDown (k : Nat) (s : State) : Host.Outcome State Fault Refusal :=
  if k < 2 then
    let lost := s.hostIn.filter (fun e => decide (e.2.die = k))
    let s1 := lost.foldl (fun (x : State) e => x.unqueue (hostToken e.1) (fun _ => true)) s
    .next { s1 with
      cxlDown := mset s.cxlDown k true
      hostIn := s.hostIn.filter (fun e => decide (e.2.die ≠ k))
      mmioIn := s.mmioIn.filter (fun e => !(e.2.host && decide (e.2.die = k))) }
  else .next s

/-- CXL_PORT_RETRAINED (R388). -/
def execCxlPortRetrained (k : Nat) (s : State) : Host.Outcome State Fault Refusal :=
  .next { s with cxlDown := mset s.cxlDown k false }

end Sys2Proof.Machine
end

