-- ==== Sys2Proof/Machine/Xlane.lean ====
section
/-! DEFINITION. Cross-thread operations: moves, reductions, scans and votes (R217..R221). -/

namespace Sys2Proof.Machine

/-- MOV (R217). -/
def execMov (f : FR2) (s : State) : Host.Outcome State Fault Refusal := vec2 (.mov f) (use2 f) f (fun _ a => a) s

/-- A shuffle: the thread that thread t reads, from the count c (R217). -/
def shuffleOp (i : Instr) (f : FR3) (u : Nat → Nat → Nat) (s : State) : Host.Outcome State Fault Refusal :=
  runNext i (vecOp (use3 f) f.n f.d (fun a t => a.st.src f.a (u t (nbits (a.st.src f.b t).toNat 0 5)))) s
/-- SHFI (R217). -/
def execShfi (f : FR3) (s : State) : Host.Outcome State Fault Refusal := shuffleOp (.shfi f) f (fun _ c => c) s
/-- SHUP (R217). -/
def execShup (f : FR3) (s : State) : Host.Outcome State Fault Refusal :=
  shuffleOp (.shup f) f (fun t c => if c ≤ t then t - c else t) s
/-- SHDN (R217). -/
def execShdn (f : FR3) (s : State) : Host.Outcome State Fault Refusal :=
  shuffleOp (.shdn f) f (fun t c => if t + c ≤ 31 then t + c else t) s
/-- SHXR (R217). -/
def execShxr (f : FR3) (s : State) : Host.Outcome State Fault Refusal := shuffleOp (.shxr f) f (fun t c => t.xor c) s

/-- Combine neighbours; an absent one gives the other (R218). -/
def pairUp {α : Type} (f : α → α → α) : List (Option α) → List (Option α)
  | x :: y :: r => (match x, y with
      | some a, some b => some (f a b)
      | some a, none => some a
      | none, y => y) :: pairUp f r
  | l => l
/-- The fixed tree of R218: `n` steps. -/
def treeSum {α : Type} (f : α → α → α) : Nat → List (Option α) → Option α
  | 0, l => l.headD none
  | n + 1, l => treeSum f n (pairUp f l)

/-- How a reduction rounds: by MR.RM, RST as RNE without advancing the state (R218). -/
def redRnd (mr : Word) : Rnd := ⟨if mrRM mr = 5 then 0 else mrRM mr, 0, mrFZ mr⟩

/-- A source of a floating reduction: flushed under FZ, NaN canonical (R64, R65). -/
def redLeaf (m : Fmt) (mr : Word) (b : Nat) : FRes :=
  match m.value (mrFZ mr) b with
  | .nan g => (m.nanBits, if g then flagIV else 0)
  | _ => (m.flush (mrFZ mr) b, 0)
/-- The rounded sum of two partial results, with their flags. -/
def redAdd (m : Fmt) (mr : Word) (a b : FRes) : FRes :=
  let r := m.add (redRnd mr) (m.value (mrFZ mr) a.1) (m.value (mrFZ mr) b.1)
  (r.1, a.2 ||| b.2 ||| r.2)
/-- The smaller or larger of two partial results (R207). -/
def redMinmax (m : Fmt) (isMax : Bool) (mr : Word) (a b : FRes) : FRes :=
  let r := m.minmax isMax (mrFZ mr) a.1 b.1
  (r.1, a.2 ||| b.2 ||| r.2)

/-- Element k of A over the threads, absent where the thread is not active. -/
def redElems (st : Strand) (x : Opnd) (k : Nat) : List (Option Nat) :=
  (List.range 32).map (fun t => if tbit st.active t then some (elemBits (mrET st.mr) (st.src x t) k) else none)

/-- Reduce every element position (R218): `ig` on integers placed with fit or not, `fg` on floating patterns. -/
def reduceWord (st : Strand) (x : Opnd) (sat : Bool) (ig : Int → Int → Int) (fg : Fmt → FRes → FRes → FRes) : Word × BitVec 4 :=
  let et := mrET st.mr
  let w := etWidth et
  let toI := fun (b : Nat) => if etSigned et then sint w b else (b : Int)
  let r := fun k =>
    let l := redElems st x k
    if etInt et then
      match (l.filterMap id).map toI with
      | [] => ((0, 0) : FRes)
      | a :: rest => (fitN w (etSigned et) sat (rest.foldl ig a), 0)
    else
      ((treeSum (fg (etFmt et)) 5 (l.map (Option.map (redLeaf (etFmt et) st.mr)))).getD (0, 0))
  (packElems w (etCount et) (fun k => (r k).1), (List.range (etCount et)).foldl (fun f k => f ||| (r k).2) 0)

/-- The modes that a reduction reads. -/
def redBad (mr : Word) : Bool := decide (8 < mrET mr) || (etFloat (mrET mr) && rmBad mr)
/-- The modes that RDMIN and RDMAX read: no rounding. -/
def redBadEt (mr : Word) : Bool := decide (8 < mrET mr)

/-- A reduction: every active thread receives it, 2 issue periods later (R194, R218). -/
def reduceOp (i : Instr) (f : FR2) (bad : Word → Bool) (g : Strand → Word × BitVec 4) (s : State) :
    Host.Outcome State Fault Refusal :=
  runNext i
    (vecOp { use2 f with mode := bad } f.n f.d (fun a _ => (g a.st).1)
      (fun a st => arrives f.n f.d 2 a (st.orFlags (if a.st.active = 0 then 0 else (g a.st).2)))) s
/-- RDS (R218). -/
def execRds (f : FR2) (s : State) : Host.Outcome State Fault Refusal :=
  reduceOp (.rds f) f redBad (fun st => reduceWord st f.a (mrSAT st.mr) (fun a b => a + b) (fun m => redAdd m st.mr)) s
/-- RDMIN (R218). -/
def execRdmin (f : FR2) (s : State) : Host.Outcome State Fault Refusal :=
  reduceOp (.rdmin f) f redBadEt
    (fun st => reduceWord st f.a false (fun a b => if a ≤ b then a else b) (fun m => redMinmax m false st.mr)) s
/-- RDMAX (R218). -/
def execRdmax (f : FR2) (s : State) : Host.Outcome State Fault Refusal :=
  reduceOp (.rdmax f) f redBadEt
    (fun st => reduceWord st f.a false (fun a b => if a ≤ b then b else a) (fun m => redMinmax m true st.mr)) s

/-- The prefix sum of element k at thread t, over the active threads up to t (R219). DESIGN CHOICE: a floating sum starts from the first active
element, so that a leading -0 stays; the spec does not say what s is before it. -/
def scanElem (st : Strand) (x : Opnd) (k t : Nat) : FRes :=
  let et := mrET st.mr
  let w := etWidth et
  let l := ((redElems st x k).take (t + 1)).filterMap id
  if etInt et then
    (fitN w (etSigned et) (mrSAT st.mr) ((l.map (fun b => if etSigned et then sint w b else (b : Int))).sum), 0)
  else
    match l.map (redLeaf (etFmt et) st.mr) with
    | [] => (0, 0)
    | a :: rest => rest.foldl (redAdd (etFmt et) st.mr) a
/-- SCAN (R219). -/
def execScan (f : FR2) (s : State) : Host.Outcome State Fault Refusal :=
  runNext (.scan f)
    (laneOp { use2 f with mode := redBad } f.n f.d
      (fun a t =>
        let n := etCount (mrET a.st.mr)
        ⟨packElems (etWidth (mrET a.st.mr)) n (fun k => (scanElem a.st f.a k t).1),
         (List.range n).foldl (fun fl k => fl ||| (scanElem a.st f.a k t).2) 0, a.st.stoOf t⟩)
      (arrives f.n f.d 2)) s

/-- A vote over the active threads of the strands of a sub-gang: those with the predicate set, and all of them (R220). -/
def voteCount (c : Crew) (ks : List Nat) (p : Nat) : Nat × Nat :=
  ks.foldl (fun acc k => (acc.1 + countMask ((c.st k).active &&& (c.st k).pred p), acc.2 + countMask (c.st k).active)) (0, 0)

/-- BALLOT, ANY and ALL: written in every strand of the sub-gang, 2 issue periods later (R194, R220). -/
def voteOp (i : Instr) (d : Opnd) (p : Fin 8) (g : Nat × Nat → Nat) (s : State) : Host.Outcome State Fault Refusal :=
  let x : Use := { sout := [d] }
  runNext i
    { use := x
      joint := true
      act := fun s u ks =>
        let v := g (voteCount (s.crew u) ks p.val)
        onStrand x (fun a => ((a.st.setS d.num (BitVec.ofNat 64 v)).delay [d.code] (a.s.period + 2)).seq) s u ks } s
/-- BALLOT (R220). -/
def execBallot (d : Opnd) (p : Fin 8) (s : State) : Host.Outcome State Fault Refusal := voteOp (.ballot d p) d p (·.1) s
/-- ANY (R220). -/
def execAny (d : Opnd) (p : Fin 8) (s : State) : Host.Outcome State Fault Refusal :=
  voteOp (.any d p) d p (fun v => if v.1 = 0 then 0 else 1) s
/-- ALL (R220). -/
def execAll (d : Opnd) (p : Fin 8) (s : State) : Host.Outcome State Fault Refusal :=
  voteOp (.all d p) d p (fun v => if v.1 = v.2 then 1 else 0) s

/-- The integer sum of a thread's elements (R221). -/
def threadSum (et : Nat) (w : Word) : Int := ((List.range (etCount et)).map (fun k => elemInt et w k)).sum
/-- A thread's floating contribution: its elements widened to FP32, two of them added (R221). -/
def threadFloat (mr : Word) (w : Word) : FRes :=
  let et := mrET mr
  let m := etFmt et
  let wide := fun k =>
    let x := redLeaf m mr (elemBits et w k)
    ((fmtF32.place rneKeep (m.value false x.1)).1, x.2)
  if etCount et = 1 then wide 0 else redAdd fmtF32 mr (wide 0) (wide 1)

/-- The sum of WRDS over the strands `ks` under the MR of the lowest of them, and its flags (R221). -/
def wrdsSum (s : State) (u : Nat) (ks : List Nat) (x : Opnd) (sites : List Site) : Word64 × BitVec 4 :=
  let mr := (s.strand u (ks.headD 0)).mr
  if etInt (mrET mr) then
    (BitVec.ofInt 64 ((sites.map (fun a => ((threadsOf a.st.active).map (fun t => threadSum (mrET mr) (a.st.src x t))).sum)).sum), 0)
  else
    let strandTree := fun (a : Site) => treeSum (redAdd fmtF32 mr) 5
      ((List.range 32).map (fun t => if tbit a.st.active t then some (threadFloat mr (a.st.src x t)) else none))
    let at16 := (List.range 16).map (fun i => ((sites.find? (fun a => decide (sidOf a.k = i))).map strandTree).getD none)
    match treeSum (redAdd fmtF32 mr) 4 at16 with
    | none => (0, 0)
    | some r => (BitVec.ofNat 64 r.1, r.2)

/-- The lowest strand that takes part in a WRDS has a reserved value in the MR fields that the sum reads; one that names an invalid latch does
not take part (R52, R221). -/
def wrdsBad (c : Crew) (ks : List Nat) (x : Opnd) : Bool :=
  match ks.find? (fun k => !({ src := [x] } : Use).latchBad (c.st k)) with
  | some k => redBad (c.st k).mr
  | none => false

/-- WRDS (R221): S[d] of every strand of the sub-gang, and L0 of the active threads, 2 issue periods later. Its flags go to every
strand that has an active thread. DESIGN CHOICE: with D = S0, where S0 reads as zero, L0 still receives the sum's low 32 bits. -/
def execWrds (d x : Opnd) (s : State) : Host.Outcome State Fault Refusal :=
  let mr0 := (s.strand s.cur.crew (s.cur.strands.headD 0)).mr
  let use : Use := { src := [x], sout := [d], mode := fun _ => redBad mr0 }
  runNext (.wrds d x)
    { use := use
      joint := true
      trap := fun a => if wrdsBad a.c a.s.cur.strands x then some (wordTrap a.st cMode (wordOf (.wrds d x))) else none
      act := fun s u ks =>
        let sites := ks.filterMap (fun k => s.site u k use.reads)
        let v := wrdsSum s u ks x sites
        eachStrand use (fun a =>
          let act := a.st.active
          let st := (a.st.setS d.num v.1).latchPush act (fun _ => v.1.setWidth 32) (a.s.freeAt (a.s.crewLaunch a.c).part)
          let st1 := (st.orFlags (if act = 0 then 0 else v.2)).delay [d.code, 72] (a.s.period + 2)
          (a.s.setStrand a.u a.k st1.seq).freeUp (a.s.crewLaunch a.c).part) s u ks } s

end Sys2Proof.Machine
end

