-- ==== Sys2Proof/Machine/Dispatch.lean ====
section
/-! DEFINITION. One arm for each instruction and each step of the opcode table: its meaning. -/

namespace Sys2Proof.Machine

def exec (i : Instr) (s : State) : Host.Outcome State Fault Refusal :=
  match i with
  | .nop => Sys2Proof.Machine.execNop s
  | .spr d a => Sys2Proof.Machine.execSpr d a s
  | .brk a => Sys2Proof.Machine.execBrk a s
  | .trap a => Sys2Proof.Machine.execTrap a s
  | .tfence => Sys2Proof.Machine.execTfence s
  | .drain => Sys2Proof.Machine.execDrain s
  | .yield => Sys2Proof.Machine.execYield s
  | .seed a => Sys2Proof.Machine.execSeed a s
  | .clock d => Sys2Proof.Machine.execClock d s
  | .exit => Sys2Proof.Machine.execExit s
  | .wait a => Sys2Proof.Machine.execWait a s
  | .modeGp g p => Sys2Proof.Machine.execModeGp g p s
  | .modeEt e => Sys2Proof.Machine.execModeEt e s
  | .modeRm m => Sys2Proof.Machine.execModeRm m s
  | .modeSatfz z a => Sys2Proof.Machine.execModeSatfz z a s
  | .modeScope c => Sys2Proof.Machine.execModeScope c s
  | .modeTe t => Sys2Proof.Machine.execModeTe t s
  | .modeDh h => Sys2Proof.Machine.execModeDh h s
  | .modeAll r => Sys2Proof.Machine.execModeAll r s
  | .br h p o => Sys2Proof.Machine.execBr h p o s
  | .brn h p o => Sys2Proof.Machine.execBrn h p o s
  | .bru r c o => Sys2Proof.Machine.execBru r c o s
  | .jmp o => Sys2Proof.Machine.execJmp o s
  | .call o => Sys2Proof.Machine.execCall o s
  | .loop len c => Sys2Proof.Machine.execLoop len c s
  | .ret => Sys2Proof.Machine.execRet s
  | .jr a => Sys2Proof.Machine.execJr a s
  | .callr a => Sys2Proof.Machine.execCallr a s
  | .join => Sys2Proof.Machine.execJoin s
  | .wconv => Sys2Proof.Machine.execWconv s
  | .lbrk => Sys2Proof.Machine.execLbrk s
  | .add f => Sys2Proof.Machine.execAdd f s
  | .sub f => Sys2Proof.Machine.execSub f s
  | .mul f => Sys2Proof.Machine.execMul f s
  | .mulhi f => Sys2Proof.Machine.execMulhi f s
  | .mad f => Sys2Proof.Machine.execMad f s
  | .div f => Sys2Proof.Machine.execDiv f s
  | .rem f => Sys2Proof.Machine.execRem f s
  | .min f => Sys2Proof.Machine.execMin f s
  | .max f => Sys2Proof.Machine.execMax f s
  | .abs f => Sys2Proof.Machine.execAbs f s
  | .neg f => Sys2Proof.Machine.execNeg f s
  | .dot4 f => Sys2Proof.Machine.execDot4 f s
  | .dot2 f => Sys2Proof.Machine.execDot2 f s
  | .avg f => Sys2Proof.Machine.execAvg f s
  | .and f => Sys2Proof.Machine.execAnd f s
  | .or f => Sys2Proof.Machine.execOr f s
  | .xor f => Sys2Proof.Machine.execXor f s
  | .andn f => Sys2Proof.Machine.execAndn f s
  | .not f => Sys2Proof.Machine.execNot f s
  | .shl f => Sys2Proof.Machine.execShl f s
  | .shr f => Sys2Proof.Machine.execShr f s
  | .sar f => Sys2Proof.Machine.execSar f s
  | .rol f => Sys2Proof.Machine.execRol f s
  | .popc f => Sys2Proof.Machine.execPopc f s
  | .clz f => Sys2Proof.Machine.execClz f s
  | .brev f => Sys2Proof.Machine.execBrev f s
  | .bfx f => Sys2Proof.Machine.execBfx f s
  | .bfi f => Sys2Proof.Machine.execBfi f s
  | .crc f => Sys2Proof.Machine.execCrc f s
  | .icmpEq f => Sys2Proof.Machine.execIcmpEq f s
  | .icmpNe f => Sys2Proof.Machine.execIcmpNe f s
  | .icmpLt f => Sys2Proof.Machine.execIcmpLt f s
  | .icmpLe f => Sys2Proof.Machine.execIcmpLe f s
  | .icmpGt f => Sys2Proof.Machine.execIcmpGt f s
  | .icmpGe f => Sys2Proof.Machine.execIcmpGe f s
  | .icmpTst f => Sys2Proof.Machine.execIcmpTst f s
  | .fadd f => Sys2Proof.Machine.execFadd f s
  | .fsub f => Sys2Proof.Machine.execFsub f s
  | .fmul f => Sys2Proof.Machine.execFmul f s
  | .fma f => Sys2Proof.Machine.execFma f s
  | .fms f => Sys2Proof.Machine.execFms f s
  | .fmin f => Sys2Proof.Machine.execFmin f s
  | .fmax f => Sys2Proof.Machine.execFmax f s
  | .fabs f => Sys2Proof.Machine.execFabs f s
  | .fneg f => Sys2Proof.Machine.execFneg f s
  | .frcp f => Sys2Proof.Machine.execFrcp f s
  | .frsq f => Sys2Proof.Machine.execFrsq f s
  | .fsqrt f => Sys2Proof.Machine.execFsqrt f s
  | .fdiv f => Sys2Proof.Machine.execFdiv f s
  | .fex2 f => Sys2Proof.Machine.execFex2 f s
  | .flg2 f => Sys2Proof.Machine.execFlg2 f s
  | .fscl f => Sys2Proof.Machine.execFscl f s
  | .fcmpEq f => Sys2Proof.Machine.execFcmpEq f s
  | .fcmpNe f => Sys2Proof.Machine.execFcmpNe f s
  | .fcmpLt f => Sys2Proof.Machine.execFcmpLt f s
  | .fcmpLe f => Sys2Proof.Machine.execFcmpLe f s
  | .fcmpGt f => Sys2Proof.Machine.execFcmpGt f s
  | .fcmpGe f => Sys2Proof.Machine.execFcmpGe f s
  | .fcmpUn f => Sys2Proof.Machine.execFcmpUn f s
  | .cvt f => Sys2Proof.Machine.execCvt f s
  | .qnt f => Sys2Proof.Machine.execQnt f s
  | .dqnt f => Sys2Proof.Machine.execDqnt f s
  | .pack f => Sys2Proof.Machine.execPack f s
  | .unpk f => Sys2Proof.Machine.execUnpk f s
  | .nest f => Sys2Proof.Machine.execNest f s
  | .mov f => Sys2Proof.Machine.execMov f s
  | .shfi f => Sys2Proof.Machine.execShfi f s
  | .shup f => Sys2Proof.Machine.execShup f s
  | .shdn f => Sys2Proof.Machine.execShdn f s
  | .shxr f => Sys2Proof.Machine.execShxr f s
  | .rds f => Sys2Proof.Machine.execRds f s
  | .rdmin f => Sys2Proof.Machine.execRdmin f s
  | .rdmax f => Sys2Proof.Machine.execRdmax f s
  | .scan f => Sys2Proof.Machine.execScan f s
  | .ballot d p => Sys2Proof.Machine.execBallot d p s
  | .any d p => Sys2Proof.Machine.execAny d p s
  | .all d p => Sys2Proof.Machine.execAll d p s
  | .wrds d a => Sys2Proof.Machine.execWrds d a s
  | .pand d a b => Sys2Proof.Machine.execPand d a b s
  | .por d a b => Sys2Proof.Machine.execPor d a b s
  | .pxor d a b => Sys2Proof.Machine.execPxor d a b s
  | .pnot d a => Sys2Proof.Machine.execPnot d a s
  | .p2s d a => Sys2Proof.Machine.execP2s d a s
  | .s2p d a => Sys2Proof.Machine.execS2p d a s
  | .sel k f => Sys2Proof.Machine.execSel k f s
  | .addi f => Sys2Proof.Machine.execAddi f s
  | .movi n d v => Sys2Proof.Machine.execMovi n d v s
  | .movh d j v => Sys2Proof.Machine.execMovh d j v s
  | .uadd d a b => Sys2Proof.Machine.execUadd d a b s
  | .usub d a b => Sys2Proof.Machine.execUsub d a b s
  | .umul d a b => Sys2Proof.Machine.execUmul d a b s
  | .umulhi d a b => Sys2Proof.Machine.execUmulhi d a b s
  | .uand d a b => Sys2Proof.Machine.execUand d a b s
  | .uor d a b => Sys2Proof.Machine.execUor d a b s
  | .uxor d a b => Sys2Proof.Machine.execUxor d a b s
  | .ushl d a b => Sys2Proof.Machine.execUshl d a b s
  | .ushr d a b => Sys2Proof.Machine.execUshr d a b s
  | .usar d a b => Sys2Proof.Machine.execUsar d a b s
  | .umin d a b => Sys2Proof.Machine.execUmin d a b s
  | .umax d a b => Sys2Proof.Machine.execUmax d a b s
  | .ucmplt d a b => Sys2Proof.Machine.execUcmplt d a b s
  | .ucmpeq d a b => Sys2Proof.Machine.execUcmpeq d a b s
  | .ucmpltn d a b => Sys2Proof.Machine.execUcmpltn d a b s
  | .uaddi d a n => Sys2Proof.Machine.execUaddi d a n s
  | .ishiShl f => Sys2Proof.Machine.execIshiShl f s
  | .ishiShr f => Sys2Proof.Machine.execIshiShr f s
  | .ishiSar f => Sys2Proof.Machine.execIshiSar f s
  | .ishiRol f => Sys2Proof.Machine.execIshiRol f s
  | .andi f => Sys2Proof.Machine.execAndi f s
  | .ld f => Sys2Proof.Machine.execLd f s
  | .st f => Sys2Proof.Machine.execSt f s
  | .stp f => Sys2Proof.Machine.execStp f s
  | .atomAdd f => Sys2Proof.Machine.execAtomAdd f s
  | .atomMin f => Sys2Proof.Machine.execAtomMin f s
  | .atomMax f => Sys2Proof.Machine.execAtomMax f s
  | .atomMinu f => Sys2Proof.Machine.execAtomMinu f s
  | .atomMaxu f => Sys2Proof.Machine.execAtomMaxu f s
  | .atomAnd f => Sys2Proof.Machine.execAtomAnd f s
  | .atomOr f => Sys2Proof.Machine.execAtomOr f s
  | .atomXor f => Sys2Proof.Machine.execAtomXor f s
  | .atomXchg f => Sys2Proof.Machine.execAtomXchg f s
  | .atomCas f => Sys2Proof.Machine.execAtomCas f s
  | .atomIncb f => Sys2Proof.Machine.execAtomIncb f s
  | .atomFadd f => Sys2Proof.Machine.execAtomFadd f s
  | .atomFaddbf f => Sys2Proof.Machine.execAtomFaddbf f s
  | .atomFmax f => Sys2Proof.Machine.execAtomFmax f s
  | .atomDecz f => Sys2Proof.Machine.execAtomDecz f s
  | .atomwAdd f => Sys2Proof.Machine.execAtomwAdd f s
  | .atomwMin f => Sys2Proof.Machine.execAtomwMin f s
  | .atomwMax f => Sys2Proof.Machine.execAtomwMax f s
  | .atomwXchg f => Sys2Proof.Machine.execAtomwXchg f s
  | .atomwCas f => Sys2Proof.Machine.execAtomwCas f s
  | .atomwCas128 f => Sys2Proof.Machine.execAtomwCas128 f s
  | .atomwMaxp f => Sys2Proof.Machine.execAtomwMaxp f s
  | .atomwIncb f => Sys2Proof.Machine.execAtomwIncb f s
  | .lda f => Sys2Proof.Machine.execLda f s
  | .sta f => Sys2Proof.Machine.execSta f s
  | .atomaAdd f => Sys2Proof.Machine.execAtomaAdd f s
  | .atomaMin f => Sys2Proof.Machine.execAtomaMin f s
  | .atomaMax f => Sys2Proof.Machine.execAtomaMax f s
  | .atomaAnd f => Sys2Proof.Machine.execAtomaAnd f s
  | .atomaOr f => Sys2Proof.Machine.execAtomaOr f s
  | .atomaXor f => Sys2Proof.Machine.execAtomaXor f s
  | .atomaXchg f => Sys2Proof.Machine.execAtomaXchg f s
  | .atomaCas f => Sys2Proof.Machine.execAtomaCas f s
  | .atomaIncb f => Sys2Proof.Machine.execAtomaIncb f s
  | .atomaFadd f => Sys2Proof.Machine.execAtomaFadd f s
  | .atomaMaxp f => Sys2Proof.Machine.execAtomaMaxp f s
  | .stx f => Sys2Proof.Machine.execStx f s
  | .puta f h => Sys2Proof.Machine.execPuta f h s
  | .mst f => Sys2Proof.Machine.execMst f s
  | .pref b y => Sys2Proof.Machine.execPref b y s
  | .phint x b y => Sys2Proof.Machine.execPhint x b y s
  | .ldrop b y => Sys2Proof.Machine.execLdrop b y s
  | .fenceAcq c => Sys2Proof.Machine.execFenceAcq c s
  | .fenceRel c => Sys2Proof.Machine.execFenceRel c s
  | .fenceAr c => Sys2Proof.Machine.execFenceAr c s
  | .fenceSc c => Sys2Proof.Machine.execFenceSc c s
  | .fenceAcks c => Sys2Proof.Machine.execFenceAcks c s
  | .winit a b c => Sys2Proof.Machine.execWinit a b c s
  | .warr d a b => Sys2Proof.Machine.execWarr d a b s
  | .wwait a b => Sys2Proof.Machine.execWwait a b s
  | .wtest d a b => Sys2Proof.Machine.execWtest d a b s
  | .cbar => Sys2Proof.Machine.execCbar s
  | .xswap a => Sys2Proof.Machine.execXswap a s
  | .wdrop a => Sys2Proof.Machine.execWdrop a s
  | .fwait d a => Sys2Proof.Machine.execFwait d a s
  | .ftest d a => Sys2Proof.Machine.execFtest d a s
  | .fcancel a => Sys2Proof.Machine.execFcancel a s
  | .tlread d a => Sys2Proof.Machine.execTlread d a s
  | .tlwait a b => Sys2Proof.Machine.execTlwait a b s
  | .fjoin d a b => Sys2Proof.Machine.execFjoin d a b s
  | .cpyG2a d a b c => Sys2Proof.Machine.execCpyG2a d a b c s
  | .cpyA2g d a b c => Sys2Proof.Machine.execCpyA2g d a b c s
  | .cpyG2c d a b c => Sys2Proof.Machine.execCpyG2c d a b c s
  | .cpyTcpy d a b c => Sys2Proof.Machine.execCpyTcpy d a b c s
  | .cpyGath d a b c => Sys2Proof.Machine.execCpyGath d a b c s
  | .cpyC2g d a b c => Sys2Proof.Machine.execCpyC2g d a b c s
  | .mma f => Sys2Proof.Machine.execMma f s
  | .azero k => Sys2Proof.Machine.execAzero k s
  | .acommit d k x => Sys2Proof.Machine.execAcommit d k x s
  | .arank k x => Sys2Proof.Machine.execArank k x s
  | .arfold j k => Sys2Proof.Machine.execArfold j k s
  | .amov f => Sys2Proof.Machine.execAmov f s
  | .amovw f => Sys2Proof.Machine.execAmovw f s
  | .athr d k => Sys2Proof.Machine.execAthr d k s
  | .arread d k x => Sys2Proof.Machine.execArread d k x s
  | .aload d k x => Sys2Proof.Machine.execAload d k x s
  | .tzero k => Sys2Proof.Machine.execTzero k s
  | .tld k x => Sys2Proof.Machine.execTld k x s
  | .tst k x => Sys2Proof.Machine.execTst k x s
  | .tmov f => Sys2Proof.Machine.execTmov f s
  | .tmovw f => Sys2Proof.Machine.execTmovw f s
  | .tscl d k x n => Sys2Proof.Machine.execTscl d k x n s
  | .clrun d a b => Sys2Proof.Machine.execClrun d a b s
  | .clsig a b => Sys2Proof.Machine.execClsig a b s
  | .launch d a => Sys2Proof.Machine.execLaunch d a s
  | .lqtry d => Sys2Proof.Machine.execLqtry d s
  | .eret => Sys2Proof.Machine.execEret s
  | .spw d a => Sys2Proof.Machine.execSpw d a s
  | .sprp d a => Sys2Proof.Machine.execSprp d a s
  | .term d a => Sys2Proof.Machine.execTerm d a s
  | .tlbinv a b => Sys2Proof.Machine.execTlbinv a b s
  | .sfrqpop d => Sys2Proof.Machine.execSfrqpop d s
  | .wspill d a b => Sys2Proof.Machine.execWspill d a b s
  | .wfill d a => Sys2Proof.Machine.execWfill d a s
  | .cEnd k => Sys2Proof.Machine.execCEnd k s
  | .send k => Sys2Proof.Machine.execSend k s
  | .recv k => Sys2Proof.Machine.execRecv k s
  | .reduce k => Sys2Proof.Machine.execReduce k s
  | .mcast k => Sys2Proof.Machine.execMcast k s
  | .waittl k => Sys2Proof.Machine.execWaittl k s
  | .waitweir k => Sys2Proof.Machine.execWaitweir k s
  | .signal k => Sys2Proof.Machine.execSignal k s
  | .compress k => Sys2Proof.Machine.execCompress k s
  | .decompress k => Sys2Proof.Machine.execDecompress k s
  | .barrier k => Sys2Proof.Machine.execBarrier k s
  | .issuePeriod => Sys2Proof.Machine.execIssuePeriod s
  | .resultAvailable u k => Sys2Proof.Machine.execResultAvailable u k s
  | .yieldExpiry u k => Sys2Proof.Machine.execYieldExpiry u k s
  | .waitDeadline u k => Sys2Proof.Machine.execWaitDeadline u k s
  | .loadAtHome k => Sys2Proof.Machine.execLoadAtHome k s
  | .writeAtHome k => Sys2Proof.Machine.execWriteAtHome k s
  | .atomicAtHome k => Sys2Proof.Machine.execAtomicAtHome k s
  | .leaseExpiry k => Sys2Proof.Machine.execLeaseExpiry k s
  | .loadReply k => Sys2Proof.Machine.execLoadReply k s
  | .acknowledgement k => Sys2Proof.Machine.execAcknowledgement k s
  | .putAtDescriptor k => Sys2Proof.Machine.execPutAtDescriptor k s
  | .stxAtTarget k => Sys2Proof.Machine.execStxAtTarget k s
  | .segmentArrival k seg => Sys2Proof.Machine.execSegmentArrival k seg s
  | .copyCompletion k unit => Sys2Proof.Machine.execCopyCompletion k unit s
  | .mmaCompletion k => Sys2Proof.Machine.execMmaCompletion k s
  | .acommitCompletion k => Sys2Proof.Machine.execAcommitCompletion k s
  | .aloadCompletion k => Sys2Proof.Machine.execAloadCompletion k s
  | .trapEntry u k => Sys2Proof.Machine.execTrapEntry u k s
  | .crewRetire k => Sys2Proof.Machine.execCrewRetire k s
  | .crewPlacement k => Sys2Proof.Machine.execCrewPlacement k s
  | .preemptionRequest k => Sys2Proof.Machine.execPreemptionRequest k s
  | .crewSave k => Sys2Proof.Machine.execCrewSave k s
  | .crewRestore k => Sys2Proof.Machine.execCrewRestore k s
  | .chipletReset k => Sys2Proof.Machine.execChipletReset k s
  | .hostQueueAccept k => Sys2Proof.Machine.execHostQueueAccept k s
  | .dlqTake k => Sys2Proof.Machine.execDlqTake k s
  | .stealRequest dom l => Sys2Proof.Machine.execStealRequest dom l s
  | .stealRequestArrival k => Sys2Proof.Machine.execStealRequestArrival k s
  | .stealAnswerArrival k => Sys2Proof.Machine.execStealAnswerArrival k s
  | .chipctlFence k => Sys2Proof.Machine.execChipctlFence k s
  | .chipctlUnfence k => Sys2Proof.Machine.execChipctlUnfence k s
  | .mmioWrite k => Sys2Proof.Machine.execMmioWrite k s
  | .errcntClear k => Sys2Proof.Machine.execErrcntClear k s
  | .pairModeWrite k => Sys2Proof.Machine.execPairModeWrite k s
  | .reportRequest k => Sys2Proof.Machine.execReportRequest k s
  | .hostAccess k => Sys2Proof.Machine.execHostAccess k s
  | .pageWalk k => Sys2Proof.Machine.execPageWalk k s
  | .pumpEvaluation => Sys2Proof.Machine.execPumpEvaluation s
  | .pageMoveCopy k => Sys2Proof.Machine.execPageMoveCopy k s
  | .reDecay => Sys2Proof.Machine.execReDecay s
  | .packetArrival k => Sys2Proof.Machine.execPacketArrival k s
  | .collectiveFailureNotice k => Sys2Proof.Machine.execCollectiveFailureNotice k s
  | .packetReturn k => Sys2Proof.Machine.execPacketReturn k s
  | .reachTimeout k => Sys2Proof.Machine.execReachTimeout k s
  | .orderedFlagQuery k => Sys2Proof.Machine.execOrderedFlagQuery k s
  | .orderedFlagAnswer k => Sys2Proof.Machine.execOrderedFlagAnswer k s
  | .demand k => Sys2Proof.Machine.execDemand k s
  | .grantIssue => Sys2Proof.Machine.execGrantIssue s
  | .grantArrival k => Sys2Proof.Machine.execGrantArrival k s
  | .linkReplay k => Sys2Proof.Machine.execLinkReplay k s
  | .linkDown k => Sys2Proof.Machine.execLinkDown k s
  | .bridgeRetrain => Sys2Proof.Machine.execBridgeRetrain s
  | .elasticTimeout k => Sys2Proof.Machine.execElasticTimeout k s
  | .keyExchange k => Sys2Proof.Machine.execKeyExchange k s
  | .rekey k => Sys2Proof.Machine.execRekey k s
  | .sliceGate core slice => Sys2Proof.Machine.execSliceGate core slice s
  | .arrayGate k => Sys2Proof.Machine.execArrayGate k s
  | .cisternRetention k => Sys2Proof.Machine.execCisternRetention k s
  | .routerPortDown k => Sys2Proof.Machine.execRouterPortDown k s
  | .wakeSignal k => Sys2Proof.Machine.execWakeSignal k s
  | .linkLowPower k => Sys2Proof.Machine.execLinkLowPower k s
  | .selfRefresh k => Sys2Proof.Machine.execSelfRefresh k s
  | .budgetWindow => Sys2Proof.Machine.execBudgetWindow s
  | .thermalThrottle k => Sys2Proof.Machine.execThermalThrottle k s
  | .thermalTrip k => Sys2Proof.Machine.execThermalTrip k s
  | .scrub => Sys2Proof.Machine.execScrub s
  | .uncorrectableError k => Sys2Proof.Machine.execUncorrectableError k s
  | .powerOn => Sys2Proof.Machine.execPowerOn s
  | .cxlPortDown k => Sys2Proof.Machine.execCxlPortDown k s
  | .tldTstAbCyclesDone u k => Sys2Proof.Machine.execTldTstAbCyclesDone u k s
  | .arfoldDone u k => Sys2Proof.Machine.execArfoldDone u k s
  | .readOutDone k => Sys2Proof.Machine.execReadOutDone k s
  | .linkUp k => Sys2Proof.Machine.execLinkUp k s
  | .cxlPortRetrained k => Sys2Proof.Machine.execCxlPortRetrained k s
  | .bridgeRetrainDone => Sys2Proof.Machine.execBridgeRetrainDone s
  | .thermalThrottleEnd k => Sys2Proof.Machine.execThermalThrottleEnd k s
  | .retransmissionTimeout k => Sys2Proof.Machine.execRetransmissionTimeout k s

end Sys2Proof.Machine
end

