-- ==== Sys2Proof/Machine/Events.lean ====
section
/-! DEFINITION. The steps that can happen in a state, in the order in which the model takes them when no other order is given (R391), and
the placing of one instruction for the fetch. -/

namespace Sys2Proof.Machine

/-- A step of the machine that is no instruction, as its meaning. -/
abbrev Act := State → Host.Outcome State Fault Refusal

/-- A step takes place and changes the state. -/
def State.does (s : State) (a : Act) : Bool :=
  match a s with
  | .next t => decide (t ≠ s)
  | _ => false

/-- Steps of strands: traps, late results, YIELD, WAIT, and the ends of TLD, TST and ARFOLD. -/
def State.strandSteps (s : State) : List Act :=
  s.crews.flatMap (fun e =>
    let u := e.1
    (if e.2.resident then e.2.keys.flatMap (fun k =>
      (if (e.2.st k).pending.isSome then [execTrapEntry u k] else [])
      ++ (if (e.2.st k).late.isEmpty then [] else [execResultAvailable u k])
      ++ (match (e.2.st k).wait with
        | .yielded _ => [execYieldExpiry u k]
        | .deadline _ => [execWaitDeadline u k]
        | _ => [])) else [])
    ++ (mkeys e.2.tileBusy).map (execTldTstAbCyclesDone u) ++ (mkeys e.2.foldBusy).map (execArfoldDone u))

/-- Steps of requests at homes and descriptors, of leases, and of what comes back. -/
def State.memorySteps (s : State) : List Act :=
  s.back.flatMap (fun e => [execLoadReply e.1, execAcknowledgement e.1])
  ++ s.net.flatMap (fun e => match e.2.kind with
      | .load => [execLoadAtHome e.1]
      | .store => [execWriteAtHome e.1]
      | .atomic _ => [execAtomicAtHome e.1]
      | .atomicW _ => [execAtomicAtHome e.1]
      | .put _ => [execPutAtDescriptor e.1]
      | .stx _ => [execStxAtTarget e.1]
      | _ => [])
  ++ s.home.map (fun e => execLeaseExpiry e.2.pa)
  ++ (mkeys s.walks).map execPageWalk ++ (mkeys s.moves).map execPageMoveCopy

/-- Steps of engine operations. -/
def State.engineSteps (s : State) : List Act :=
  s.ops.flatMap (fun e =>
    let k := e.1
    match e.2.kind with
    | .copy fn =>
      if e.2.started then (List.range (e.2.copyShape fn).units).map (execCopyCompletion k) else [execCopyCompletion k 0]
    | .mma _ => [execMmaCompletion k]
    | .acommit _ =>
      [execReadOutDone k] ++ (List.range (tileSegs e.2.form.ranked)).map (execSegmentArrival k) ++ [execAcommitCompletion k]
    | .aload _ => [execAloadCompletion k]
    | _ => [])
  ++ s.colls.flatMap (fun e =>
    [execCEnd e.1, execSend e.1, execRecv e.1, execReduce e.1, execMcast e.1, execWaittl e.1, execWaitweir e.1, execSignal e.1, execCompress e.1
     , execDecompress e.1, execBarrier e.1])

/-- The crew's launch is bound as a filler (R330). -/
def State.filler (s : State) (c : Crew) : Bool := decide (s.boundClass (s.launchOf c.launch).record = 2)

/-- A normal or deferred launch could place a crew on the core if its filler crews were gone, and cannot now; with PREFILL they make room
(R330). -/
def State.wantsFillers (s : State) (core : Nat) : Bool :=
  let s1 := { s with crews := s.crews.filter (fun e => !(e.2.resident && s.filler e.2)) }
  nbit s.fwcfg.toNat 3 && (List.range 8).any (fun k =>
    decide (s.boundClass (s.launchOf (mget s.slots (8 * core + k)).launch).record ≤ 1) && !s.slotPlaces core k && s1.slotPlaces core k)

/-- Cores with a slot that has been written. -/
def State.slotCores (s : State) : List Nat := (s.slots.map (fun e => e.1 / 8)).eraseDups

/-- PREFILL (R330): one filler crew of a core is asked for at a time, until there is room. -/
def State.prefillSteps (s : State) : List Act :=
  s.slotCores.flatMap (fun core =>
    let l := (s.residents core).filter (fun e => s.filler e.2)
    if l.isEmpty || l.any (fun e => decide (e.2.preempt = 1)) || !s.wantsFillers core then []
    else (l.take 1).map (fun e => execPreemptionRequest e.1))

/-- Crews that are switched out resume on a core that places them, fillers not while others want it (R313, R326, R330). -/
def State.restoreSteps (s : State) : List Act :=
  (s.crews.filter (fun e => decide (e.2.preempt = 2) && !e.2.retiring)).flatMap (fun e =>
    (s.slotCores.filter (fun core => !(s.filler e.2 && s.wantsFillers core))).map (fun core => execCrewRestore (1024 * e.1 + core)))

/-- A distributor could place a crew of the launch and stage at once if it had one: what it steals is not given back (R326). -/
def State.stealPlaces (s : State) (dom l g : Nat) : Bool :=
  s.slotCores.any (fun core =>
    decide (domOf core = dom) && s.stageCore (s.launchOf l).part (s.launchOf l).record g core && (s.fits l core).isSome
    && (List.range 8).any (fun k => decide ((mget s.slots (8 * core + k)).launch = l) && s.slotOpen core k)
    && s.allBound l && !s.midBinding l core && (s.claim l core false).isSome)

/-- Steal messages (R326). They are sent when the chunk could be used, so that none goes to and fro. -/
def State.stealSteps (s : State) : List Act :=
  s.launches.flatMap (fun e => (List.range e.2.record.stages).flatMap (fun g =>
    ([0, 1] : List Nat).flatMap (fun dom => if s.stealPlaces dom e.1 g then [execStealRequest dom (16 * e.1 + g)] else [])))

/-- Steps of the scheduler and the firmware that need no choice of theirs. -/
def State.firmwareSteps (s : State) : List Act :=
  s.crews.flatMap (fun e => (if e.2.retiring then [execCrewRetire e.1] else []) ++ (if e.2.preempt = 1 then [execCrewSave e.1] else []))
  ++ (if s.launches.any (fun e => s.launchOver e.1) then [execCrewRetire 0] else [])
  ++ (s.hostq.map (fun e => e.1 / 8)).eraseDups.map execHostQueueAccept ++ [execDlqTake 0, execDlqTake 1]
  ++ s.prefillSteps ++ s.restoreSteps ++ s.slotCores.map execCrewPlacement
  ++ ((mkeys s.chipctl).filter s.resetting).map execChipletReset
  ++ s.stealSteps
  ++ s.steals.flatMap (fun e => [execStealRequestArrival e.1, execStealAnswerArrival e.1])
  ++ s.mmioIn.flatMap (fun e => [execMmioWrite e.1, execChipctlFence e.1, execChipctlUnfence e.1, execErrcntClear e.1])
  ++ (mkeys s.hostIn).map execHostAccess

/-- Steps of the fabric. -/
def State.fabricSteps (s : State) : List Act :=
  s.packetsIn.flatMap (fun e =>
    [execPacketArrival e.1, execCollectiveFailureNotice e.1, execPacketReturn e.1, execDemand e.1, execGrantArrival e.1, execKeyExchange e.1])
  ++ (mkeys s.net).flatMap (fun k => [execOrderedFlagQuery k, execOrderedFlagAnswer k, execReachTimeout k])
  ++ (mkeys s.colls ++ mkeys s.ops ++ mkeys s.held).map execReachTimeout ++ [execGrantIssue]
  ++ s.collOps.flatMap (fun e => if e.2.clock = 0 then [] else (List.range 1024).map (fun r => execElasticTimeout (1024 * e.1 + r)))
  ++ (mkeys s.sessions).map execRekey
  ++ (if s.bridgeDown && decide (s.bridgeAt + retrainMax ≤ s.time) then [execBridgeRetrainDone] else [])

/-- Steps of power, temperature, scrubbing, errors and tier pumps. -/
def State.powerSteps (s : State) : List Act :=
  (if nbits s.bootstat.toNat 0 4 < 8 then [execPowerOn] else [])
  ++ (mkeys s.errIn).map execUncorrectableError
  ++ (s.sensors.map (fun e => e.1 / 4)).eraseDups.flatMap (fun c => [execThermalTrip c, execThermalThrottle c])
  ++ (mkeys s.throttled).map execThermalThrottleEnd
  ++ [execReDecay, execPumpEvaluation, execBudgetWindow, execScrub]
  ++ (mkeys s.cores).flatMap (fun c => (List.range 16).map (execSliceGate c) ++ [execArrayGate c, execCisternRetention c])
  ++ (mkeys s.routerUsed).map execRouterPortDown ++ (mkeys s.channelUsed).map execSelfRefresh
  ++ (mkeys s.ports).map execLinkLowPower ++ (mkeys s.ethUsed).map (fun k => execLinkLowPower (portCount + k))

/-- The step that happens next when the agenda names none and nothing is left to issue in this period: the period's issue ends, then the first step that
changes something, else the period ends. Choices of the firmware and events from outside come by the agenda and the input tables. -/
def State.nextEvent (s : State) : Act :=
  if s.issueQ.isEmpty then
    ((s.strandSteps ++ s.memorySteps ++ s.engineSteps ++ s.firmwareSteps ++ s.fabricSteps ++ s.powerSteps).find? s.does).getD execIssuePeriod
  else fun s => .next { s with issueQ := [] }

/-- What still happens in a device that stopped in bring-up: the register accesses that reach it; with none there is nothing left (R382, R383). -/
def State.stoppedStep (s : State) : Host.Outcome State Fault Refusal :=
  match (mkeys s.mmioIn).find? (fun k => s.does (execMmioWrite k)) with
  | some k => execMmioWrite k s
  | none => .fault .bringUpStopped

/-! The issue of a period. -/

/-- The state in which a chosen sub-gang fetches. -/
def State.issuing (s : State) (x : Issue × List Issue) : State := { s with cur := x.1, issueQ := x.2 }

/-- The instruction of the sub-gang that issues: fetched, decoded and executed; then its slices are taken (R25, R157). -/
def issueStep (s : State) : Host.Outcome State Fault Refusal :=
  match s.fetchIssue with
  | .run i s1 =>
    match exec i s1 with
    | .next t => .next t.afterIssue
    | o => o
  | .done s1 => .next s1

/-- The place of an instruction at the port of the activation buffer: 1 for TLD and TST, 2 for an access of strands, 0 for none (R100). -/
def abClass : Instr → Nat
  | .tld _ _ => 1
  | .tst _ _ => 1
  | .lda _ => 2
  | .sta _ => 2
  | .atomaAdd _ => 2
  | .atomaMin _ => 2
  | .atomaMax _ => 2
  | .atomaAnd _ => 2
  | .atomaOr _ => 2
  | .atomaXor _ => 2
  | .atomaXchg _ => 2
  | .atomaCas _ => 2
  | .atomaIncb _ => 2
  | .atomaFadd _ => 2
  | .atomaMaxp _ => 2
  | _ => 0

/-- The place at the buffer's port of the instruction that an issue would fetch. -/
def State.abClassOf (s : State) (x : Issue) : Nat :=
  match s.fetchWord x.crew (x.strands.headD 0) with
  | .word w => (match decode w with
    | .ok i => abClass i
    | .error _ => 0)
  | _ => 0

/-- The issue would stall: its weave chooses again (R26, R266). -/
def State.wouldStall (s : State) (x : Issue) : Bool :=
  match issueStep (s.issuing (x, [])) with
  | .next t => x.strands.all (fun k => (t.strand x.crew k).wait.stall)
  | _ => false

/-- What issues next of the weaves that are still to be considered, in their order (R25). Issues that use the activation buffer are decided in that
order too, but run when the others have, in the order of its port (`State.portOrder`). -/
def State.pickFrom (s : State) : List Issue → List Issue → Option (Issue × List Issue) × List Issue
  | [], dec => (none, dec)
  | i :: r, dec =>
    match s.mayIssue dec i with
    | none => s.pickFrom r dec
    | some x =>
      if decide (s.abClassOf x ≠ 0) && !s.wouldStall x then s.pickFrom r (dec ++ [x]) else (some (x, r ++ dec), dec)

/-- The place of an issue at the buffer's port: TLD and TST first, then ascending slices (R100). -/
def State.portKey (s : State) (x : Issue) : Nat :=
  (if s.abClassOf x = 1 then 0 else 2 ^ 20) + ((x.strands.map (s.crew x.crew).sliceOf).min?).getD 0

/-- Issues that use the activation buffer in the order in which its port serves them (R100). -/
def State.portOrder (s : State) (l : List Issue) : List Issue :=
  let key := s.portKey
  l.foldl (fun acc x => acc.takeWhile (fun y => decide (key y ≤ key x)) ++ [x] ++ acc.dropWhile (fun y => decide (key y ≤ key x))) []

/-- The issue of the present period that comes next. -/
def State.nextIssue (s : State) : Option (Issue × List Issue) :=
  let decided := s.issueQ.filter (fun x => !x.strands.isEmpty && x.strands.all (s.strandReady x.crew))
  match s.pickFrom (s.issueQ.filter (fun x => x.strands.isEmpty)) decided with
  | (some y, _) => some y
  | (none, [x]) => some (x, [])
  | (none, dec) => match s.portOrder dec with
    | [] => none
    | x :: r => some (x, r)

/-! Placing an instruction. -/

/-- The launch record of the placed crew: one weave of one strand, every register, tile and accumulator that one strand can have. -/
def placedRecord : LaunchRec :=
  { (default : LaunchRec) with code := 0x1000, gdx := 1, gdy := 1, gdz := 1, vgran := 8, weaves := 1, strands := 1, tiles := 8, accs := 1
                               stages := 1, ab := 0x10000 }

/-- The launch of the placed crew. -/
def placedLaunch : Launch := { (default : Launch) with state := 1, record := placedRecord, group := 0x800000 }

/-- The placed crew: at creation, with its save area at 2 MiB. -/
def placedCrew (l u seed period : Nat) : Crew :=
  { newCrew l placedRecord 0 0 0 u seed period [(0, [0])] with savebase := 0x200000 }

/-- A 1 GiB page of this device at address 0, readable, writable and executable, in the L1 TLB of core 0. -/
def placedPage (dev : Nat) : TlbEntry :=
  { owner := 2, part := 0, space := 0, page := 0, pageBits := 30, leaf := BitVec.ofNat 64 (dev * 2 ^ 44 + 0x1F) }

/-- A crew on core 0 whose next word is `w`: its launch, its page, chiplet 0 in service, the word in memory, and the crew's strand as
the sub-gang that issues next. -/
def State.placeWord (s : State) (w : Nat) : State :=
  let u := s.nextId
  let l := s.nextLaunch
  { s with
    agenda := [], bootstat := s.bootstat &&& ~~~0x100#64, nextId := u + 1, nextLaunch := l + 1
    mem := msetList s.mem (s.dev * 2 ^ 44 + 0x1000) (leBytes 4 w)
    poison := mset s.poison (s.dev * 2 ^ 44 + 0x1000) false
    icache := s.icache.filter (fun e => decide (e.core ≠ 0))
    tlb := placedPage s.dev :: s.tlb.filter (fun e => decide (e.owner ≠ 2))
    chipctl := mset s.chipctl 0 2
    launches := mset s.launches l placedLaunch
    crews := mset s.crews u (placedCrew l u (s.freeAt 0) s.period)
    issueQ := [⟨u, 0, [strandKey 0 0]⟩] }

end Sys2Proof.Machine
end

