-- ==== Sys2Proof/Machine/Step.lean ====
section
/-! DEFINITION. One step: what the agenda names, else the next issue of the period, else what happens next (R25, R391); a device that
stopped in bring-up only answers register accesses (R382, R383). -/

namespace Sys2Proof.Machine

/-- One step of the machine. -/
def step (s : State) : Host.Outcome State Fault Refusal :=
  if s.bootstat.getLsbD 8 then s.stoppedStep
  else
    match s.agenda with
    | i :: r => exec i { s with agenda := r }
    | [] =>
      match s.nextIssue with
      | some x => issueStep (s.issuing x)
      | none => s.nextEvent s

/-- The state with one instruction where the next step fetches it. -/
def State.withFetchWord (s : State) (nbits w : Nat) : State := s.placeWord (w % 2 ^ nbits)

end Sys2Proof.Machine
end

