-- ==== Sys2Proof/Safety.lean ====
section
/-! DEFINITION. The terms in which claims about the machine are made: states whose tables are in order, when an instruction runs
without a trap and without a wait, and what it then changes. -/

namespace Sys2Proof.Machine

/-- Memory, the tables of crews and cores and the tables of requests under way and at homes are in their canonical forms, and no sub-gang names a
strand twice: kept by every step. -/
def State.Tidy (s : State) : Prop :=
  Memory.wf s.mem = true ∧ mwf s.crews = true ∧ mwf s.cores = true ∧ mwf s.net = true ∧ mwf s.home = true ∧
    s.cur.strands.Nodup ∧ ∀ x ∈ s.issueQ, x.strands.Nodup

/-- A step that answers a next state answers a tidy one. -/
def Keeps (P : State → Prop) (o : Host.Outcome State Fault Refusal) : Prop :=
  match o with
  | .next t => P t
  | _ => True

/-- The sub-gang that issues, as the crew and a strand of it. -/
def State.issues (s : State) (k : Nat) : Prop := k ∈ s.cur.strands

/-- Strand k of the issuing crew, with the futures that the instruction reads delivered (R53). -/
def State.reading (s : State) (x : Use) (k : Nat) : Strand :=
  (s.deliver (s.strand s.cur.crew k) x.reads).getD (s.strand s.cur.crew k)

/-- The first of the checks of R157 that fails in strand k of the sub-gang that issues, or 0. -/
def State.checked (s : State) (x : Use) (k : Nat) : Nat :=
  x.cause (s.crew s.cur.crew) (s.strand s.cur.crew k) (fun n => s.slotOf (s.crew s.cur.crew) n) (converged (s.crew s.cur.crew) s.cur.strands)

/-- In every strand of the sub-gang that issues: no check of R157 fails, no register that the instruction names awaits a result
(R117, R194), and every future that it reads has resolved (R53). The sub-gang names no strand twice. -/
abbrev State.clear (s : State) (x : Use) : Prop :=
  s.cur.strands.Nodup ∧ ∀ k ∈ s.cur.strands,
    s.checked x k = 0 ∧ x.unavailable s.period (s.strand s.cur.crew k) = false ∧
    (s.deliver (s.strand s.cur.crew k) x.reads).isSome = true

/-- Every strand outside the sub-gang that issues is as before, and so is everything else of every crew. -/
def State.othersKept (s t : State) : Prop :=
  (∀ v k, ¬(v = s.cur.crew ∧ k ∈ s.cur.strands) → t.strand v k = s.strand v k) ∧
  ∀ v, { t.crew v with strand := [] } = { s.crew v with strand := [] }

/-- The instruction answers a next state, in which strand k of the sub-gang is `f k` and nothing else of the machine has changed: no
memory, no request, no other strand, no special register but those of `f k`. -/
def Completes (s : State) (o : Host.Outcome State Fault Refusal) (f : Nat → Strand) : Prop :=
  ∃ t, o = .next t ∧ (∀ k ∈ s.cur.strands, t.strand s.cur.crew k = f k) ∧ s.othersKept t ∧
    { t with crews := [] } = { s with crews := [] }

/-- The instruction answers a next state, in which each strand of the sub-gang has the result `r` in the threads of its active set, in
D unless N = 1 and in L0, has then undergone `fx`, and has gone on in line; threads outside the active set hold a free value in L0, and the
counter of free values rises. Nothing else of the machine has changed. -/
def Produces (s : State) (x : Use) (o : Host.Outcome State Fault Refusal) (n : Bool) (d : Opnd) (r : Strand → Nat → Word)
    (fx : Strand → Strand → Strand := fun _ st => st) : Prop :=
  ∃ t, o = .next t ∧
    (∀ k ∈ s.cur.strands, ∃ q, let st := s.reading x k
      t.strand s.cur.crew k = (fx st (st.result n d st.active (r st) q)).seq) ∧
    s.othersKept t ∧ { t with crews := [], free := [] } = { s with crews := [], free := [] }

/-- What an integer-family instruction of two sources names and checks: its registers, and an integer ET (R192). -/
abbrev intUse3 (f : FR3) : Use := { use3 f with mode := etBad etInt }
/-- The same for one source. -/
abbrev intUse2 (f : FR2) : Use := { use2 f with mode := etBad etInt }
/-- The same for a format whose D is read. -/
abbrev intUseA (f : FRA) : Use := { useA f with mode := etBad etInt }
/-- The same for the immediate formats. -/
abbrev intUseI (n : Bool) (d a : Opnd) : Use := { useI n d a with mode := etBad etInt }

/-- fit of R193, by the modes of the strand. -/
def Strand.fit (st : Strand) (x : Int) : Nat := fitN (etWidth (mrET st.mr)) (etSigned (mrET st.mr)) (mrSAT st.mr) x
/-- The element width w by ET (R61). -/
def Strand.width (st : Strand) : Nat := etWidth (mrET st.mr)
/-- Element k of a source in thread t as an integer, by ET (R61, R192). -/
def Strand.elem (st : Strand) (o : Opnd) (t k : Nat) : Int := elemInt (mrET st.mr) (st.src o t) k
/-- Element k of a source in thread t as a pattern. -/
def Strand.pattern (st : Strand) (o : Opnd) (t k : Nat) : Nat := elemBits (mrET st.mr) (st.src o t) k

/-- `Produces`, with the result given element by element: element k of thread t is `g st t k`, by the ET of the strand's MR (R61). -/
def ProducesElems (s : State) (x : Use) (o : Host.Outcome State Fault Refusal) (n : Bool) (d : Opnd) (g : Strand → Nat → Nat → Nat)
    (fx : Strand → Strand → Strand := fun _ st => st) : Prop :=
  ∃ r, Produces s x o n d r fx ∧
    ∀ st t k, k < etCount (mrET st.mr) → elemBits (mrET st.mr) (r st t) k = g st t k

/-- `Produces` for an instruction whose threads also set FLAGS and advance their stochastic states (R59, R69, R193). -/
def ProducesLanes (s : State) (x : Use) (o : Host.Outcome State Fault Refusal) (n : Bool) (d : Opnd) (l : Strand → Nat → LaneRes)
    (fx : Strand → Strand → Strand := fun _ st => st) : Prop :=
  Produces s x o n d (fun st t => (l st t).val)
    (fun st r => fx st { r.orFlags (laneFlags st.active (l st)) with
                         sto := writeThreads r.sto 0 st.active (fun t => (l st t).sto) 32 })

/-- The result, and L0 with it, may be named `n` issue periods after this one (R194). -/
def arrivesIn (s : State) (nf : Bool) (d : Opnd) (n : Nat) (_ st : Strand) : Strand :=
  st.delay ((if nf then [] else [d.code]) ++ [72]) (s.period + n)

/-- The states agree in every field and in every crew. -/
def State.agrees (s t : State) : Prop := { s with crews := [] } = { t with crews := [] } ∧ ∀ v, s.crew v = t.crew v

/-- The instruction raises the trap `tr k` in every strand k of the sub-gang, in strand order, and does nothing else. -/
def Traps (s : State) (o : Host.Outcome State Fault Refusal) (tr : Nat → Trap) : Prop :=
  ∃ t, o = .next t ∧ t.agrees (s.cur.strands.foldl (fun x k => x.takeTrap s.cur.crew k (tr k)) s)

/-- The sub-gang waits and none of its strands has done anything: strand k waits for `w k` and will execute the instruction again (R34). -/
def Waits (s : State) (o : Host.Outcome State Fault Refusal) (w : Nat → Wait) : Prop :=
  ∃ t, o = .next t ∧ (∀ k ∈ s.cur.strands, t.strand s.cur.crew k = { s.strand s.cur.crew k with wait := w k }) ∧ s.othersKept t ∧
    { t with crews := [] } = { s with crews := [] }

end Sys2Proof.Machine
end

