-- ==== Sys2Proof/Certificates/Slice0/Obligations.lean ====
section
/-! DEFINITION. The statements about the machine, by the numbered rules of spec/. Each is stated for every state and every operand that meets
its hypotheses, which speak of the state and the operands alone. -/

open Sys2Proof Sys2Proof.Machine

/-! Integer arithmetic. -/

/-- R197, R192, R193: ADD, SUB, MUL, MULHI, MAD, MIN, MAX, ABS, NEG and AVG, element by element, in every thread of the active set; no flag, no other
register, no memory changes. -/
def Obligations.IntegerArithmetic : Prop :=
  ∀ s : State,
    (∀ f : FR3,
      s.clear (intUse3 f) →
      ProducesElems s (intUse3 f) (exec (.add f) s) f.n f.d (fun st t k => st.fit (st.elem f.a t k + st.elem f.b t k)) ∧
      ProducesElems s (intUse3 f) (exec (.sub f) s) f.n f.d (fun st t k => st.fit (st.elem f.a t k - st.elem f.b t k)) ∧
      ProducesElems s (intUse3 f) (exec (.mul f) s) f.n f.d (fun st t k => st.fit (st.elem f.a t k * st.elem f.b t k)) ∧
      ProducesElems s (intUse3 f) (exec (.mulhi f) s) f.n f.d
        (fun st t k => wrapN st.width (st.elem f.a t k * st.elem f.b t k / ((2 ^ st.width : Nat) : Int))) ∧
      ProducesElems s (intUse3 f) (exec (.min f) s) f.n f.d (fun st t k => wrapN st.width (min (st.elem f.a t k) (st.elem f.b t k))) ∧
      ProducesElems s (intUse3 f) (exec (.max f) s) f.n f.d (fun st t k => wrapN st.width (max (st.elem f.a t k) (st.elem f.b t k))) ∧
      ProducesElems s (intUse3 f) (exec (.avg f) s) f.n f.d (fun st t k => wrapN st.width ((st.elem f.a t k + st.elem f.b t k + 1) / 2))) ∧
    (∀ f : FR2,
      s.clear (intUse2 f) →
      ProducesElems s (intUse2 f) (exec (.abs f) s) f.n f.d (fun st t k => st.fit |st.elem f.a t k|) ∧
      ProducesElems s (intUse2 f) (exec (.neg f) s) f.n f.d (fun st t k => st.fit (-(st.elem f.a t k)))) ∧
    (∀ f : FRA,
      s.clear (intUseA f) →
      ProducesElems s (intUseA f) (exec (.mad f) s) false f.d
        (fun st t k => st.fit (st.elem f.a t k * st.elem f.b t k + st.elem f.d t k)))

namespace Sys2Proof.Machine

/-- The quotient and remainder of R198 as patterns of the element. -/
def quotRem (st : Strand) (a b : Int) : Nat × Nat :=
  let lo := intMin st.width (etSigned (mrET st.mr))
  let hi := intMax st.width (etSigned (mrET st.mr))
  if b = 0 then (wrapN st.width (if 0 ≤ a then hi else lo), wrapN st.width a)
  else if etSigned (mrET st.mr) = true ∧ a = lo ∧ b = -1 then (st.fit (-a), 0)
  else (wrapN st.width (a.tdiv b), wrapN st.width (a - a.tdiv b * b))

/-- DZ is set when an element of B is 0 in a thread of the active set (R198), and the result may be named 4 issue periods later (R194). -/
def afterDivision (s : State) (f : FR3) (st st' : Strand) : Strand :=
  let dz := (threadsOf st.active).any (fun t => (List.range (etCount (mrET st.mr))).any (fun k => decide (st.pattern f.b t k = 0)))
  (st'.orFlags (if dz then flagDZ else 0)).delay ((if f.n then [] else [f.d.code]) ++ [72]) (s.period + 4)

/-- Element k of width w of a word, with the signedness of ET (R199). -/
def partOf (st : Strand) (w : Nat) (v : Word) (k : Nat) : Int :=
  if etSigned (mrET st.mr) then sint w (nbits v.toNat (w * k) w) else ((nbits v.toNat (w * k) w : Nat) : Int)

/-- R199: the accumulation of `n` products of `w`-bit elements into all 32 bits of D. -/
def dotSum (st : Strand) (f : FRA) (w n t : Nat) : Word :=
  let sg := etSigned (mrET st.mr)
  let d := st.src f.d t
  let acc : Int := (if sg then sint 32 d.toNat else (d.toNat : Int)) +
    ((List.range n).map (fun k => partOf st w (st.src f.a t) k * partOf st w (st.src f.b t) k)).sum
  BitVec.ofNat 32 (fitN 32 sg (mrSAT st.mr) acc)

/-- One shifted element by R201: the function number, the width, the pattern and the count. -/
def shifted (fn w a n : Nat) : Nat :=
  match fn with
  | 5 => if n < w then a * 2 ^ n % 2 ^ w else 0
  | 6 => if n < w then a / 2 ^ n else 0
  | 7 => wrapN w (sint w a / ((2 ^ n : Nat) : Int))
  | _ => a * 2 ^ (n % w) % 2 ^ w + a / 2 ^ (w - n % w)

end Sys2Proof.Machine

/-- R198, R194: DIV and REM, with the zero divisor, the overflow and DZ; R199: DOT4 and DOT2. R201: SHL, SHR, SAR and ROL by the counts in B; R222:
ISHI by its immediate. -/
def Obligations.DivisionDotProductsAndShifts : Prop :=
  ((∀ (s : State) (f : FR3),
       s.clear (intUse3 f) →
       ProducesElems s (intUse3 f) (exec (.div f) s) f.n f.d (fun st t k => (quotRem st (st.elem f.a t k) (st.elem f.b t k)).1) (afterDivision s f) ∧
       ProducesElems s (intUse3 f) (exec (.rem f) s) f.n f.d (fun st t k => (quotRem st (st.elem f.a t k) (st.elem f.b t k)).2) (afterDivision s f)) ∧
   (∀ (s : State) (f : FRA),
       s.clear (intUseA f) →
       Produces s (intUseA f) (exec (.dot4 f) s) false f.d (fun st t => dotSum st f 8 4 t) ∧
       Produces s (intUseA f) (exec (.dot2 f) s) false f.d (fun st t => dotSum st f 16 2 t))) ∧
  (∀ s : State,
     (∀ f : FR3,
       let by_ := fun fn st t k => shifted fn (Strand.width st) (st.pattern f.a t k) (st.pattern f.b t k)
       s.clear (intUse3 f) →
       ProducesElems s (intUse3 f) (exec (.shl f) s) f.n f.d (by_ 5) ∧ ProducesElems s (intUse3 f) (exec (.shr f) s) f.n f.d (by_ 6) ∧
       ProducesElems s (intUse3 f) (exec (.sar f) s) f.n f.d (by_ 7) ∧ ProducesElems s (intUse3 f) (exec (.rol f) s) f.n f.d (by_ 8)) ∧
     (∀ f : FShi,
       let by_ := fun fn st t k => shifted fn (Strand.width st) (st.pattern f.a t k) f.c.val
       s.clear (intUseI f.n f.d f.a) →
       ProducesElems s (intUseI f.n f.d f.a) (exec (.ishiShl f) s) f.n f.d (by_ 5) ∧ ProducesElems s (intUseI f.n f.d f.a) (exec (.ishiShr f) s) f.n f.d (by_ 6) ∧
       ProducesElems s (intUseI f.n f.d f.a) (exec (.ishiSar f) s) f.n f.d (by_ 7) ∧ ProducesElems s (intUseI f.n f.d f.a) (exec (.ishiRol f) s) f.n f.d (by_ 8)))

namespace Sys2Proof.Machine

/-- The remainder of R203 after one byte. -/
def crcByte (c : Word) (b : Nat) : Word :=
  (List.range 8).foldl (fun c _ => if c.getLsbD 0 then (c >>> 1) ^^^ 0x82F63B78 else c >>> 1) (c ^^^ BitVec.ofNat 32 b)

end Sys2Proof.Machine

/-- R200: the whole-register functions, which ignore ET; R202 and R203: BFX, BFI and CRC. -/
def Obligations.BitwiseLogicAndFields : Prop :=
  (∀ s : State,
      (∀ f : FR3, s.clear (use3 f) →
        Produces s (use3 f) (exec (.and f) s) f.n f.d (fun st t => st.src f.a t &&& st.src f.b t) ∧
        Produces s (use3 f) (exec (.or f) s) f.n f.d (fun st t => st.src f.a t ||| st.src f.b t) ∧
        Produces s (use3 f) (exec (.xor f) s) f.n f.d (fun st t => st.src f.a t ^^^ st.src f.b t) ∧
        Produces s (use3 f) (exec (.andn f) s) f.n f.d (fun st t => st.src f.a t &&& ~~~(st.src f.b t))) ∧
      (∀ f : FR2, s.clear (use2 f) →
        Produces s (use2 f) (exec (.not f) s) f.n f.d (fun st t => ~~~(st.src f.a t)) ∧
        (∃ r, Produces s (use2 f) (exec (.popc f) s) f.n f.d r ∧
          ∀ st t, (r st t).toNat = (List.range 32).countP (fun i => (st.src f.a t).getLsbD i)) ∧
        (∃ r, Produces s (use2 f) (exec (.clz f) s) f.n f.d r ∧
          ∀ st t, (r st t).toNat ≤ 32 ∧ (st.src f.a t).toNat < 2 ^ (32 - (r st t).toNat) ∧
            ((r st t).toNat < 32 → 2 ^ (31 - (r st t).toNat) ≤ (st.src f.a t).toNat)) ∧
        (∃ r, Produces s (use2 f) (exec (.brev f) s) f.n f.d r ∧
          ∀ st t i, i < 32 → (r st t).getLsbD i = (st.src f.a t).getLsbD (31 - i)))) ∧
  (∀ s : State,
      (∀ f : FR3, s.clear (use3 f) →
        Produces s (use3 f) (exec (.bfx f) s) f.n f.d (fun st t =>
          let b := (st.src f.b t).toNat
          BitVec.ofNat 32 ((st.src f.a t).toNat / 2 ^ nbits b 0 5 % 2 ^ min 32 (nbits b 8 6)))) ∧
      (∀ f : FRA, s.clear (useA f) →
        Produces s (useA f) (exec (.bfi f) s) false f.d (fun st t =>
          let b := (st.src f.b t).toNat
          let m : Word := BitVec.ofNat 32 ((2 ^ min 32 (nbits b 8 6) - 1) * 2 ^ nbits b 0 5)
          (st.src f.d t &&& ~~~m) ||| ((st.src f.a t <<< nbits b 0 5) &&& m)) ∧
        Produces s (useA f) (exec (.crc f) s) false f.d (fun st t =>
          (List.range (min (nbits (st.src f.b t).toNat 0 3) 4)).foldl
            (fun c i => crcByte c (nbits (st.src f.a t).toNat (8 * i) 8)) (st.src f.d t))))

namespace Sys2Proof.Machine

/-- The instruction writes predicate `p` in the threads of the active set: 1 where `holds`; sets the flags `fl`; and changes nothing else. -/
def SetsPredicate (s : State) (x : Use) (o : Host.Outcome State Fault Refusal) (p : Nat) (holds : Strand → Nat → Prop)
    (fl : Strand → BitVec 4 := fun _ => 0) : Prop :=
  ∃ m : Strand → Word, (∀ st t, t < 32 → ((m st).getLsbD t = true ↔ holds st t)) ∧
    Completes s o (fun k =>
      (((s.reading x k).setPred p (s.reading x k).active (m (s.reading x k))).orFlags (fl (s.reading x k))).seq)

/-- A relation holds for every element pair of a thread, by ET (R204). -/
def everyPair (f : FCmp) (g : Int → Int → Prop) (st : Strand) (t : Nat) : Prop :=
  ∀ k < etCount (mrET st.mr), g (st.elem f.a t k) (st.elem f.b t k)

end Sys2Proof.Machine

/-- R222, R223, R217, R189: ADDI, ANDI, MOVI, MOVH, MOV, the shuffles and SEL with a V or O destination. -/
def Obligations.ImmediatesAndMoves : Prop :=
  ∀ s : State,
    (∀ f : FImm,
      s.clear (intUseI f.n f.d f.a) → ProducesElems s (intUseI f.n f.d f.a) (exec (.addi f) s) f.n f.d (fun st t k => st.fit (st.elem f.a t k + f.i.toInt))) ∧
    (∀ f : FImm, s.clear (useI f.n f.d f.a) →
      Produces s (useI f.n f.d f.a) (exec (.andi f) s) f.n f.d (fun st t => st.src f.a t &&& f.i.signExtend 32)) ∧
    (∀ (n : Bool) (d : Opnd) (i : BitVec 18), isS d = false →
      let x : Use := { out := if n then [] else [d] }
      s.clear x → Produces s x (exec (.movi n d i) s) n d (fun _ _ => i.signExtend 32)) ∧
    (∀ (d : Opnd) (j : Fin 4) (v : BitVec 16), isS d = false → j.val < 2 →
      let x : Use := { out := [d] }
      s.clear x → ∃ r, Produces s x (exec (.movh d j v) s) false d r ∧
        ∀ st t b, b < 32 → (r st t).getLsbD b =
          if 16 * j.val ≤ b ∧ b < 16 * j.val + 16 then v.getLsbD (b - 16 * j.val) else (st.src d t).getLsbD b) ∧
    (∀ f : FR2, s.clear (use2 f) → Produces s (use2 f) (exec (.mov f) s) f.n f.d (fun st t => st.src f.a t)) ∧
    (∀ f : FR3, s.clear (use3 f) →
      let c := fun (st : Strand) t => nbits (st.src f.b t).toNat 0 5
      Produces s (use3 f) (exec (.shfi f) s) f.n f.d (fun st t => st.src f.a (c st t)) ∧
      Produces s (use3 f) (exec (.shup f) s) f.n f.d (fun st t => st.src f.a (if c st t ≤ t then t - c st t else t)) ∧
      Produces s (use3 f) (exec (.shdn f) s) f.n f.d (fun st t => st.src f.a (if t + c st t ≤ 31 then t + c st t else t)) ∧
      Produces s (use3 f) (exec (.shxr f) s) f.n f.d (fun st t => st.src f.a (t ^^^ c st t))) ∧
    (∀ (k : Fin 8) (f : FR3), let x : Use := { src := [f.a, f.b], out := if f.n then [] else [f.d] }
      s.clear x → Produces s x (exec (.sel k f) s) f.n f.d
        (fun st t => if (st.pred k.val).getLsbD t then st.src f.a t else st.src f.b t))

/-- R223, R224, R225: the uniform instructions write S[d] once, clear its F bit, and change nothing else; S0 stays zero. -/
def Obligations.UniformArithmetic : Prop :=
  ∀ s : State,
    (∀ d a b : Fin 32, let x : Use := { sr := [a.val, b.val], sw := [d.val] }
      let gives := fun (o : Host.Outcome State Fault Refusal) (g : Word64 → Word64 → Word64) =>
        Completes s o (fun k => let st := s.reading x k
          (st.setS d.val (g (st.sreg a.val) (st.sreg b.val))).seq)
      s.clear x →
      gives (exec (.uadd d a b) s) (fun p q => p + q) ∧ gives (exec (.usub d a b) s) (fun p q => p - q) ∧
      gives (exec (.umul d a b) s) (fun p q => p * q) ∧
      gives (exec (.umulhi d a b) s) (fun p q => BitVec.ofInt 64 (p.toInt * q.toInt / 2 ^ 64)) ∧
      gives (exec (.uand d a b) s) (fun p q => p &&& q) ∧ gives (exec (.uor d a b) s) (fun p q => p ||| q) ∧
      gives (exec (.uxor d a b) s) (fun p q => p ^^^ q) ∧
      gives (exec (.ushl d a b) s) (fun p q => p <<< (q.toNat % 64)) ∧
      gives (exec (.ushr d a b) s) (fun p q => p >>> (q.toNat % 64)) ∧
      gives (exec (.usar d a b) s) (fun p q => p.sshiftRight (q.toNat % 64)) ∧
      gives (exec (.umin d a b) s) (fun p q => if p.toInt ≤ q.toInt then p else q) ∧
      gives (exec (.umax d a b) s) (fun p q => if p.toInt ≤ q.toInt then q else p) ∧
      gives (exec (.ucmplt d a b) s) (fun p q => if p.toInt < q.toInt then 1 else 0) ∧
      gives (exec (.ucmpeq d a b) s) (fun p q => if p = q then 1 else 0) ∧
      gives (exec (.ucmpltn d a b) s) (fun p q => if p.toNat < q.toNat then 1 else 0)) ∧
    (∀ (d a : Fin 32) (i : BitVec 11), let x : Use := { sin := [.s a], sout := [.s d] }
      s.clear x → Completes s (exec (.uaddi (.s d) (.s a) i) s)
        (fun k => ((s.reading x k).setS d.val ((s.reading x k).sreg a.val + i.signExtend 64)).seq)) ∧
    (∀ (r : Fin 32) (i : BitVec 18), let x : Use := { sout := [.s r] }
      s.clear x → Completes s (exec (.movi false (.s r) i) s) (fun k => ((s.reading x k).setS r.val (i.signExtend 64)).seq)) ∧
    (∀ (r : Fin 32) (j : Fin 4) (v : BitVec 16), let x : Use := { sin := [.s r], sout := [.s r] }
      s.clear x → ∃ w : Nat → Word64, Completes s (exec (.movh (.s r) j v) s) (fun k => ((s.reading x k).setS r.val (w k)).seq) ∧
        ∀ k b, b < 64 → (w k).getLsbD b =
          if 16 * j.val ≤ b ∧ b < 16 * j.val + 16 then v.getLsbD (b - 16 * j.val) else ((s.reading x k).sreg r.val).getLsbD b)

/-! Floating point, conversion and cross-thread operations. -/

namespace Sys2Proof.Machine

/-- A floating function of two sources, element by element: `op` receives the format, the rounding and the two patterns (R192, R205). -/
def lane2 (rm : Bool) (op : Fmt → Rnd → Nat → Nat → FRes) (f : FR3) (st : Strand) (t : Nat) : LaneRes :=
  floatLane st rm (fun m r x y _ => op m r x y) (st.src f.a t) (st.src f.b t) 0 t

/-- A floating function of one source. -/
def lane1 (rm : Bool) (op : Fmt → Rnd → Nat → FRes) (f : FR2) (st : Strand) (t : Nat) : LaneRes :=
  floatLane st rm (fun m r x _ _ => op m r x) (st.src f.a t) 0 0 t

/-- A fused function of D, A and B. -/
def lane3 (op : Fmt → Rnd → Nat → Nat → Nat → FRes) (f : FRA) (st : Strand) (t : Nat) : LaneRes :=
  floatLane st true op (st.src f.a t) (st.src f.b t) (st.src f.d t) t

end Sys2Proof.Machine

/-- R205, R206, R207, R210: FADD, FSUB, FMUL, FMA, FMS, FMIN, FMAX, FSCL, FABS and FNEG: each element is the correctly rounded result of its format
under MR.RM where the function rounds, with the flags of the active threads. -/
def Obligations.FloatArithmetic : Prop :=
  ∀ s : State,
    (∀ f : FR3,
      (s.clear { use3 f with mode := fmode true } →
        ProducesLanes s { use3 f with mode := fmode true } (exec (.fadd f) s) f.n f.d
          (lane2 true (fun m r a b => m.add r (m.value r.fz a) (m.value r.fz b)) f) ∧
        ProducesLanes s { use3 f with mode := fmode true } (exec (.fsub f) s) f.n f.d
          (lane2 true (fun m r a b => m.add r (m.value r.fz a) (m.value r.fz b).neg) f) ∧
        ProducesLanes s { use3 f with mode := fmode true } (exec (.fmul f) s) f.n f.d
          (lane2 true (fun m r a b => m.mulR r (m.value r.fz a) (m.value r.fz b)) f) ∧
        ProducesLanes s { use3 f with mode := fmode true } (exec (.fscl f) s) f.n f.d (lane2 true sclElem f)) ∧
      (s.clear { use3 f with mode := fmode false } →
        ProducesLanes s { use3 f with mode := fmode false } (exec (.fmin f) s) f.n f.d
          (lane2 false (fun m r a b => m.minmax false r.fz a b) f) ∧
        ProducesLanes s { use3 f with mode := fmode false } (exec (.fmax f) s) f.n f.d
          (lane2 false (fun m r a b => m.minmax true r.fz a b) f))) ∧
    (∀ f : FRA, s.clear { useA f with mode := fmode true } →
      ProducesLanes s { useA f with mode := fmode true } (exec (.fma f) s) false f.d
        (lane3 (fun m r a b d => m.fma r (m.value r.fz a) (m.value r.fz b) (m.value r.fz d)) f) ∧
      ProducesLanes s { useA f with mode := fmode true } (exec (.fms f) s) false f.d
        (lane3 (fun m r a b d => m.fma r (m.value r.fz a) (m.value r.fz b) (m.value r.fz d).neg) f)) ∧
    (∀ f : FR2, s.clear { use2 f with mode := fmode false } →
      ProducesLanes s { use2 f with mode := fmode false } (exec (.fabs f) s) f.n f.d
        (lane1 false (fun m r a => signOp m r.fz a (fun _ => false)) f) ∧
      ProducesLanes s { use2 f with mode := fmode false } (exec (.fneg f) s) f.n f.d
        (lane1 false (fun m r a => signOp m r.fz a (fun x => !x)) f))

/-- R194, R205, R208: FDIV and FSQRT deliver 4 issue periods later, FRCP, FRSQ, FEX2 and FLG2 2 issue periods later. Where the rules leave a point
open, the model's choice of log entry 17 holds. -/
def Obligations.FloatLateResults : Prop :=
  ∀ s : State,
    (∀ f : FR3, s.clear { use3 f with mode := fmode true } →
      ProducesLanes s { use3 f with mode := fmode true } (exec (.fdiv f) s) f.n f.d
        (lane2 true (fun m r a b => m.div r (m.value r.fz a) (m.value r.fz b)) f) (arrivesIn s f.n f.d 4)) ∧
    (∀ f : FR2, s.clear { use2 f with mode := fmode true } →
      ProducesLanes s { use2 f with mode := fmode true } (exec (.fsqrt f) s) f.n f.d
        (lane1 true (fun m r a => m.sqrt r (m.value r.fz a)) f) (arrivesIn s f.n f.d 4)) ∧
    (∀ f : FR2, s.clear { use2 f with mode := fmode false } →
      ProducesLanes s { use2 f with mode := fmode false } (exec (.frcp f) s) f.n f.d
        (lane1 false (fun m r a => m.rcp r.fz (m.value r.fz a)) f) (arrivesIn s f.n f.d 2) ∧
      ProducesLanes s { use2 f with mode := fmode false } (exec (.frsq f) s) f.n f.d
        (lane1 false (fun m r a => m.rsq r.fz (m.value r.fz a)) f) (arrivesIn s f.n f.d 2) ∧
      ProducesLanes s { use2 f with mode := fmode false } (exec (.fex2 f) s) f.n f.d
        (lane1 false (fun m r a => m.ex2 r.fz (m.value r.fz a)) f) (arrivesIn s f.n f.d 2) ∧
      ProducesLanes s { use2 f with mode := fmode false } (exec (.flg2 f) s) f.n f.d
        (lane1 false (fun m r a => m.lg2 r.fz (m.value r.fz a)) f) (arrivesIn s f.n f.d 2))

namespace Sys2Proof.Machine

/-- Element k of a source in thread t as a floating value, subnormals flushed under FZ (R211). -/
def Strand.floatAt (st : Strand) (o : Opnd) (t k : Nat) : Fl := (etFmt (mrET st.mr)).value (mrFZ st.mr) (st.pattern o t k)

/-- A relation holds for every element pair of a thread. -/
def everyFloatPair (f : FCmp) (g : Fl → Fl → Prop) (st : Strand) (t : Nat) : Prop :=
  ∀ k < etCount (mrET st.mr), g (st.floatAt f.a t k) (st.floatAt f.b t k)

/-- IV is set when an element of an active thread is a NaN, signalling for the quiet relations (R211). -/
def fcmpFlags (f : FCmp) (quiet : Bool) (st : Strand) : BitVec 4 :=
  if (threadsOf st.active).any (fun t => (List.range (etCount (mrET st.mr))).any (fun k =>
      if quiet then decide (st.floatAt f.a t k = .nan true ∨ st.floatAt f.b t k = .nan true)
      else (st.floatAt f.a t k).isNan || (st.floatAt f.b t k).isNan))
  then flagIV else 0

end Sys2Proof.Machine

/-- R211: the predicate that FCMP writes, and IV: for .EQ, .NE and .UN from signalling NaNs only, for the ordered relations from any NaN. -/
def Obligations.FloatComparison : Prop :=
  ∀ (s : State) (f : FCmp), s.clear { src := [f.a, f.b], mode := fmode false } →
    SetsPredicate s { src := [f.a, f.b], mode := fmode false } (exec (.fcmpEq f) s) f.p.val
      (everyFloatPair f (fun a b => a.eq b = true)) (fcmpFlags f true) ∧
    SetsPredicate s { src := [f.a, f.b], mode := fmode false } (exec (.fcmpNe f) s) f.p.val
      (fun st t => ¬everyFloatPair f (fun a b => a.eq b = true) st t) (fcmpFlags f true) ∧
    SetsPredicate s { src := [f.a, f.b], mode := fmode false } (exec (.fcmpLt f) s) f.p.val
      (everyFloatPair f (fun a b => a.lt b = true)) (fcmpFlags f false) ∧
    SetsPredicate s { src := [f.a, f.b], mode := fmode false } (exec (.fcmpLe f) s) f.p.val
      (everyFloatPair f (fun a b => a.lt b = true ∨ a.eq b = true)) (fcmpFlags f false) ∧
    SetsPredicate s { src := [f.a, f.b], mode := fmode false } (exec (.fcmpGt f) s) f.p.val
      (everyFloatPair f (fun a b => b.lt a = true)) (fcmpFlags f false) ∧
    SetsPredicate s { src := [f.a, f.b], mode := fmode false } (exec (.fcmpGe f) s) f.p.val
      (everyFloatPair f (fun a b => b.lt a = true ∨ b.eq a = true)) (fcmpFlags f false) ∧
    SetsPredicate s { src := [f.a, f.b], mode := fmode false } (exec (.fcmpUn f) s) f.p.val
      (fun st t => ∃ k < etCount (mrET st.mr), (st.floatAt f.a t k).isNan = true ∨ (st.floatAt f.b t k).isNan = true)
      (fcmpFlags f true)

/-! Conversions. -/

namespace Sys2Proof.Machine

/-- What CVT names and checks (R212). -/
def cvtUse (f : FCvt) : Use := { src := [f.a], out := if f.n then [] else [f.d], mode := convBad f.e.val }
/-- Registers in the group of PACK and UNPK, by the source type of MR and the target type (R213). -/
def packGroup (f : FCvt) (mr : Word) : Nat := groupSize (etCount (mrET mr)) (etCount f.e.val)
/-- What PACK names and checks (R213). -/
def packUse (f : FCvt) : Use :=
  { src := [f.a], out := if f.n then [] else [f.d], mode := convBad f.e.val, early := packDir true f.e.val
    grpMr := fun mr => if packGroup f mr = 4 then [(f.a, 4)] else []
    src64Mr := fun mr => if packGroup f mr = 2 then [f.a] else [] }
/-- What UNPK names and checks (R213). -/
def unpkUse (f : FCvt) : Use :=
  { src := [f.a], out := if f.n then [] else [f.d], mode := convBad f.e.val, early := packDir false f.e.val
    grpMr := fun mr => if packGroup f mr = 1 || f.n then [] else [(f.d, packGroup f mr)] }

/-- UNPK: the results of the destination registers j = 0, 1, …, each of the elements from j × n_t on, and the stochastic state after
them (R213, R69). -/
def unpkParts (f : FCvt) (st : Strand) (t : Nat) : Nat → List LaneRes × Word
  | 0 => ([], st.stoOf t)
  | j + 1 =>
    let p := unpkParts f st t j
    let r := convLane st f.e.val (etCount f.e.val) (fun k => st.pattern f.a t (j * etCount f.e.val + k)) p.2
    (p.1 ++ [r], r.sto)

/-- What UNPK gives in thread t: L0 and the first destination receive the first register's value. -/
def unpkLane (f : FCvt) (st : Strand) (t : Nat) : LaneRes :=
  let p := unpkParts f st t (packGroup f st.mr)
  ⟨(p.1.headD default).val, p.1.foldl (fun fl r => fl ||| r.flags) 0, p.2⟩

/-- The further destination registers of UNPK. -/
def unpkRest (f : FCvt) (st r : Strand) : Strand :=
  if f.n then r else
    (List.range (packGroup f st.mr - 1)).foldl
      (fun x j => x.writeV (f.d.num + j + 1) st.active
        (fun t => (((unpkParts f st t (packGroup f st.mr)).1.drop (j + 1)).headD default).val)) r

/-- What QNT and DQNT name and check, and NEST (R214..R216). -/
def qntUse (f : FSlot) : Use :=
  { src := [f.a], out := (if f.n then [] else [f.d]) ++ [.o 6], mode := rmBad, slot := fun g => !slotOk 3 (g f.s.val) }
/-- DQNT. -/
def dqntUse (f : FSlot) : Use :=
  { src := [f.a, .o 6], out := if f.n then [] else [f.d], mode := rmBad, slot := fun g => !slotOk 3 (g f.s.val) }
/-- NEST. -/
def nestUse (f : FSlot) : Use := { src := [f.a], out := if f.n then [] else [f.d], slot := fun g => !slotOk 4 (g f.s.val) }

/-- One thread of DQNT (R215): the value of the byte times two to the power that the scale byte of O6 and the slot's offset give. -/
def dqntLane (f : FSlot) (slot : Word64) (st : Strand) (t : Nat) : LaneRes :=
  let sc := nbits (st.oreg 6 t).toNat 0 8
  let q : Int := if slotSigned slot then sint 8 (nbits (st.src f.a t).toNat 0 8) else (nbits (st.src f.a t).toNat 0 8 : Nat)
  let e : Int := (if slotScaled slot then (sc : Int) else 127) + slotOffset slot - 127
  laneElems 32 1 (mrRM st.mr) (mrFZ st.mr)
    (fun r _ =>
      if slotScaled slot && decide (sc = 255) then (fmtF32.nanBits, flagIV)
      else if q = 0 then (fmtF32.zero false, 0)
      else fmtF32.round r (decide (q < 0)) q.natAbs e false) (st.stoOf t)

/-- Bit i of NEST's plane: byte `half` of the row of thread t mod 16 (R216). -/
def nestPlane (f : FSlot) (st : Strand) (t bit : Nat) : Nat :=
  ((List.range 8).map (fun k =>
    let u := 16 * (t / 16) + 8 * (t % 16 % 2) + k
    (if st.active.getLsbD u then nbits (st.src f.a u).toNat bit 1 else 0) * 2 ^ k)).sum

end Sys2Proof.Machine

/-- R212, R213: the conversions; R214, R215, R216: QNT with its scale bytes in O6, DQNT, and NEST. Where the rules leave a point open, the model's
choice of log entry 75 holds. -/
def Obligations.ConversionsAndQuantisation : Prop :=
  (∀ (s : State) (f : FCvt),
      (s.clear (cvtUse f) →
        ProducesLanes s (cvtUse f) (exec (.cvt f) s) f.n f.d (fun st t =>
          convLane st f.e.val (min (etCount (mrET st.mr)) (etCount f.e.val)) (fun k => st.pattern f.a t k) (st.stoOf t))) ∧
      (s.clear (packUse f) →
        ProducesLanes s (packUse f) (exec (.pack f) s) f.n f.d (fun st t =>
          convLane st f.e.val (etCount f.e.val)
            (fun k => elemBits (mrET st.mr) (packSrc st f.a (k / etCount (mrET st.mr)) t) (k % etCount (mrET st.mr))) (st.stoOf t))) ∧
      (s.clear (unpkUse f) →
        ProducesLanes s (unpkUse f) (exec (.unpk f) s) f.n f.d (unpkLane f) (unpkRest f))) ∧
  (∀ (s : State) (f : FSlot),
      (s.clear (qntUse f) →
        ProducesLanes s (qntUse f) (exec (.qnt f) s) f.n f.d
          (fun st t => qntLane st f.a (s.slotOf (s.crew s.cur.crew) f.s.val) t)
          (fun st r => r.writeReg (.o 6) (maskOf (fun t => (blockScale st f.a (s.slotOf (s.crew s.cur.crew) f.s.val) (t / 16)).any))
            (fun t => BitVec.ofNat 32 (blockScale st f.a (s.slotOf (s.crew s.cur.crew) f.s.val) (t / 16)).byte))) ∧
      (s.clear (dqntUse f) →
        ProducesLanes s (dqntUse f) (exec (.dqnt f) s) f.n f.d (dqntLane f (s.slotOf (s.crew s.cur.crew) f.s.val))) ∧
      (s.clear (nestUse f) →
        Produces s (nestUse f) (exec (.nest f) s) f.n f.d (fun st t =>
          let i := t % 16
          BitVec.ofNat 32 (if slotPlanes (s.slotOf (s.crew s.cur.crew) f.s.val) = 8 then nestPlane f st t (7 - i / 2)
            else nestPlane f st t (7 - i / 2) * 256 + nestPlane f st t (15 - i / 2)))))

/-! Cross-thread operations. -/

namespace Sys2Proof.Machine

/-- What a reduction leaves: its flags, and its result 2 issue periods later (R194, R218). -/
def afterReduction (s : State) (f : FR2) (fl : Strand → BitVec 4) (st r : Strand) : Strand :=
  arrivesIn s f.n f.d 2 st (r.orFlags (if st.active = 0 then 0 else fl st))

/-- The integers that element k of A holds in the active threads. -/
def activeElems (st : Strand) (x : Opnd) (k : Nat) : List Int := (threadsOf st.active).map (fun t => st.elem x t k)

/-- The tree of R218: the values at the 2^n indices from t on, combined half by half; where one half is absent it gives the other. -/
def halves {α : Type} (f : α → α → α) (v : Nat → Option α) : Nat → Nat → Option α
  | 0, t => v t
  | n + 1, t =>
    match halves f v n t, halves f v n (t + 2 ^ n) with
    | some a, some b => some (f a b)
    | some a, none => some a
    | none, b => b

/-- Element k of A in thread t as a leaf of a floating reduction, absent where the thread is not active. -/
def leafAt (st : Strand) (x : Opnd) (k t : Nat) : Option FRes :=
  if st.active.getLsbD t then some (redLeaf (etFmt (mrET st.mr)) st.mr (st.pattern x t k)) else none

/-- A floating reduction of element k over the active threads: its pattern and its flags. -/
def treeAt (g : Fmt → Word → FRes → FRes → FRes) (st : Strand) (x : Opnd) (k : Nat) : FRes :=
  (halves (g (etFmt (mrET st.mr)) st.mr) (leafAt st x k) 5 0).getD (0, 0)

/-- The prefix sum of element k at thread t: the active threads up to t, added one by one from the first (R219). -/
def prefixAt (st : Strand) (x : Opnd) (t k : Nat) : FRes :=
  match ((threadsOf st.active).filter (· ≤ t)).map (fun u => redLeaf (etFmt (mrET st.mr)) st.mr (st.pattern x u k)) with
  | [] => (0, 0)
  | a :: rest => rest.foldl (redAdd (etFmt (mrET st.mr)) st.mr) a

/-- The flags of `n` elements together. -/
def flagsOver (n : Nat) (r : Nat → FRes) : BitVec 4 := (List.range n).foldl (fun fl k => fl ||| (r k).2) 0

/-- A floating type's word and flags are those of the elements `r k`. -/
def floatWord (st : Strand) (w : Word) (fl : BitVec 4) (r : Nat → FRes) : Prop :=
  etInt (mrET st.mr) = false →
    fl = flagsOver (etCount (mrET st.mr)) r ∧ ∀ k < etCount (mrET st.mr), elemBits (mrET st.mr) w k = (r k).1 % 2 ^ st.width

/-- The floating sum of WRDS: a thread's elements, the threads of each strand by the tree of R218, then the strands by their number (R221). -/
def strandSums (s : State) (x : Use) (a : Opnd) (mr : Word) : FRes :=
  (halves (redAdd fmtF32 mr) (fun i =>
    match s.cur.strands.find? (fun k => decide (sidOf k = i)) with
    | some k => halves (redAdd fmtF32 mr)
        (fun t => if (s.reading x k).active.getLsbD t then some (threadFloat mr ((s.reading x k).src a t)) else none) 5 0
    | none => none) 4 0).getD (0, 0)

/-- The threads of the active sets of a sub-gang where predicate p is set, and all of them (R220). -/
def ballotCount (s : State) (p : Nat) : Nat :=
  (s.cur.strands.map (fun k => countMask ((s.strand s.cur.crew k).active &&& (s.strand s.cur.crew k).pred p))).sum
/-- All active threads of the sub-gang. -/
def activeCount (s : State) : Nat := (s.cur.strands.map (fun k => countMask (s.strand s.cur.crew k).active)).sum

end Sys2Proof.Machine

/-- R218: RDS, RDMIN and RDMAX place the reduction over the active threads in every active thread, 2 issue periods later; for integer types it is fit
of the exact sum, the least and the greatest element, for floating types the fixed tree. R219, R220, R221: SCAN, the votes and WRDS, of integers
exact, of floating types in the order of threads and of the tree. Where the rules leave a point open, the model's choice of log entries 15, 74
and 76 holds. -/
def Obligations.ReductionsScansAndVotes : Prop :=
  (∀ (s : State) (f : FR2),
     (s.clear { use2 f with mode := redBad } →
       ∃ (r : Strand → Word) (fl : Strand → BitVec 4),
         Produces s { use2 f with mode := redBad } (exec (.rds f) s) f.n f.d (fun st _ => r st) (afterReduction s f fl) ∧
         (∀ st k, etInt (mrET st.mr) = true → k < etCount (mrET st.mr) →
           fl st = 0 ∧ elemBits (mrET st.mr) (r st) k = st.fit (activeElems st f.a k).sum) ∧
         ∀ st, floatWord st (r st) (fl st) (treeAt redAdd st f.a)) ∧
     (s.clear { use2 f with mode := redBadEt } →
       (∃ (r : Strand → Word) (fl : Strand → BitVec 4),
         Produces s { use2 f with mode := redBadEt } (exec (.rdmin f) s) f.n f.d (fun st _ => r st) (afterReduction s f fl) ∧
         (∀ st k, etInt (mrET st.mr) = true → k < etCount (mrET st.mr) → st.active ≠ 0 →
           fl st = 0 ∧ ∃ m ∈ activeElems st f.a k, (∀ y ∈ activeElems st f.a k, m ≤ y) ∧
             elemBits (mrET st.mr) (r st) k = wrapN st.width m) ∧
         ∀ st, floatWord st (r st) (fl st) (treeAt (fun m => redMinmax m false) st f.a)) ∧
       (∃ (r : Strand → Word) (fl : Strand → BitVec 4),
         Produces s { use2 f with mode := redBadEt } (exec (.rdmax f) s) f.n f.d (fun st _ => r st) (afterReduction s f fl) ∧
         (∀ st k, etInt (mrET st.mr) = true → k < etCount (mrET st.mr) → st.active ≠ 0 →
           fl st = 0 ∧ ∃ m ∈ activeElems st f.a k, (∀ y ∈ activeElems st f.a k, y ≤ m) ∧
             elemBits (mrET st.mr) (r st) k = wrapN st.width m) ∧
         ∀ st, floatWord st (r st) (fl st) (treeAt (fun m => redMinmax m true) st f.a)))) ∧
  (∀ s : State,
     (∀ f : FR2, s.clear { use2 f with mode := redBad } →
       ∃ l, ProducesLanes s { use2 f with mode := redBad } (exec (.scan f) s) f.n f.d l (arrivesIn s f.n f.d 2) ∧
         (∀ st t k, etInt (mrET st.mr) = true → t < 32 → k < etCount (mrET st.mr) →
           (l st t).flags = 0 ∧
           elemBits (mrET st.mr) (l st t).val k = st.fit (((threadsOf st.active).filter (· ≤ t)).map (fun u => st.elem f.a u k)).sum) ∧
         ∀ st t, t < 32 → (l st t).sto = st.stoOf t ∧ floatWord st (l st t).val (l st t).flags (prefixAt st f.a t)) ∧
     (∀ (d : Fin 32) (p : Fin 8), s.clear { sout := [.s d] } →
       (let gives := fun (v : Nat) (k : Nat) =>
         (((s.reading { sout := [.s d] } k).setS d.val (BitVec.ofNat 64 v)).delay [(Opnd.s d).code] (s.period + 2)).seq
        Completes s (exec (.ballot (.s d) p) s) (gives (ballotCount s p.val)) ∧
        Completes s (exec (.any (.s d) p) s) (gives (if ballotCount s p.val = 0 then 0 else 1)) ∧
        Completes s (exec (.all (.s d) p) s) (gives (if ballotCount s p.val = activeCount s then 1 else 0)))) ∧
     (∀ (d : Fin 32) (a : Opnd),
       let x : Use := { src := [a], sout := [.s d], mode := fun _ => redBad (s.strand s.cur.crew (s.cur.strands.headD 0)).mr }
       s.clear x →
       ∃ (v : Word64) (fl : BitVec 4),
         Produces s x (exec (.wrds (.s d) a) s) true (.v 0) (fun _ _ => v.setWidth 32)
           (fun st r => ((r.setS d.val v).orFlags (if st.active = 0 then 0 else fl)).delay [(Opnd.s d).code, 72] (s.period + 2)) ∧
         (etInt (mrET (s.strand s.cur.crew (s.cur.strands.headD 0)).mr) = true →
           fl = 0 ∧ v = BitVec.ofInt 64 ((s.cur.strands.map (fun k =>
             ((threadsOf (s.reading x k).active).map (fun t =>
               threadSum (mrET (s.strand s.cur.crew (s.cur.strands.headD 0)).mr) ((s.reading x k).src a t))).sum)).sum)) ∧
         (etInt (mrET (s.strand s.cur.crew (s.cur.strands.headD 0)).mr) = false →
           let r := strandSums s x a (s.strand s.cur.crew (s.cur.strands.headD 0)).mr
           fl = r.2 ∧ v = BitVec.ofNat 64 r.1)))

/-! Predicates, modes and system instructions. -/

/-- R204: the predicate that ICMP writes, in the threads of the active set; nothing else changes. R188: PAND, POR, PXOR, PNOT, P2S and S2P. -/
def Obligations.ComparisonAndPredicateLogic : Prop :=
  (∀ (s : State) (f : FCmp),
     (s.clear { src := [f.a, f.b], mode := etBad etInt } →
       SetsPredicate s { src := [f.a, f.b], mode := etBad etInt } (exec (.icmpEq f) s) f.p.val (everyPair f (fun a b => a = b)) ∧
       SetsPredicate s { src := [f.a, f.b], mode := etBad etInt } (exec (.icmpNe f) s) f.p.val
         (fun st t => ¬everyPair f (fun a b => a = b) st t) ∧
       SetsPredicate s { src := [f.a, f.b], mode := etBad etInt } (exec (.icmpLt f) s) f.p.val (everyPair f (fun a b => a < b)) ∧
       SetsPredicate s { src := [f.a, f.b], mode := etBad etInt } (exec (.icmpLe f) s) f.p.val (everyPair f (fun a b => a ≤ b)) ∧
       SetsPredicate s { src := [f.a, f.b], mode := etBad etInt } (exec (.icmpGt f) s) f.p.val (everyPair f (fun a b => a > b)) ∧
       SetsPredicate s { src := [f.a, f.b], mode := etBad etInt } (exec (.icmpGe f) s) f.p.val (everyPair f (fun a b => a ≥ b))) ∧
     (s.clear { src := [f.a, f.b] } →
       SetsPredicate s { src := [f.a, f.b] } (exec (.icmpTst f) s) f.p.val (fun st t => st.src f.a t &&& st.src f.b t ≠ 0))) ∧
  (∀ s : State,
     (∀ d a b : Fin 8, s.clear {} →
       SetsPredicate s {} (exec (.pand d a b) s) d.val (fun st t => (st.pred a.val).getLsbD t = true ∧ (st.pred b.val).getLsbD t = true) ∧
       SetsPredicate s {} (exec (.por d a b) s) d.val (fun st t => (st.pred a.val).getLsbD t = true ∨ (st.pred b.val).getLsbD t = true) ∧
       SetsPredicate s {} (exec (.pxor d a b) s) d.val (fun st t => (st.pred a.val).getLsbD t ≠ (st.pred b.val).getLsbD t) ∧
       SetsPredicate s {} (exec (.pnot d a) s) d.val (fun st t => (st.pred a.val).getLsbD t = false)) ∧
     (∀ (d : Fin 32) (p : Fin 8), s.clear { sout := [.s d] } →
       Completes s (exec (.p2s (.s d) p) s) (fun k =>
         let st := s.reading { sout := [.s d] } k
         (st.setS d.val ((st.pred p.val &&& st.active).setWidth 64)).seq)) ∧
     (∀ (d : Fin 8) (a : Fin 32), s.clear { sin := [.s a] } →
       SetsPredicate s { sin := [.s a] } (exec (.s2p d (.s a)) s) d.val (fun st t => (st.sreg a.val).getLsbD t = true)))

/-- R177, R151: MODE writes its field of MR in every strand of the sub-gang and leaves the other bits, MODE.ALL the whole register when bits [31:22]
of the value are 0; R178, R179, R185, R186: NOP, SPR, SEED and CLOCK, the last when every result of an earlier instruction of the strand has been
delivered. Where the rules leave a point open, the model's choice of log entries 18, 73 and 91 holds. -/
def Obligations.SystemRegisters : Prop :=
  (∀ s : State,
      (s.clear {} →
        let sets := fun (o : Host.Outcome State Fault Refusal) (lo n v : Nat) =>
          ∃ m : Nat → Word, Completes s o (fun k => { (s.reading {} k) with mr := m k }.seq) ∧
            ∀ k b, b < 32 → (m k).getLsbD b = if lo ≤ b ∧ b < lo + n then v.testBit (b - lo) else (s.reading {} k).mr.getLsbD b
        (∀ (g : Bool) (p : Fin 8), sets (exec (.modeGp g p) s) 0 4 (p.val + if g then 8 else 0)) ∧
        (∀ e : Fin 16, sets (exec (.modeEt e) s) 4 4 e.val) ∧ (∀ m : Fin 8, sets (exec (.modeRm m) s) 8 3 m.val) ∧
        (∀ z a : Bool, sets (exec (.modeSatfz z a) s) 11 2 ((if a then 1 else 0) + if z then 2 else 0)) ∧
        (∀ c : Fin 8, sets (exec (.modeScope c) s) 13 3 c.val) ∧ (∀ t : Fin 16, sets (exec (.modeTe t) s) 16 4 t.val) ∧
        (∀ h : Fin 4, sets (exec (.modeDh h) s) 20 2 h.val)) ∧
      (∀ r : Fin 32, s.clear { sr := [r.val] } →
        (∀ k ∈ s.cur.strands, nbits ((s.reading { sr := [r.val] } k).sreg r.val).toNat 22 10 = 0) →
        Completes s (exec (.modeAll r) s) (fun k =>
          { (s.reading { sr := [r.val] } k) with mr := ((s.reading { sr := [r.val] } k).sreg r.val).setWidth 32 }.seq))) ∧
  (∀ s : State,
      (s.clear {} → Completes s (exec .nop s) (fun k => (s.reading {} k).seq)) ∧
      (∀ (d : Opnd) (n : Fin 128), isS d = false →
        let x : Use := { out := [d], bad := fun _ _ => decide (24 ≤ n.val) }
        s.clear x →
        Completes s (exec (.spr d n) s) (fun k =>
          let a : Site := ⟨s, s.cur.crew, k, s.crew s.cur.crew, s.reading x k⟩
          (a.st.writeReg d a.st.active (fun t => BitVec.ofNat 32 (sprValue a n.val t))).seq)) ∧
      (∀ (d : Fin 32) (n : Fin 128),
        let x : Use := { sout := [.s d], bad := fun _ _ => decide (24 ≤ n.val ∨ n.val = 0) }
        s.clear x →
        Completes s (exec (.spr (.s d) n) s) (fun k =>
          let a : Site := ⟨s, s.cur.crew, k, s.crew s.cur.crew, s.reading x k⟩
          (a.st.setS d.val (BitVec.ofNat 64 (sprValue a n.val 0))).seq)) ∧
      (∀ a : Opnd, s.clear { src := [a] } →
        Completes s (exec (.seed a) s) (fun k =>
          let st := s.reading { src := [a] } k
          { st with sto := writeThreads st.sto 0 0xFFFFFFFF (fun t => seedSto (st.src a t) t (sidOf k) (weaveOf k)) 32 }.seq)) ∧
      (∀ d : Fin 32, s.clear { sout := [.s d] } →
        (∀ k ∈ s.cur.strands, (∀ e ∈ (s.strand s.cur.crew k).late, e.2 ≤ s.period) ∧ (s.crew s.cur.crew).runningLocks (weaveOf k) = []) →
        Completes s (exec (.clock (.s d)) s) (fun k =>
          ((s.reading { sout := [.s d] } k).setS d.val (BitVec.ofNat 64 (s.time / 2))).seq)))

/-! Control flow. -/

namespace Sys2Proof.Machine

/-- What BR and BRN check: not the last word of a loop (R175), room on the stack (R30). -/
def brUse (onTrue : Bool) (p : Fin 8) : Use := { branch := true, stack := fun st => branchOverflow st onTrue p.val }

/-- R28, R35: the strand after a BR that is taken in the threads `t` of its active mask, at the target `tgt`. -/
def afterBranch (st : Strand) (h : Bool) (t : Word) (tgt : VAddr) : Strand :=
  let m := st.umask
  let f := m &&& ~~~t
  let recon : StackEntry := { pending := false, mask := m, pc := 0 }
  if t = 0 then { ({ st with stack := recon :: st.stack } : Strand).seq with favoured := h }
  else if f = 0 then { ({ st with stack := recon :: st.stack } : Strand).goto tgt with favoured := !h }
  else if h then
    { ({ st with stack := { pending := true, mask := t, pc := tgt } :: recon :: st.stack, amask := f } : Strand).seq with favoured := true }
  else
    { ({ st with stack := { pending := true, mask := f, pc := st.pc + 4 } :: recon :: st.stack, amask := t } : Strand).goto tgt with
      favoured := true }

/-- S[n] holds a target that a register transfer takes: aligned, below 2^57 (R169). -/
def goodTarget (st : Strand) (n : Nat) : Prop := (st.sreg n).toNat % 4 = 0 ∧ (st.sreg n).toNat < 2 ^ 57

/-- The traps of a register transfer at a target in S[n] that it cannot take: nothing else happens, the link is not written (R169). -/
def BadTargets (s : State) (x : Use) (o : Host.Outcome State Fault Refusal) (n : Nat) : Prop :=
  ((∀ k ∈ s.cur.strands, ((s.reading x k).sreg n).toNat % 4 ≠ 0) →
    Traps s o (fun k => valueTrap (s.reading x k) cMisalign ((s.reading x k).sreg n))) ∧
  ((∀ k ∈ s.cur.strands, ((s.reading x k).sreg n).toNat % 4 = 0 ∧ 2 ^ 57 ≤ ((s.reading x k).sreg n).toNat) →
    Traps s o (fun k => valueTrap (s.reading x k) cFetch ((s.reading x k).sreg n)))

/-- The address of an F-B, F-BU or F-J target: next + 4 × offset modulo 2^57 (R145). -/
def targetOf (st : Strand) (o : Int) : VAddr := BitVec.ofInt 57 ((st.pc.toNat : Int) + 4 + 4 * o)

end Sys2Proof.Machine

/-- R28, R166, R167: BR, BRN and BRU; P0 with K = 1 branches in every thread, and BRU decides once for the strand. R168, R169: JMP, CALL, JR, CALLR
and RET, with the link in S31; the register forms at an aligned target below 2^57, and the traps that they raise at another: MISALIGN, or FETCH
from 2^57 on. R139: a target that does not translate for a fetch raises FETCH when the strand comes to issue there, after the transfer and its
link. -/
def Obligations.BranchesJumpsAndCalls : Prop :=
  (∀ s : State,
     (∀ (h : Bool) (p : Fin 8) (o : BitVec 21),
       (s.clear (brUse true p) →
         Completes s (exec (.br h p o) s) (fun k =>
           let st := s.reading (brUse true p) k
           afterBranch st h (st.umask &&& st.pred p.val) (targetOf st o.toInt))) ∧
       (s.clear (brUse false p) →
         Completes s (exec (.brn h p o) s) (fun k =>
           let st := s.reading (brUse false p) k
           afterBranch st h (st.umask &&& ~~~(st.pred p.val)) (targetOf st o.toInt)))) ∧
     (∀ (r : Fin 32) (c : Fin 4) (o : BitVec 18), s.clear { sr := [r.val], branch := true } →
       Completes s (exec (.bru r c o) s) (fun k =>
         let st := s.reading { sr := [r.val], branch := true } k
         let v := (st.sreg r.val).toInt
         if (c = 0 ∧ v = 0) ∨ (c = 1 ∧ v ≠ 0) ∨ (c = 2 ∧ v < 0) ∨ (c = 3 ∧ 0 ≤ v) then
           { st.jump (targetOf st o.toInt) with favoured := true }
         else st.seq))) ∧
  (∀ s : State,
     (∀ o : BitVec 26,
       (s.clear { branch := true } →
         Completes s (exec (.jmp o) s) (fun k => (s.reading { branch := true } k).jump (targetOf (s.reading { branch := true } k) o.toInt))) ∧
       (s.clear { branch := true, sw := [31] } →
         Completes s (exec (.call o) s) (fun k =>
           let st := s.reading { branch := true, sw := [31] } k
           (st.setS 31 ((st.pc + 4).setWidth 64)).jump (targetOf st o.toInt)))) ∧
     (let x : Use := { sr := [31], branch := true }
      s.clear x →
       ((∀ k ∈ s.cur.strands, goodTarget (s.reading x k) 31) →
         Completes s (exec .ret s) (fun k => (s.reading x k).jump (((s.reading x k).sreg 31).setWidth 57))) ∧
       BadTargets s x (exec .ret s) 31) ∧
     (∀ r : Fin 32,
       (let x : Use := { sin := [.s r], branch := true }
        s.clear x →
         ((∀ k ∈ s.cur.strands, goodTarget (s.reading x k) r.val) →
           Completes s (exec (.jr (.s r)) s) (fun k => (s.reading x k).jump (((s.reading x k).sreg r.val).setWidth 57))) ∧
         BadTargets s x (exec (.jr (.s r)) s) r.val) ∧
       (let x : Use := { sin := [.s r], branch := true, sw := [31] }
        s.clear x →
         ((∀ k ∈ s.cur.strands, goodTarget (s.reading x k) r.val) →
           Completes s (exec (.callr (.s r)) s) (fun k =>
             let st := s.reading x k
             (st.setS 31 ((st.pc + 4).setWidth 64)).jump ((st.sreg r.val).setWidth 57))) ∧
         BadTargets s x (exec (.callr (.s r)) s) r.val))) ∧
  (∀ (s : State) (x : Issue × List Issue), s.bootstat.getLsbD 8 = false → s.agenda = [] → s.nextIssue = some x →
     let k := x.1.strands.headD 0
     let st := s.strand x.1.crew k
     let c := s.crew x.1.crew
     let l := s.crewLaunch c
     st.walkFaults = [] → (∃ e, s.xlate c.core (domOf c.core) l.part l.space st.pc.toNat permX = .fault e) →
     Traps (s.issuing x) (step s) (fun j => valueTrap (s.strand x.1.crew j) cFetch ((s.strand x.1.crew j).pc.setWidth 64)))

/-- R172, R176, R29, R170: LOOP, LBRK and JOIN, and the traps of a fifth loop, of LBRK outside a loop and of JOIN on an empty stack. -/
def Obligations.LoopsAndJoins : Prop :=
  ∀ s : State,
    (∀ (len : Fin 256) (c : Fin 32),
      let x : Use := { sin := [.s c], branch := true }
      let last := fun k => (s.reading x k).pc + 4 + BitVec.ofNat 57 (4 * len.val)
      s.clear x →
      ((∀ k ∈ s.cur.strands, (s.reading x k).loops.length < 4 ∧ ∀ l ∈ (s.reading x k).loops, (last k).toNat ≤ l.fin.toNat) →
        Completes s (exec (.loop len (.s c)) s) (fun k =>
          let st := s.reading x k
          let n := ((st.sreg c.val).setWidth 32 : Word).toNat
          if n = 0 then st.inline (last k) st.loops
          else { st.done with pc := st.pc + 4, loops := { start := st.pc + 4, fin := last k, remaining := n } :: st.loops })) ∧
      ((∀ k ∈ s.cur.strands, 4 ≤ (s.reading x k).loops.length) →
        Traps s (exec (.loop len (.s c)) s) (fun k => wordTrap (s.reading x k) cLoop (wordOf (.loop len (.s c)))))) ∧
    (s.clear {} →
      ((∀ k ∈ s.cur.strands, (s.reading {} k).loops ≠ []) →
        Completes s (exec .lbrk s) (fun k =>
          match (s.reading {} k).loops with
          | [] => s.reading {} k
          | l :: r => (s.reading {} k).inline l.fin r)) ∧
      ((∀ k ∈ s.cur.strands, (s.reading {} k).loops = []) →
        Traps s (exec .lbrk s) (fun k => wordTrap (s.reading {} k) cLoop (wordOf .lbrk)))) ∧
    (let x : Use := { branch := true, stack := fun st => st.stack.isEmpty }
     (s.clear x →
       Completes s (exec .join s) (fun k =>
        let st := s.reading x k
        match st.stack with
        | [] => st
        | e :: r =>
          if e.pending then ({ st with stack := r, amask := e.mask } : Strand).jump e.pc
          else ({ st with stack := r, amask := e.mask &&& st.live } : Strand).seq)) ∧
     ((∀ k ∈ s.cur.strands, s.checked x k = cDivstack) →
       Traps s (exec .join s) (fun k => wordTrap (s.strand s.cur.crew k) cDivstack (wordOf .join))))

/-- R181, R182, R183, R184: TFENCE, DRAIN, YIELD and WAIT where they complete, wait and trap; TFENCE waits while an MMA of the weave has not retired;
WAIT ends at once for a count of 0, and else when LTIME has reached the deadline. Where the rules leave a point open, the model's choice of log
entries 13 and 91 holds. -/
def Obligations.WaitsOfStrands : Prop :=
  (∀ s : State, s.clear {} →
      (let idle := ∀ k ∈ s.cur.strands, ∀ o ∈ s.ops, o.2.crew = s.cur.crew → o.2.weave = weaveOf k → ∀ f, o.2.kind ≠ .mma f
       (idle → (∀ k ∈ s.cur.strands, (s.strand s.cur.crew k).flags.toNat.land (mrTE (s.strand s.cur.crew k).mr) = 0) →
          Completes s (exec .tfence s) (fun k => (s.strand s.cur.crew k).latchKill.seq)) ∧
       (idle → (∀ k ∈ s.cur.strands, (s.strand s.cur.crew k).flags.toNat.land (mrTE (s.strand s.cur.crew k).mr) ≠ 0) →
          Traps s (exec .tfence s) (fun k => { valueTrap (s.strand s.cur.crew k) cArith 0 with
            pend := (s.strand s.cur.crew k).flags.toNat.land (mrTE (s.strand s.cur.crew k).mr) })) ∧
       ((∀ k ∈ s.cur.strands, ∃ o ∈ s.ops, o.2.crew = s.cur.crew ∧ o.2.weave = weaveOf k ∧ ∃ f, o.2.kind = .mma f) →
          Waits s (exec .tfence s) (fun _ => .matrix))) ∧
      ((∀ k ∈ s.cur.strands, (s.strand s.cur.crew k).unacked ≤ s.waitingFailures s.cur.crew k ∧ s.oldestRecord s.cur.crew k = none) →
        Completes s (exec .drain s) (fun k => (s.strand s.cur.crew k).latchKill.seq)) ∧
      ((∀ k ∈ s.cur.strands, s.waitingFailures s.cur.crew k < (s.strand s.cur.crew k).unacked) →
        Waits s (exec .drain s) (fun _ => .acks)) ∧
      (∀ r : Nat → Nat × SfRecord,
        (∀ k ∈ s.cur.strands, (s.strand s.cur.crew k).unacked ≤ s.waitingFailures s.cur.crew k ∧
          s.oldestRecord s.cur.crew k = some (r k)) →
        Traps s (exec .drain s) (fun k => valueTrap (s.strand s.cur.crew k) cStoreFault (r k).2.va)) ∧
      Completes s (exec .yield s) (fun k => { (s.strand s.cur.crew k).latchKill with wait := .yielded (s.period + 5) })) ∧
  ( (∀ (s : State) (a : Opnd), s.clear { src := [a] } →
      Completes s (exec (.wait a) s) (fun k =>
        let st := s.reading { src := [a] } k
        let n := waitTicks st a
        if n = 0 then st.latchKill.seq else { st.latchKill with wait := .deadline (s.ltime + n) })) ∧
    (∀ (st : Strand) (a : Opnd),
      (isS a = true → waitTicks st a = (st.src a 0).toNat) ∧
      (isS a = false → (∀ t < 32, st.live.getLsbD t = true → (st.src a t).toNat ≤ waitTicks st a) ∧
        (st.live ≠ 0 → ∃ t < 32, st.live.getLsbD t = true ∧ (st.src a t).toNat = waitTicks st a))))

/-- R36, R171: WCONV completes: in a weave that is one sub-gang the strands go on in line; where every other sub-gang has arrived with an equal gang
key every live strand of the weave goes on, its latches invalid. It waits while another sub-gang has not arrived, and raises ILLEGAL_CONVERGENCE
where the keys differ. R187, R31, R40: EXIT completes: it ends the threads of the active mask and the strand goes on with the others, or stops
when none is left; the crew's last EXIT, its writes acknowledged and its operations resolved, retires the crew, waits before that, and raises
STORE_FAULT for a record. Where the rules leave a point open, the model's choice of log entry 71 holds. -/
def Obligations.WconvAndExit : Prop :=
  (∀ s : State,
     let u := s.cur.crew
     let all := (s.crew u).weaveLive s.cur.weave
     let key := (s.strand u (s.cur.strands.headD 0)).key
     let arrived := ∀ k ∈ all, k ∉ s.cur.strands → (s.strand u k).wait = .wconv
     let alone := ∀ k ∈ all, k ∈ s.cur.strands
     (alone → s.clear {} →
       ∃ t, exec .wconv s = .next t ∧ (∀ k ∈ s.cur.strands, t.strand u k = (s.strand u k).seq) ∧ s.othersKept t ∧
         { t with crews := [] } = { s with crews := [] }) ∧
     (¬alone → arrived → (∀ k ∈ all, (s.strand u k).key = key) →
       ∃ t, exec .wconv s = .next t ∧ (∀ k ∈ all, t.strand u k = (s.strand u k).latchKill.seq) ∧
         (∀ v k, ¬(v = u ∧ k ∈ all) → t.strand v k = s.strand v k) ∧ (∀ v, { t.crew v with strand := [] } = { s.crew v with strand := [] }) ∧
         { t with crews := [] } = { s with crews := [] }) ∧
     (¬alone → arrived → (∃ k ∈ all, (s.strand u k).key ≠ key) →
       exec .wconv s = .next (s.takeTraps u (all.map (fun k => (k, wordTrap (s.strand u k) 23 (wordOf .wconv)))))) ∧
     (¬arrived → s.cur.strands.Nodup → Waits s (exec .wconv s) (fun _ => .wconv))) ∧
  (∀ s : State, s.clear {} →
     let u := s.cur.crew
     let c := s.crew u
     let ends := fun (k : Nat) => (s.strand u k).live &&& ~~~(s.strand u k).umask = 0
     let last := ∀ j ∈ c.keys, (s.strand u j).live = 0 ∨ (j ∈ s.cur.strands ∧ ends j)
     let drained := (∀ j ∈ c.keys, (s.strand u j).unacked ≤ s.waitingFailures u j) ∧ ∀ o ∈ s.ops, o.2.crew = u → o.2.kind = .none
     (¬last →
       ∃ t, exec .exit s = .next t ∧
         (∀ k ∈ s.cur.strands, let e := (s.strand u k).endThreads (s.strand u k).umask
           e.live = (s.strand u k).live &&& ~~~(s.strand u k).umask ∧ t.strand u k = if ends k then e.done else e.seq) ∧
         s.othersKept t ∧ { t with crews := [] } = { s with crews := [] }) ∧
     (last → drained → s.crewRecord u = none → s.cur.strands ≠ [] → (∀ k ∈ s.cur.strands, k ∈ c.keys) →
       ∃ t, exec .exit s = .next t ∧ (t.crew u).retiring = true ∧ (∀ k ∈ c.keys, (t.strand u k).live = 0) ∧
         (∀ k ∈ s.cur.strands, t.strand u k = ((s.strand u k).endThreads (s.strand u k).umask).done) ∧
         (∀ v k, ¬(v = u ∧ k ∈ s.cur.strands) → t.strand v k = s.strand v k) ∧ (∀ v, v ≠ u → t.crew v = s.crew v) ∧
         { t with crews := [] } = { s with crews := [] }) ∧
     (last → ¬drained → Waits s (exec .exit s) (fun _ => .exitWait)) ∧
     (last → drained → ∀ r k, s.crewRecord u = some r → s.cur.strands = [k] →
       Traps s (exec .exit s) (fun k => valueTrap (s.strand u k) 31 r.va)))

/-! Registers, latches, traps and privilege. -/

/-- R46, R48, R50: a vector result is written to D in the threads of the mask and in no other, goes to L0 of those threads, shifts L0 to L2 in every
thread, and leaves every other register; R53, R55: S0 and P0 read as constants and ignore writes, a write clears the F bit of its register only;
R55, R289: the active set. Where the rules leave a point open, the model's choice of log entries 67 and 92 holds. -/
def Obligations.RegisterRules : Prop :=
  (∀ (st : Strand) (n : Bool) (d : Opnd) (act : Word) (r : Nat → Word) (q : Nat),
      let x := st.result n d act r q
      (∀ (m t : Nat), t < 32 → x.vreg m t =
        if n = false ∧ act.getLsbD t = true ∧ (∃ h : m < 64, d = .v ⟨m, h⟩) then r t else st.vreg m t) ∧
      (∀ (m t : Nat), t < 32 → x.oreg m t =
        if n = false ∧ act.getLsbD t = true ∧ (∃ h : m < 8, d = .o ⟨m, h⟩) then r t else st.oreg m t) ∧
      (∀ t < 32, (act.getLsbD t = true → x.lreg 0 t = r t) ∧ x.lreg 1 t = st.lreg 0 t ∧ x.lreg 2 t = st.lreg 1 t ∧
        x.lreg 3 t = st.lreg 2 t) ∧
      x.lvalid.getLsbD 0 = true ∧ (∀ i < 3, x.lvalid.getLsbD (i + 1) = st.lvalid.getLsbD i) ∧
      x.s = st.s ∧ x.f = st.f ∧ x.p = st.p ∧ x.mr = st.mr ∧ x.flags = st.flags ∧ x.sto = st.sto ∧ x.pc = st.pc ∧ x.amask = st.amask ∧
      x.live = st.live ∧ x.stack = st.stack ∧ x.loops = st.loops ∧ x.tcause = st.tcause ∧ x.tepc = st.tepc ∧ x.tval = st.tval ∧
      x.tmask = st.tmask) ∧
  ( (∀ (st : Strand) (n m : Nat) (x : Word64), n < 32 → m < 32 →
      st.sreg 0 = 0 ∧ st.isFut 0 = false ∧
      (st.setS n x).sreg m = (if m = 0 then 0 else if m = n then x else st.sreg m) ∧
      (st.setS n x).isFut m = (if m = n then false else st.isFut m) ∧
      (st.setFut n x).sreg m = (if m = 0 then 0 else if m = n then x else st.sreg m) ∧
      (st.setFut n x).isFut m = (if m = n then decide (m ≠ 0) else st.isFut m)) ∧
    (∀ (st : Strand) (n m t : Nat) (act v : Word), n < 8 → m < 8 → t < 32 →
      (st.pred 0).getLsbD t = true ∧
      ((st.setPred n act v).pred m).getLsbD t =
        if m ≠ 0 ∧ m = n ∧ act.getLsbD t = true then v.getLsbD t else (st.pred m).getLsbD t)) ∧
  (∀ (st : Strand) (t : Nat), t < 32 →
      (st.replaying = false →
        st.active.getLsbD t = (((st.pred (mrGP st.mr)).getLsbD t != mrGS st.mr) && st.amask.getLsbD t)) ∧
      (st.replaying = true → st.active.getLsbD t = (st.tmask.getLsbD t && st.live.getLsbD t)) ∧
      (st.replaying = false → mrGP st.mr = 0 → mrGS st.mr = true → st.active = 0))

/-- R173: reaching the end of the innermost active loop takes its back-edge while iterations remain, and else leaves it and looks at the next loop
with the same end; R51, R174: a taken transfer makes the latches invalid and leaves the loops whose body the target is outside of, with every
loop inside them. -/
def Obligations.TransfersAndBackEdges : Prop :=
  (∀ (st : Strand) (a : VAddr) (l : LoopState) (r : List LoopState),
      (st.inline a []).pc = a ∧ (st.inline a []).loops = [] ∧
      (l.fin = a → 1 < l.remaining →
        (st.inline a (l :: r)).pc = l.start ∧ (st.inline a (l :: r)).loops = { l with remaining := l.remaining - 1 } :: r ∧
          (st.inline a (l :: r)).lvalid = 0) ∧
      (l.fin = a → l.remaining ≤ 1 → st.inline a (l :: r) = st.inline a r) ∧
      (l.fin ≠ a → (st.inline a (l :: r)).pc = a ∧ (st.inline a (l :: r)).loops = l :: r ∧ (st.inline a (l :: r)).lvalid = st.lvalid)) ∧
  (∀ (st : Strand) (a : VAddr),
      (st.jump a).pc = a ∧ (st.jump a).lvalid = 0 ∧ (st.jump a).wait = .ready ∧
      (st.jump a).s = st.s ∧ (st.jump a).v = st.v ∧ (st.jump a).stack = st.stack ∧ (st.jump a).amask = st.amask ∧
      (∃ out : List LoopState, st.loops = out ++ (st.jump a).loops ∧
        (∀ l ∈ (st.jump a).loops, inBody l st.pc = true → inBody l a = true) ∧
        (∀ l, out.getLast? = some l → inBody l st.pc = true ∧ inBody l a = false)) ∧
      ((∀ l ∈ st.loops, l.fin ≠ st.pc + 4) → st.seq.pc = st.pc + 4 ∧ st.seq.loops = st.loops ∧ st.seq.lvalid = st.lvalid))

/-- R282, R322: a trap at level 1, and one whose frame cannot be written, end the crew with code 0x7F and both causes; R289, R303: ERET with an
aligned TEPC, a frame that can be read and a target that can be fetched; a target at the end of an active loop takes its back-edge (R191), the
model's choice of log entry 70. Where the rules leave a point open, the model's choice of log entry 70 holds. -/
def Obligations.TrapReturnAndDoubleTrap : Prop :=
  (∀ (s : State) (u k : Nat) (t : Trap),
      ((s.strand u k).handler = true →
        s.takeTrap u k t = s.doubleTrap u (tcCause (s.strand u k).tcause) t.cause) ∧
      ((s.strand u k).handler = false → ∀ e, s.xlateSave u (frameAddr (s.crew u) k) permW = .fault e →
        s.takeTrap u k t = s.doubleTrap u t.cause e) ∧
      ∀ a b, ((s.doubleTrap u a b).crew u).retiring = true ∧ (∀ j ∈ (s.crew u).keys, ((s.doubleTrap u a b).strand u j).live = 0) ∧
        ((s.launchOf (s.crew u).launch).ending = 0 →
          ((s.doubleTrap u a b).launchOf (s.crew u).launch).ending = 10 ∧
          ((s.doubleTrap u a b).launchOf (s.crew u).launch).endCode = 0x7F ∧
          ((s.doubleTrap u a b).launchOf (s.crew u).launch).endDetail = b + 256 * a)) ∧
  (∀ (s : State) (k pa pc : Nat), s.cur.strands = [k] →
      let u := s.cur.crew
      let st := s.strand u k
      let l := s.crewLaunch (s.crew u)
      let fr := s.rdBytes pa 48
      s.clear { priv := true } →
      st.tepc.toNat % 4 = 0 → s.xlateSave u (frameAddr (s.crew u) k) permR = .ok pa →
      nbits (leNat ((fr.drop 32).take 4)) 22 10 = 0 →
      s.xlateNow (s.crew u).core l.part l.space st.tepc.toNat permX = .ok pc → s.poisoned pc = false →
      s.inView l.part (devOf pc) = true →
      let b := backEdge st.loops (st.tepc.setWidth 57)
      ∃ t, exec .eret s = .next t ∧
        (let n := t.strand u k
         n.handler = false ∧ n.lvalid = 0 ∧ n.pc = b.2.1 ∧ ((∀ l ∈ st.loops, l.fin ≠ st.tepc.setWidth 57) → n.pc = st.tepc.setWidth 57 ∧ n.loops = st.loops) ∧ n.replaying = tcReplay st.tcause ∧
         n.mr = BitVec.ofNat 32 (leNat ((fr.drop 32).take 4)) ∧
         n.amask = BitVec.ofNat 32 (leNat ((fr.drop 36).take 4)) &&& st.live ∧
         (∀ m, 28 ≤ m → m < 32 → n.sreg m = BitVec.ofNat 64 (leNat ((fr.drop (8 * (m - 28))).take 8))) ∧
         (∀ m, 28 ≤ m → m < 32 → n.isFut m =
           (nbit (leNat ((fr.drop 40).take 1)) (m - 28) && decide (n.sreg m ≠ 0) && decide (mget st.heldAtEntry m = n.sreg m))) ∧
         (∀ m < 28, n.sreg m = st.sreg m ∧ n.isFut m = st.isFut m) ∧
         n.tcause = st.tcause ∧ n.tepc = st.tepc ∧ n.tval = st.tval ∧ n.tmask = st.tmask ∧
         n.v = st.v ∧ n.o = st.o ∧ n.p = st.p ∧ n.flags = st.flags ∧ n.stack = st.stack ∧ n.loops = b.1) ∧
        t.mem = s.mem)

/-- R299, R301, R302, R34: taking a trap at level 0; the rest of its sub-gang loses its latches. R180: BRK and TRAP take their traps in every strand
of the sub-gang, with the code, and do nothing else. Where the rules leave a point open, the model's choice of log entry 14 holds. -/
def Obligations.TrapsTaken : Prop :=
  (∀ (s : State) (u k : Nat) (t : Trap) (pa : Nat),
     (s.strand u k).handler = false → s.xlateSave u (frameAddr (s.crew u) k) permW = .ok pa → s.rangeFree pa 48 = true →
     let st := s.strand u k
     let r := s.takeTrap u k t
     let n := r.strand u k
     n.handler = true ∧ n.pc = (s.core (s.crew u).core).tvec.setWidth 57 ∧ n.mr = 0 ∧ n.amask = st.live ∧ n.lvalid = 0 ∧
     n.tcause = tcauseWord t.cause t.code t.pend t.replay ∧ n.tepc = t.epc.setWidth 64 ∧ n.tval = t.tval ∧ n.tmask = t.mask ∧
     n.sreg 28 = 0 ∧ n.sreg 29 = 0 ∧ n.sreg 30 = 0 ∧ n.sreg 31 = BitVec.ofNat 64 (frameAddr (s.crew u) k) ∧
     (∀ m, 28 ≤ m → m < 32 → n.isFut m = false) ∧ (∀ m < 28, n.sreg m = st.sreg m ∧ n.isFut m = st.isFut m) ∧
     n.v = st.v ∧ n.o = st.o ∧ n.p = st.p ∧ n.flags = st.flags ∧ n.sto = st.sto ∧ n.stack = st.stack ∧ n.loops = st.loops ∧
     n.live = st.live ∧ n.gang = 16 + sidOf k ∧
     (∀ i < 48, mget r.mem (pa + i) = (frameBytes st).getD i 0) ∧ (∀ a, a < pa ∨ pa + 48 ≤ a → mget r.mem a = mget s.mem a) ∧
     (∀ j ∈ (s.crew u).gangOf k, j ≠ k → r.strand u j = (s.strand u j).latchKill) ∧
     (∀ v j, ¬(v = u ∧ (j = k ∨ j ∈ (s.crew u).gangOf k)) → r.strand v j = s.strand v j)) ∧
  (∀ (s : State) (c : Fin 128), s.clear {} →
     Traps s (exec (.brk c) s) (fun k =>
       { cause := 28, code := c.val, pend := 0, epc := (s.strand s.cur.crew k).pc, tval := 0, replay := false, mask := 0 }) ∧
     Traps s (exec (.trap c) s) (fun k =>
       { cause := 29, code := c.val, pend := 0, epc := (s.strand s.cur.crew k).pc + 4, tval := 0, replay := false, mask := 0 }))

/-- R281: every PSYS word at level 0 raises ILLEGAL_INSTRUCTION, whatever its fields, with no effect. -/
def Obligations.PrivilegedAtUserLevel : Prop :=
  ∀ (s : State) (d a b : Opnd) (n m : Fin 128), (∀ k ∈ s.cur.strands, (s.strand s.cur.crew k).handler = false) →
    let traps := fun (i : Instr) => Traps s (exec i s) (fun k => wordTrap (s.strand s.cur.crew k) 17 (wordOf i))
    traps .eret ∧ traps (.spw n a) ∧ traps (.sprp d n) ∧ traps (.term n m) ∧ traps (.tlbinv a b) ∧ traps (.sfrqpop d) ∧
    traps (.wspill d a b) ∧ traps (.wfill d a)

/-! Global memory. -/

namespace Sys2Proof.Machine

/-- The strand of the sub-gang as a place where an instruction acts, with its futures delivered. -/
def State.at (s : State) (x : Use) (k : Nat) : Site := ⟨s, s.cur.crew, k, s.crew s.cur.crew, s.reading x k⟩

/-- A request of strand k of the issuing crew carries the access of thread `th`: the line, the offset in it, the bytes, the data. It is on its
way to the home, or, where L1 answered, on its way back. -/
def State.carries (s t : State) (k th : Nat) (kind : ReqKind) (line off size : Nat) (data cmp : BitVec 128) : Prop :=
  ∃ id r, (mget t.net id = r ∨ mget t.back id = r) ∧ r.kind = kind ∧ r.crew = s.cur.crew ∧ r.strand = k ∧ r.dev = s.dev ∧ r.pa = line ∧
    ∃ a ∈ r.accs, a.thread = th ∧ a.off = off ∧ a.size = size ∧ a.data = data ∧ a.cmp = cmp

/-- Every register that a program can name is as in `b`. -/
def Strand.sameRegs (a b : Strand) : Prop :=
  a.v = b.v ∧ a.o = b.o ∧ a.s = b.s ∧ a.f = b.f ∧ a.p = b.p ∧ a.mr = b.mr ∧ a.flags = b.flags ∧ a.sto = b.sto ∧ a.amask = b.amask ∧
    a.live = b.live ∧ a.stack = b.stack ∧ a.tepc = b.tepc ∧ a.tval = b.tval ∧ a.tmask = b.tmask

/-- Nothing makes a global access wait or trap before it takes effect: aligned, translated or faulting in the TLBs, in order, with no write or put of
the strand still on its way to where it goes on another device. -/
def State.accessReady (s : State) (x : Use) (z need : Nat) (dom : Site → Nat) (addr : Strand → Nat → Word64) (releases : Bool) : Prop :=
  ∀ k ∈ s.cur.strands, let a := s.at x k
    misaligned a.st.active (zBytes z) (addr a.st) = none ∧ orderHold a releases = none ∧ needsWalk a (dom a) (addr a.st) = false ∧
    rowHold a (okAddrs a (dom a) need (addr a.st)) = none

/-- An access to global memory has left the strands: memory itself and every register are as before; each active thread whose address
translates to this device has a request that carries its access; and where every active thread's translates, the strand waits for the
replies, or goes on (R231, R232). -/
def Accesses (s : State) (x : Use) (o : Host.Outcome State Fault Refusal) (kind : ReqKind) (z need : Nat) (dom : Site → Nat)
    (addr : Strand → Nat → Word64) (data cmp : Strand → Nat → BitVec 128) (waits : Bool) : Prop :=
  ∃ t, o = .next t ∧ t.mem = s.mem ∧ (∀ v j, ¬(v = s.cur.crew ∧ j ∈ s.cur.strands) → t.strand v j = s.strand v j) ∧
    ∀ k ∈ s.cur.strands, let a := s.at x k; let n := t.strand s.cur.crew k
      n.sameRegs a.st ∧
      (∀ th < 32, a.st.active.getLsbD th = true → ∀ pa, strandXl a (dom a) need (addr a.st th) = .ok pa → devOf pa = s.dev →
        s.carries t k th kind (lineOf pa) (pa % 128) (zBytes z) (data a.st th) (cmp a.st th)) ∧
      ((∃ th < 32, a.st.active.getLsbD th = true) →
        (∀ th < 32, a.st.active.getLsbD th = true → ∃ pa, strandXl a (dom a) need (addr a.st th) = .ok pa ∧ devOf pa = s.dev) →
        if waits then n.wait = .reply ∧ n.pc = a.st.pc ∧ n.mem.live = true ∧ 0 < n.mem.left ∧ n.mem.faults = 0
        else (s.portWaits s.cur.crew k = false → n.wait = .ready) ∧ n.pc = a.st.seq.pc)

/-- ATOM with one operand at the thread's address (R233). -/
def atom32Done (s : State) (f : FMA) (o : Host.Outcome State Fault Refusal) (aop : Nat) : Prop :=
  Accesses s (atomUse f false) o (.atomic aop) 2 (permR + permW) (fun a => domOf a.c.core) (fun st => threadAddr st f.b.val f.i)
    (fun st t => (st.src f.x t).setWidth 128) (fun _ _ => 0) true
/-- ATOMW with one 64-bit operand. -/
def atom64Done (s : State) (f : FMA) (o : Host.Outcome State Fault Refusal) (aop : Nat) : Prop :=
  Accesses s (atomwUse f 2) o (.atomicW aop) 3 (permR + permW) (fun a => domOf a.c.core) (fun st => threadAddr st f.b.val f.i)
    (fun st t => (pairAt st f.x 0 t).setWidth 128) (fun _ _ => 0) true
/-- An atomic is ready: the same as a load, no tag of it is awaited (R117), and a FENCE.REL before it is satisfied (R126). -/
def State.atomReady (s : State) (f : FMA) (x : Use) (z : Nat) : Prop :=
  s.clear x ∧ (∀ k ∈ s.cur.strands, fenceHold (s.at x k) = none) ∧ (f.q = true → ∀ k ∈ s.cur.strands, (s.reading x k).tagWait = 0) ∧
    s.accessReady x z (permR + permW) (fun a => domOf a.c.core) (fun st => threadAddr st f.b.val f.i) (decide (2 ≤ f.o.val))

end Sys2Proof.Machine

/-- R232, R110, R227: LD sends the accesses of its threads to their homes, line by line, and waits for the replies; it reads no byte itself and
changes no memory. R232, R231, R110: ST and STP send their data to the homes and go on at once; memory changes only at the home. -/
def Obligations.LoadAndStoreIssues : Prop :=
  (∀ (s : State) (f : FM), s.clear (ldUse f) →
     s.accessReady (ldUse f) f.z.val permR (fun a => tlbDom a.st a.c) (fun st => threadAddr st f.b.val f.i) (decide (f.o.val = 3)) →
     Accesses s (ldUse f) (exec (.ld f) s) .load f.z.val permR (fun a => tlbDom a.st a.c) (fun st => threadAddr st f.b.val f.i)
       (fun _ _ => 0) (fun _ _ => 0) true) ∧
  (∀ (s : State) (f : FM),
     (s.clear (stUse f) →
       (∀ k ∈ s.cur.strands, let a := s.at (stUse f) k; let v := threadAddr a.st f.b.val f.i
         misaligned a.st.active (zBytes f.z.val) v = none ∧ needsWalk a (domOf a.c.core) v = false ∧
         storeHold a f.o.val (okAddrs a (domOf a.c.core) permW v) = none) →
       Accesses s (stUse f) (exec (.st f) s) .store f.z.val permW (fun a => domOf a.c.core) (fun st => threadAddr st f.b.val f.i)
         (fun st t => storeData st f.x f.z.val t) (fun _ _ => 0) false) ∧
     (s.clear (stpUse f) → s.sfrqCount (s.crew s.cur.crew).core < 64 →
       (∀ k ∈ s.cur.strands, let a := s.at (stpUse f) k; let v := threadAddr a.st f.b.val f.i
         misaligned a.st.active (zBytes f.z.val) v = none ∧ postHold a f.o.val permW v = none) →
       Accesses s (stpUse f) (exec (.stp f) s) .store f.z.val permW (fun a => domOf a.c.core) (fun st => threadAddr st f.b.val f.i)
         (fun st t => storeData st f.x f.z.val t) (fun _ _ => 0) false))

/-- R233, R235, R147: every ATOM and ATOMW function goes to the home with its operands, the comparand first for CAS, and waits for the old value. -/
def Obligations.AtomicsIssue : Prop :=
  ∀ (s : State) (f : FMA),
    (s.atomReady f (atomUse f false) 2 →
      atom32Done s f (exec (.atomAdd f) s) 0 ∧ atom32Done s f (exec (.atomMin f) s) 1 ∧ atom32Done s f (exec (.atomMax f) s) 2 ∧
      atom32Done s f (exec (.atomMinu f) s) 3 ∧ atom32Done s f (exec (.atomMaxu f) s) 4 ∧ atom32Done s f (exec (.atomAnd f) s) 5 ∧
      atom32Done s f (exec (.atomOr f) s) 6 ∧ atom32Done s f (exec (.atomXor f) s) 7 ∧ atom32Done s f (exec (.atomXchg f) s) 8 ∧
      atom32Done s f (exec (.atomIncb f) s) 10 ∧ atom32Done s f (exec (.atomFadd f) s) 11 ∧
      atom32Done s f (exec (.atomFaddbf f) s) 12 ∧ atom32Done s f (exec (.atomFmax f) s) 13 ∧
      atom32Done s f (exec (.atomDecz f) s) 14) ∧
    (s.atomReady f (atomUse f true) 2 →
      Accesses s (atomUse f true) (exec (.atomCas f) s) (.atomic 9) 2 (permR + permW) (fun a => domOf a.c.core)
        (fun st => threadAddr st f.b.val f.i) (fun st t => (st.srcAt f.x 0 t).setWidth 128) (fun st t => (st.srcAt f.x 1 t).setWidth 128) true) ∧
    (s.atomReady f (atomwUse f 2) 3 →
      atom64Done s f (exec (.atomwAdd f) s) 0 ∧ atom64Done s f (exec (.atomwMin f) s) 1 ∧ atom64Done s f (exec (.atomwMax f) s) 2 ∧
      atom64Done s f (exec (.atomwXchg f) s) 3 ∧ atom64Done s f (exec (.atomwMaxp f) s) 6 ∧ atom64Done s f (exec (.atomwIncb f) s) 7) ∧
    (s.atomReady f (atomwUse f 4) 3 →
      Accesses s (atomwUse f 4) (exec (.atomwCas f) s) (.atomicW 4) 3 (permR + permW) (fun a => domOf a.c.core)
        (fun st => threadAddr st f.b.val f.i) (fun st t => (pairAt st f.x 0 t).setWidth 128) (fun st t => (pairAt st f.x 2 t).setWidth 128) true) ∧
    (s.atomReady f (atomwUse f 8) 4 →
      ∃ t, exec (.atomwCas128 f) s = .next t ∧ t.mem = s.mem ∧ ∀ k ∈ s.cur.strands, let a := s.at (atomwUse f 8) k
        (t.strand s.cur.crew k).sameRegs a.st ∧
        ∀ th < 32, a.st.active.getLsbD th = true → ∀ pa, strandXl a (domOf a.c.core) (permR + permW) (threadAddr a.st f.b.val f.i th) = .ok pa →
          devOf pa = s.dev →
          s.carries t k th (.atomicW 5) (lineOf pa) (pa % 128) 16 (quadAt a.st f.x 0 th) (quadAt a.st f.x 4 th) ∧
          (t.strand s.cur.crew k).wait = .reply)

namespace Sys2Proof.Machine

/-- A property of each of the ATOM and ATOMW functions, with what it names and the bytes of its access (R233). -/
def everyAtomic (f : FMA) (p : Instr → Use → Nat → Prop) : Prop :=
  let one := fun (i : Instr) => p i (atomUse f false) 4
  let two := fun (i : Instr) => p i (atomwUse f 2) 8
  one (.atomAdd f) ∧ one (.atomMin f) ∧ one (.atomMax f) ∧ one (.atomMinu f) ∧ one (.atomMaxu f) ∧ one (.atomAnd f) ∧ one (.atomOr f) ∧
  one (.atomXor f) ∧ one (.atomXchg f) ∧ one (.atomIncb f) ∧ one (.atomFadd f) ∧ one (.atomFaddbf f) ∧ one (.atomFmax f) ∧
  one (.atomDecz f) ∧ p (.atomCas f) (atomUse f true) 4 ∧
  two (.atomwAdd f) ∧ two (.atomwMin f) ∧ two (.atomwMax f) ∧ two (.atomwXchg f) ∧ two (.atomwMaxp f) ∧ two (.atomwIncb f) ∧
  p (.atomwCas f) (atomwUse f 4) 8 ∧ p (.atomwCas128 f) (atomwUse f 8) 16

/-- A property of each of the ATOMA functions, with what it names (R238). -/
def everyBufferAtomic (f : FMo) (p : Instr → Use → Prop) : Prop :=
  let one := fun (i : Instr) => p i (atomaUse f false)
  one (.atomaAdd f) ∧ one (.atomaMin f) ∧ one (.atomaMax f) ∧ one (.atomaAnd f) ∧ one (.atomaOr f) ∧ one (.atomaXor f) ∧
  one (.atomaXchg f) ∧ one (.atomaIncb f) ∧ one (.atomaFadd f) ∧ one (.atomaMaxp f) ∧ p (.atomaCas f) (atomaUse f true)

/-- An instruction whose address in thread `th k` of strand k is the first that is not a multiple of `n` bytes traps with MISALIGN there; every active
thread will replay (R228, R231, R299). -/
def MisalignTraps (s : State) (th : Nat → Nat) (i : Instr) (x : Use) (n : Nat) (v : Strand → Nat → Word64) : Prop :=
  s.clear x →
  (∀ k ∈ s.cur.strands, let st := s.reading x k
    th k < 32 ∧ st.active.getLsbD (th k) = true ∧ (v st (th k)).toNat % n ≠ 0 ∧
    ∀ j < th k, st.active.getLsbD j = true → (v st j).toNat % n = 0) →
  Traps s (exec i s) (fun k =>
    { cause := 26, code := 0, pend := 0, epc := (s.reading x k).pc, tval := v (s.reading x k) (th k), replay := true
      mask := (s.reading x k).active })

end Sys2Proof.Machine

/-- R228, R231, R299: a misaligned address in an active thread makes LD, ST, every atomic, LDA, STA, every ATOMA and, in a core with room for a
record, STP, STX, PUTA and MST trap with MISALIGN and the lowest such thread's address, before any effect; every active thread will replay. -/
def Obligations.MisalignedAccessTraps : Prop :=
  ∀ (s : State) (th : Nat → Nat),
    (∀ f : FM, let v := fun st => threadAddr st f.b.val f.i
      MisalignTraps s th (.ld f) (ldUse f) (zBytes f.z.val) v ∧ MisalignTraps s th (.st f) (stUse f) (zBytes f.z.val) v ∧
      (s.sfrqCount (s.crew s.cur.crew).core < 64 → MisalignTraps s th (.stp f) (stpUse f) (zBytes f.z.val) v)) ∧
    (∀ f : FMA, everyAtomic f (fun i x n => MisalignTraps s th i x n (fun st => threadAddr st f.b.val f.i))) ∧
    (∀ f : FMz, let v := fun st => threadAddr st f.b.val f.i
      MisalignTraps s th (.lda f) (ldaUse f) (zBytes f.z.val) v ∧ MisalignTraps s th (.sta f) (staUse f) (zBytes f.z.val) v ∧
      (s.sfrqCount (s.crew s.cur.crew).core < 64 →
        MisalignTraps s th (.stx f) (fmzUse f) (zBytes f.z.val) (fun st t => BitVec.ofInt 64 (stxOffset st f.b.val f.i t)) ∧
        (∀ once : Bool, MisalignTraps s th (.puta f once) (fmzUse f) (zBytes f.z.val) (fun st t => BitVec.ofNat 64 (putOffset st f.i t))) ∧
        MisalignTraps s th (.mst f) (fmzUse f) (zBytes f.z.val) v)) ∧
    (∀ f : FMo, everyBufferAtomic f (fun i x => MisalignTraps s th i x 4 (fun st => threadAddr st f.b.val f.i)))

namespace Sys2Proof.Machine

/-- Every strand of the sub-gang has an unacknowledged write before a FENCE.REL of device scope or wider, and its own access is aligned. -/
def State.fencedAccess (s : State) (x : Use) (n : Nat) (v : Strand → Nat → Word64) : Prop :=
  s.clear x ∧ ∀ k ∈ s.cur.strands, 2 ≤ (s.reading x k).fence ∧ (s.reading x k).unacked ≠ 0 ∧ misaligned (s.reading x k).active n (v (s.reading x k)) = none

/-- What such a strand waits for: the order code of the access itself may ask for less, at crew scope or below. -/
def fencedWait (s : State) (x : Use) (o k : Nat) : Wait :=
  let st := s.reading x k
  if 2 ≤ o ∧ st.scHold = false ∧ mrSCOPE st.mr < 3 ∧ ordered s s.cur.crew k (mrSCOPE st.mr) = false then .remoteAcks else .acks

/-- No address of the sub-gang needs a walk. -/
def State.walked (s : State) (x : Use) (v : Strand → Nat → Word64) : Prop :=
  ∀ k ∈ s.cur.strands, needsWalk (s.at x k) (domOf (s.crew s.cur.crew).core) (v (s.reading x k)) = false

/-- The writes of the crew's other strands that the releases of strand k cover have performed. -/
def State.crewClear (s : State) (x : Use) (k : Nat) : Prop := s.crewWrites s.cur.crew k (crewMark (s.at x k)) = false

/-- A release at device scope has nothing to wait for (R123, R125, R133). -/
def State.released (s : State) (x : Use) (k : Nat) : Prop := (s.strand s.cur.crew k).unacked = 0 ∧ s.crewClear x k

end Sys2Proof.Machine

/-- R126, R245, R123: FENCE.ACQ and FENCE.REL complete, the others once the writes that they wait for are acknowledged or, for those of the crew's
other strands, performed, and wait before; after a FENCE.REL every store, posted or ordered, every put and every atomic waits instead, and after
one of crew scope or less a store to the buffer; R244: the hints change no register and no memory. Where the rules leave a point open, the
model's choice of log entry 24 holds. -/
def Obligations.FencesAndHints : Prop :=
  (∀ (s : State) (c : Fin 8), s.clear {} →
      let done := fun (i : Instr) => Completes s (exec i s) (fun k => (s.strand s.cur.crew k).latchKill.seq)
      let waits := fun (i : Instr) w => Waits s (exec i s) w
      let acked := ∀ k ∈ s.cur.strands, ordered s s.cur.crew k c.val = true
      done (.fenceAcq c) ∧
      Completes s (exec (.fenceRel c) s) (fun k => let st := s.strand s.cur.crew k
        ({ st.latchKill with fence :=
            if 3 ≤ c.val then 2 * s.nextId + 2 + st.fence % 2 else if 2 ≤ st.fence then st.fence / 2 * 2 + 1 else 1 } : Strand).seq) ∧
      (acked → (3 ≤ c.val → ∀ k ∈ s.cur.strands, s.crewClear {} k) → done (.fenceAr c) ∧ done (.fenceSc c)) ∧
      (acked → 3 ≤ c.val → (∀ k ∈ s.cur.strands, ¬s.crewClear {} k) →
        waits (.fenceAr c) (fun k => .crewAcks (crewMark (s.at {} k))) ∧ waits (.fenceSc c) (fun k => .crewAcks (crewMark (s.at {} k)))) ∧
      (c.val < 3 → (∀ k ∈ s.cur.strands, ordered s s.cur.crew k c.val = false) →
        waits (.fenceAr c) (fun _ => .remoteAcks) ∧ waits (.fenceSc c) (fun _ => .remoteAcks)) ∧
      ((∀ k ∈ s.cur.strands, (s.strand s.cur.crew k).unacked = 0) → done (.fenceAcks c)) ∧
      ((∀ k ∈ s.cur.strands, (s.strand s.cur.crew k).unacked ≠ 0) → waits (.fenceAcks c) (fun _ => .acks)) ∧
      (3 ≤ c.val → (∀ k ∈ s.cur.strands, (s.strand s.cur.crew k).unacked ≠ 0) →
        waits (.fenceAr c) (fun _ => .acks) ∧ waits (.fenceSc c) (fun _ => .acks))) ∧
  (∀ s : State,
      let waits := fun (i : Instr) (x : Use) (o : Nat) => Waits s (exec i s) (fencedWait s x o)
      (∀ f : FM, let v := fun st => threadAddr st f.b.val f.i
        (s.fencedAccess (stUse f) (zBytes f.z.val) v → s.walked (stUse f) v → waits (.st f) (stUse f) f.o.val) ∧
        (s.fencedAccess (stpUse f) (zBytes f.z.val) v → s.walked (stpUse f) v → s.sfrqCount (s.crew s.cur.crew).core < 64 →
          waits (.stp f) (stpUse f) f.o.val)) ∧
      (∀ f : FMA, let v := fun st => threadAddr st f.b.val f.i
        everyAtomic f (fun i x n => s.fencedAccess x n v → s.walked x v → waits i x f.o.val)) ∧
      (∀ f : FMz, s.sfrqCount (s.crew s.cur.crew).core < 64 →
        (s.fencedAccess (fmzUse f) (zBytes f.z.val) (fun st t => BitVec.ofInt 64 (stxOffset st f.b.val f.i t)) →
          waits (.stx f) (fmzUse f) f.o.val) ∧
        (∀ once : Bool, s.fencedAccess (fmzUse f) (zBytes f.z.val) (fun st t => BitVec.ofNat 64 (putOffset st f.i t)) →
          s.walked (fmzUse f) (fun st _ => st.sreg f.b.val) → waits (.puta f once) (fmzUse f) f.o.val) ∧
        (s.fencedAccess (fmzUse f) (zBytes f.z.val) (fun st => threadAddr st f.b.val f.i) →
          (∀ k ∈ s.cur.strands, ∀ t < 32, mstXl (s.at (fmzUse f) k) (threadAddr (s.reading (fmzUse f) k) f.b.val f.i t) ≠ .miss) →
          waits (.mst f) (fmzUse f) f.o.val)) ∧
      (∀ f : FMz, s.clear (staUse f) → f.o.val < 2 →
        (∀ k ∈ s.cur.strands, let st := s.reading (staUse f) k
          st.fence % 2 = 1 ∧ st.scHold = false ∧ ordered s s.cur.crew k 2 = false ∧
          misaligned st.active (zBytes f.z.val) (threadAddr st f.b.val f.i) = none) →
        Waits s (exec (.sta f) s) (fun _ => .remoteAcks))) ∧
  (∀ (s : State) (b : Fin 32) (i : Opnd),
      (s.clear { src := [i], sr := [b.val] } →
        Completes s (exec (.pref b i) s) (fun k => (s.reading { src := [i], sr := [b.val] } k).seq) ∧
        (s.walked { src := [i], sr := [b.val] } (fun st => threadAddr st b.val i) →
        ∃ t, exec (.ldrop b i) s = .next t ∧ t.mem = s.mem ∧
          (∀ k ∈ s.cur.strands, let a := s.at { src := [i], sr := [b.val] } k
            t.strand s.cur.crew k = a.st.seq ∧
            ∀ th < 32, a.st.active.getLsbD th = true → ∀ pa, postXl a 0 (threadAddr a.st b.val i th) = .ok pa →
              ∀ e ∈ t.l1, ¬(e.core = a.c.core ∧ e.line = lineOf pa)) ∧
          (∀ e ∈ t.l1, e ∈ s.l1))) ∧
      (∀ x : Opnd, s.clear { src := [x, i], sr := [b.val] } →
        (∀ k ∈ s.cur.strands, let a := s.at { src := [x, i], sr := [b.val] } k
          ∀ th < 32, a.st.active.getLsbD th = true → hintWalk a (threadAddr a.st b.val i th) ≠ .busy) →
        ∃ t, exec (.phint x b i) s = .next t ∧ t.mem = s.mem ∧
          ∀ k ∈ s.cur.strands, let a := s.at { src := [x, i], sr := [b.val] } k
            t.strand s.cur.crew k = a.st.seq ∧
            ∀ th < 32, a.st.active.getLsbD th = true → ∀ leaf, hintLeaf a (threadAddr a.st b.val i th) = some leaf → devOf leaf = s.dev →
              s.carries t k th (.atomic 8) (lineOf leaf) ((leaf + 1) % 128) 1 ((a.st.src x th).setWidth 128) 0))

/-! The activation buffer and posted stores. -/

namespace Sys2Proof.Machine

/-- An access to the buffer is aligned, in order, free of interlocks, and inside the view in every active thread (R97, R228, R266). -/
def State.bufferReady (s : State) (x : Use) (n : Nat) (addr : Strand → Nat → Word64) (releases writes : Bool) : Prop :=
  s.clear x ∧ ∀ k ∈ s.cur.strands, let a := s.at x k
    misaligned a.st.active n (addr a.st) = none ∧ abHold a releases writes n (addr a.st) = none ∧
    ∀ t < 32, a.st.active.getLsbD t = true → (addr a.st t).toNat + n ≤ a.c.ab + a.c.xwin

/-- The AB cycles of a strand's access (R98). -/
def bufferCost (a : Site) (n : Nat) (addr : Nat → Word64) : Nat :=
  abCost ((threadsOf a.st.active).flatMap (fun t => abWords (addr t).toNat n))

/-- The cycle from which the buffer serves the sub-gang's access: after what it has been given before (R99). -/
def State.bufferFrom (s : State) : Nat := max s.clock (s.core (s.crew s.cur.crew).core).abFree

/-- The AB cycles of the strands `ks` of the sub-gang together (R99). -/
def State.bufferSum (s : State) (x : Use) (n : Nat) (addr : Strand → Nat → Word64) (ks : List Nat) : Nat :=
  (ks.map (fun k => bufferCost (s.at x k) n (addr (s.reading x k)))).sum

/-- Strand k after a read of the buffer: with a bank conflict the latches fall, and a result that is served beyond this issue period, after those of the
strands before it in the sub-gang, is late (R99, R237). -/
def State.afterBufferRead (s : State) (x : Use) (z n : Nat) (addr : Strand → Nat → Word64) (codes : List Nat) (k : Nat) (st : Strand) : Strand :=
  let cost := s.bufferSum x n addr [k]
  let due := s.bufferFrom + s.bufferSum x n addr (s.cur.strands.takeWhile (fun j => decide (j ≠ k))) + cost
  let st1 := if cost ≠ 0 ∧ s.clock + 8 < due then st.delay codes (s.period + 1 + (due - s.clock - 1) / 8) else st
  (if (if z = 4 then 2 else 1) < cost then st1.latchKill else st1).seq

/-- An instruction on the buffer completes: strand k is `f k`, the crew otherwise `c`, the buffer of the core has served the sub-gang's cycles,
and nothing else has changed. -/
def BufferDone (s : State) (x : Use) (n : Nat) (addr : Strand → Nat → Word64) (o : Host.Outcome State Fault Refusal) (c : Crew)
    (f : Nat → Strand) : Prop :=
  let core := (s.crew s.cur.crew).core
  let sum := s.bufferSum x n addr s.cur.strands
  ∃ t, o = .next t ∧ (∀ k ∈ s.cur.strands, t.strand s.cur.crew k = f k) ∧
    (∀ v k, ¬(v = s.cur.crew ∧ k ∈ s.cur.strands) → t.strand v k = s.strand v k) ∧
    { t.crew s.cur.crew with strand := [] } = { c with strand := [] } ∧ (∀ v, v ≠ s.cur.crew → t.crew v = s.crew v) ∧
    (∀ m, m ≠ core → t.core m = s.core m) ∧
    t.core core = { s.core core with abFree := if sum = 0 then (s.core core).abFree else s.bufferFrom + sum } ∧
    { t with crews := [], cores := [] } = { s with crews := [], cores := [] }

/-- ATOMA in a sub-gang of one strand: the buffer after its threads have acted in ascending order, and their old values in X (R238). -/
def atomaDone (s : State) (f : FMo) (o : Host.Outcome State Fault Refusal) (aop : Nat) : Prop :=
  let x := atomaUse f (decide (aop = 7))
  let v := fun (st : Strand) => threadAddr st f.b.val f.i
  ∀ k, s.cur.strands = [k] → s.bufferReady x 4 v (decide (2 ≤ f.o.val)) true →
    let a := s.at x k
    let r := (threadsOf a.st.active).foldl (atomaStep a f aop) (a.c, [])
    BufferDone s x 4 v o r.1 (fun k =>
      s.afterBufferRead x 2 4 v [f.x.code] k ({ a.st with fence := fenceLeft a.st.fence }.writeReg f.x a.st.active (mget r.2)))

end Sys2Proof.Machine

/-- R238: the ATOMA functions in a sub-gang of one strand. R236, R227, R97: LDA reads the crew's view and STA writes it, thread by thread in
ascending order; R39, R97, R101: a byte that has been written reads as written, every other as before, and a swap shows the other bank. Where the
rules leave a point open, the model's choice of log entries 3, 25 and 80 holds. -/
def Obligations.BufferAccessesAndAtomics : Prop :=
  (∀ (s : State) (f : FMo),
     atomaDone s f (exec (.atomaAdd f) s) 0 ∧ atomaDone s f (exec (.atomaMin f) s) 1 ∧ atomaDone s f (exec (.atomaMax f) s) 2 ∧
     atomaDone s f (exec (.atomaAnd f) s) 3 ∧ atomaDone s f (exec (.atomaOr f) s) 4 ∧ atomaDone s f (exec (.atomaXor f) s) 5 ∧
     atomaDone s f (exec (.atomaXchg f) s) 6 ∧ atomaDone s f (exec (.atomaCas f) s) 7 ∧ atomaDone s f (exec (.atomaIncb f) s) 8 ∧
     atomaDone s f (exec (.atomaFadd f) s) 9 ∧ atomaDone s f (exec (.atomaMaxp f) s) 10) ∧
  ((∀ (s : State) (f : FMz),
       let n := zBytes f.z.val
       let v := fun (st : Strand) => threadAddr st f.b.val f.i
       (s.bufferReady (ldaUse f) n v (decide (f.o.val = 3)) false →
         BufferDone s (ldaUse f) n v (exec (.lda f) s) (s.crew s.cur.crew) (fun k =>
           let a := s.at (ldaUse f) k
           s.afterBufferRead (ldaUse f) f.z.val n v (destCodes f.x f.z.val) k
             (a.st.writeLoaded f.x f.z.val a.st.active (fun t => BitVec.ofNat 128 (leNat (a.c.abRead (v a.st t).toNat n)))))) ∧
       (s.bufferReady (staUse f) n v (decide (2 ≤ f.o.val)) true →
         BufferDone s (staUse f) n v (exec (.sta f) s)
           (s.cur.strands.foldl (fun (c : Crew) k =>
             let st := s.reading (staUse f) k
             (threadsOf st.active).foldl (fun (c : Crew) th =>
               c.abWrite (v st th).toNat (leBytes n (storeData st f.x f.z.val th).toNat)) c) (s.crew s.cur.crew))
           (fun k => ({ s.reading (staUse f) k with fence := fenceLeft (s.reading (staUse f) k).fence } : Strand).seq))) ∧
   (∀ (c : Crew) (o : Nat) (l : List Byte), o + l.length ≤ c.view →
       (∀ i (h : i < l.length), (c.abWrite o l).abByte (c.abIndex (o + i)) = l[i]) ∧
       (∀ p, p < c.view → (p < o ∨ o + l.length ≤ p) → (c.abWrite o l).abByte (c.abIndex p) = c.abByte (c.abIndex p)) ∧
       (∀ p, c.ab ≤ p → p < c.view → (c.abWrite o l).abByte (c.shadowIndex (p - c.ab)) = c.abByte (c.shadowIndex (p - c.ab))) ∧
       (∀ p, c.ab ≤ p → p < c.view → ({ c with swapped := !c.swapped } : Crew).abIndex p = c.shadowIndex (p - c.ab))))

/-- R239, R241, R243, R354: STX, PUTA and MST leave the core as posted requests: the strand goes on, no register and no byte of memory changes; each
active thread's access is in the packet to its target. Where the rules leave a point open, the model's choice of log entries 19 and 20 holds. -/
def Obligations.PostedStores : Prop :=
  ∀ (s : State) (f : FMz), s.clear (fmzUse f) → s.sfrqCount (s.crew s.cur.crew).core < 64 →
    let goesOn := fun (t : State) => t.mem = s.mem ∧ (∀ v j, ¬(v = s.cur.crew ∧ j ∈ s.cur.strands) → t.strand v j = s.strand v j) ∧
      ∀ k ∈ s.cur.strands, (t.strand s.cur.crew k).sameRegs (s.reading (fmzUse f) k) ∧
        (s.portWaits s.cur.crew k = false → (t.strand s.cur.crew k).wait = .ready) ∧
        (t.strand s.cur.crew k).pc = (s.reading (fmzUse f) k).seq.pc
    ((∀ k ∈ s.cur.strands, let a := s.at (fmzUse f) k
        misaligned a.st.active (zBytes f.z.val) (fun t => BitVec.ofInt 64 (stxOffset a.st f.b.val f.i t)) = none ∧
        putHold a f.o.val = none) →
      ∃ t, exec (.stx f) s = .next t ∧ goesOn t ∧
        ∀ k ∈ s.cur.strands, let a := s.at (fmzUse f) k
          ∀ th < 32, a.st.active.getLsbD th = true →
            stxCause (s.crewLaunch a.c) (nbits (a.st.sreg f.b.val).toNat 48 16) (stxOffset a.st f.b.val f.i th) (zBytes f.z.val) = 0 →
            ∃ id r, mget t.net id = r ∧ r.kind = .stx (nbits (a.st.sreg f.b.val).toNat 48 16) ∧ r.crew = s.cur.crew ∧ r.strand = k ∧
              r.x = a.c.launch ∧ ∃ e ∈ r.accs, e.thread = th ∧ (e.off : Int) = stxOffset a.st f.b.val f.i th ∧ e.size = zBytes f.z.val ∧
                e.data = storeData a.st f.x f.z.val th) ∧
    (∀ once : Bool,
      (∀ k ∈ s.cur.strands, let a := s.at (fmzUse f) k
        misaligned a.st.active (zBytes f.z.val) (fun t => BitVec.ofNat 64 (putOffset a.st f.i t)) = none ∧ putHold a f.o.val = none ∧
        ∃ pa, postXl a permR (a.st.sreg f.b.val) = .ok pa ∧ devOf pa = s.dev) →
      ∃ t, exec (.puta f once) s = .next t ∧ goesOn t ∧
        ∀ k ∈ s.cur.strands, let a := s.at (fmzUse f) k
          ∀ pa, postXl a permR (a.st.sreg f.b.val) = .ok pa → ∀ th < 32, a.st.active.getLsbD th = true →
            ∃ id r, mget t.net id = r ∧ r.kind = .put once ∧ r.crew = s.cur.crew ∧ r.strand = k ∧ r.pa = pa ∧
              ∃ e ∈ r.accs, e.thread = th ∧ e.off = putOffset a.st f.i th ∧ e.size = zBytes f.z.val ∧
                e.data = storeData a.st f.x f.z.val th ∧ e.cmp = BitVec.ofNat 128 (putToken a.st f.i th)) ∧
    ((∀ k ∈ s.cur.strands, let a := s.at (fmzUse f) k; let v := threadAddr a.st f.b.val f.i
        misaligned a.st.active (zBytes f.z.val) v = none ∧ putHold a f.o.val = none ∧
        ∀ th < 32, a.st.active.getLsbD th = true → mstXl a (v th) ≠ .busy ∧ mstXl a (v th) ≠ .miss ∧ ∀ m ∈ s.members (s.crewLaunch a.c).part (mstGroup (v th)), m = s.dev) →
      ∃ t, exec (.mst f) s = .next t ∧ goesOn t ∧
        ∀ k ∈ s.cur.strands, let a := s.at (fmzUse f) k; let v := threadAddr a.st f.b.val f.i
          ∀ th < 32, a.st.active.getLsbD th = true → ∀ pa, mstXl a (v th) = .ok pa →
            s.carries t k th .store (lineOf (onDevice pa s.dev)) (onDevice pa s.dev % 128) (zBytes f.z.val)
              (storeData a.st f.x f.z.val th) 0)

/-! Weirs, barriers and futures. -/

namespace Sys2Proof.Machine

/-- In a sub-gang of one strand the instruction leaves the strand as `f`, the machine as `g` says, and nothing else changed. -/
def AloneDone (s : State) (k : Nat) (o : Host.Outcome State Fault Refusal) (f : Strand) (g : State → State) : Prop :=
  ∃ t, o = .next t ∧ t.strand s.cur.crew k = f ∧ s.othersKept t ∧ { t with crews := [] } = { g s with crews := [] }

/-- The entry of the weir that S[x] names, of the launch of the issuing crew (R252). -/
def State.weirOf (s : State) (st : Strand) (x : Fin 32) : Nat := s.crewWeir (s.crew s.cur.crew) (nbits (st.sreg x.val).toNat 0 16)

/-- The traps of a weir instruction whose id in S[x] is 0, names no entry, or names one that is spilled; one that creates an entry needs room for it, and
names a resident entry of the domain otherwise, of any group (R253, R254, R310). -/
def WeirTraps (s : State) (k : Nat) (us : Use) (i : Instr) (x : Fin 32) (creates : Bool) : Prop :=
  let st := s.reading us k
  let id := nbits (st.sreg x.val).toNat 0 16
  let w := mget s.weirs (s.weirOf st x)
  (id = 0 → Traps s (exec i s) (fun _ => wordTrap st 18 (wordOf i))) ∧
  (id ≠ 0 → w.state = 2 → Traps s (exec i s) (fun _ =>
    valueTrap st 27 (BitVec.ofNat 64 ((s.crewLaunch (s.crew s.cur.crew)).group % 2 ^ 24 * 2 ^ 16 + id)))) ∧
  (id ≠ 0 → w.state = 0 → creates = false → Traps s (exec i s) (fun _ => wordTrap st 18 (wordOf i))) ∧
  (id ≠ 0 → w.state = 0 → creates = true → 4096 ≤ (s.weirsOf (weirDom id)).length →
    ∃ e ∈ s.weirsOf (weirDom id), Traps s (exec i s) (fun _ => valueTrap st 27 (BitVec.ofNat 64 (2 ^ 40 + e.1 % 2 ^ 40))))

/-- WINIT may act: a valid id, with a resident entry or, where there is none, room for it (R253). -/
def State.weirMade (s : State) (st : Strand) (x : Fin 32) : Prop :=
  let id := nbits (st.sreg x.val).toNat 0 16
  let w := mget s.weirs (s.weirOf st x)
  id ≠ 0 ∧ (w.state = 1 ∨ w.state = 0 ∧ (s.weirsOf (weirDom id)).length < 4096)

/-- The weir can be used by its instruction: a valid id, a resident entry (R253, R254). -/
def State.weirThere (s : State) (st : Strand) (x : Fin 32) : Prop :=
  nbits (st.sreg x.val).toNat 0 16 ≠ 0 ∧ (mget s.weirs (s.weirOf st x)).state = 1

end Sys2Proof.Machine

/-- R252: evaluation completes as many phases as both nonzero expectations allow, takes them from the counts, and leaves an expectation unmet; R253:
WINIT, which makes the entry where there is none, WARR, WWAIT, WTEST and WDROP in a sub-gang of one strand, and their traps on id 0, on an absent
entry, on a spilled one and, for WINIT, in a full table; R254: who waits at a WWAIT on an entry that goes raises ILLEGAL_OPERAND. Where the rules
leave a point open, the model's choice of log entry 86 holds. -/
def Obligations.Weirs : Prop :=
  (∀ (w : Weir), (w.ea ≠ 0 ∨ w.eb ≠ 0) →
      let e := w.eval
      let n := weirPhases w
      e.ph = w.ph + BitVec.ofNat 32 n ∧ e.ea = w.ea ∧ e.eb = w.eb ∧ e.state = w.state ∧
      e.ca + n * w.ea.toNat = w.ca ∧ e.cb + n * w.eb.toNat = w.cb ∧
      ((w.ea ≠ 0 ∧ e.ca < w.ea.toNat) ∨ (w.eb ≠ 0 ∧ e.cb < w.eb.toNat))) ∧
  (∀ (s : State) (k : Nat), s.cur.strands = [k] → ∀ d x y z : Fin 32,
      (s.clear { sr := [x.val, y.val, z.val] } →
        let st := s.reading { sr := [x.val, y.val, z.val] } k
        ((st.sreg y.val).setWidth 32 = (0 : Word) → (st.sreg z.val).setWidth 48 = (0 : BitVec 48) →
          Traps s (exec (.winit x y z) s) (fun _ => wordTrap st 18 (wordOf (.winit x y z)))) ∧
        ((st.sreg y.val).setWidth 32 ≠ (0 : Word) ∨ (st.sreg z.val).setWidth 48 ≠ (0 : BitVec 48) →
        WeirTraps s k { sr := [x.val, y.val, z.val] } (.winit x y z) x true ∧
        (s.weirMade st x →
        AloneDone s k (exec (.winit x y z) s) st.seq (fun s =>
          { s with weirs := mset s.weirs (s.weirOf st x)
                              { ({ mget s.weirs (s.weirOf st x) with
                                    state := 1, ea := (st.sreg y.val).setWidth 32, eb := (st.sreg z.val).setWidth 48 } : Weir).eval with
                                changed := s.nextId }
                   nextId := s.nextId + 1 })))) ∧
      (s.clear { sr := [x.val, y.val], sw := [d.val] } →
        let st := s.reading { sr := [x.val, y.val], sw := [d.val] } k
        WeirTraps s k { sr := [x.val, y.val], sw := [d.val] } (.warr d x y) x false ∧
        WeirTraps s k { sr := [x.val, y.val], sw := [d.val] } (.wtest d x y) x false ∧
        (s.weirThere st x →
        (s.released { sr := [x.val, y.val], sw := [d.val] } k →
          let n := nbits (st.sreg y.val).toNat 0 32
          AloneDone s k (exec (.warr d x y) s) (st.setS d.val ((mget s.weirs (s.weirOf st x)).ph.setWidth 64)).seq (fun s =>
            if n = 0 then s else
            { s with weirs := mset s.weirs (s.weirOf st x) { (mget s.weirs (s.weirOf st x)).credit n 0 with changed := s.nextId }
                     nextId := s.nextId + 1 })) ∧
        AloneDone s k (exec (.wtest d x y) s)
          (st.setS d.val (if phasePassed (mget s.weirs (s.weirOf st x)).ph ((st.sreg y.val).setWidth 32) then 1 else 0)).seq id)) ∧
      (s.clear { sr := [x.val, y.val] } →
        let st := s.reading { sr := [x.val, y.val] } k
        WeirTraps s k { sr := [x.val, y.val] } (.wwait x y) x false ∧
        (s.weirThere st x →
        (phasePassed (mget s.weirs (s.weirOf st x)).ph ((st.sreg y.val).setWidth 32) = true →
          AloneDone s k (exec (.wwait x y) s) st.latchKill.seq id) ∧
        (phasePassed (mget s.weirs (s.weirOf st x)).ph ((st.sreg y.val).setWidth 32) = false →
          Waits s (exec (.wwait x y) s) (fun _ =>
            .weir ((st.sreg x.val).setWidth 16) ((st.sreg y.val).setWidth 32) (wordOf (.wwait x y)))))) ∧
      (s.clear { sr := [x.val] } →
        let st := s.reading { sr := [x.val] } k
        WeirTraps s k { sr := [x.val] } (.wdrop x) x false ∧
        (s.weirThere st x →
        let key := s.weirOf st x
        ∃ t, exec (.wdrop x) s = .next t ∧ t.strand s.cur.crew k = st.seq ∧ t.mem = s.mem ∧
          (mget t.weirs key).state = 0 ∧ (∀ j, j ≠ key → mget t.weirs j = mget s.weirs j) ∧
          (∀ v j, ¬(v = s.cur.crew ∧ j = k) → t.strand v j =
            if (s.crew v).resident = false then s.strand v j else
            match s.waitsOn (s.crew v) (s.strand v j) key with
            | some word => { s.strand v j with pending := some (wordTrap (s.strand v j) 18 word) }
            | none => s.strand v j))))

/-- R255, R256: at CBAR and XSWAP the strands of a sub-gang wait until the last live strand of the crew arrives; the last arrival releases every live
strand, and XSWAP then exchanges the banks and takes the greatest expected count from the bytes counted. Where the rules leave a point open, the
model's choice of log entry 54 holds. -/
def Obligations.Barriers : Prop :=
  ∀ (s : State) (k : Nat), s.cur.strands = [k] →
    let u := s.cur.crew
    let c := s.crew u
    (s.clear {} → ordered s u k 2 = true → mget c.passed k = false →
      ((∀ j ∈ c.keys, j ≠ k → (c.st j).live ≠ 0 → mget c.cbar j = true) →
        ∃ t, exec .cbar s = .next t ∧ t.strand u k = (c.st k).latchKill.seq ∧ (t.crew u).cbar = [] ∧
          ∀ j ∈ c.keys, j ≠ k → (c.st j).live ≠ 0 → mget (t.crew u).passed j = true) ∧
      ((∃ j ∈ c.keys, j ≠ k ∧ (c.st j).live ≠ 0 ∧ mget c.cbar j = false) →
        ∃ t, exec .cbar s = .next t ∧ t.strand u k = { c.st k with wait := .cbar } ∧ mget (t.crew u).cbar k = true ∧
          { t with crews := [] } = { s with crews := [] })) ∧
    (∀ x : Fin 32, s.clear { sr := [x.val] } → ordered s u k 2 = true → mget c.passed k = false →
      nbit (s.crewLaunch c).record.flags 2 = true →
      let st := s.reading { sr := [x.val] } k
      let expect := mset c.xmax k (nbits (st.sreg x.val).toNat 0 48)
      let m := c.xgreatest expect
      ((∀ j ∈ c.keys, j ≠ k → (c.st j).live ≠ 0 → mget c.xarr j = true) → m ≤ c.cx →
        ∃ t, exec (.xswap x) s = .next t ∧ t.strand u k = st.latchKill.seq ∧ (t.crew u).swapped = !c.swapped ∧
          (t.crew u).cx = c.cx - m ∧ (t.crew u).xmax = [] ∧ (t.crew u).xarr = []) ∧
      ((c.cx < m ∨ ∃ j ∈ c.keys, j ≠ k ∧ (c.st j).live ≠ 0 ∧ mget c.xarr j = false) →
        ∃ t, exec (.xswap x) s = .next t ∧ t.strand u k = { st with wait := .xswap } ∧ mget (t.crew u).xarr k = true ∧
          (t.crew u).xmax = expect ∧ (t.crew u).swapped = c.swapped ∧ (t.crew u).cx = c.cx)) ∧
    (∀ e : FMap Nat,
      (∀ j ∈ c.keys, (c.st j).live ≠ 0 → mget e j ≤ c.xgreatest e) ∧
      (c.xgreatest e = 0 ∨ ∃ j ∈ c.keys, (c.st j).live ≠ 0 ∧ mget e j = c.xgreatest e))

/-- R250, R251, R53: FWAIT, FTEST with D and A different, TLREAD, TLWAIT, FJOIN and FCANCEL; FTEST of a register into itself raises ILLEGAL_OPERAND.
Where the rules leave a point open, the model's choice of log entries 30 and 94 holds. -/
def Obligations.FutureInstructions : Prop :=
  ∀ (s : State) (d x y : Fin 32),
    (s.clear { sr := [x.val], sw := [d.val] } →
      Completes s (exec (.fwait d x) s) (fun k =>
        let st := s.reading { sr := [x.val], sw := [d.val] } k
        (st.latchKill.setS d.val (st.sreg x.val)).seq)) ∧
    (d = x → (∀ k ∈ s.cur.strands, s.checked { bad := fun _ _ => true, sw := [d.val, x.val] } k = cOperand) →
      Traps s (exec (.ftest d x) s) (fun k => wordTrap (s.strand s.cur.crew k) 18 (wordOf (.ftest d x)))) ∧
    (d ≠ x → s.clear { sw := [d.val, x.val] } →
      Completes s (exec (.ftest d x) s) (fun k =>
        let st := s.strand s.cur.crew k
        if st.isFut x.val then
          match s.futureValue st (st.sreg x.val) with
          | some v => ((st.setS x.val v).setS d.val 1).seq
          | none => (st.setS d.val 0).seq
        else (st.setS d.val 1).seq)) ∧
    (s.clear { sw := [d.val], nm := [x.val] } → (∀ k ∈ s.cur.strands, selectorOk ((s.strand s.cur.crew k).sreg x.val) true = true) →
      Completes s (exec (.tlread d x) s) (fun k =>
        let st := s.strand s.cur.crew k
        (st.setS d.val (BitVec.ofNat 64 (s.timelineOf (s.crew s.cur.crew).core (st.sreg x.val)))).seq)) ∧
    (s.clear { nm := [x.val, y.val] } → (∀ k ∈ s.cur.strands, let st := s.strand s.cur.crew k
        selectorOk (st.sreg x.val) false = true ∧ st.isFut y.val = false) →
      ((∀ k ∈ s.cur.strands, let st := s.strand s.cur.crew k
          (st.sreg y.val).toNat ≤ s.timelineOf (s.crew s.cur.crew).core (st.sreg x.val)) →
        Completes s (exec (.tlwait x y) s) (fun k => (s.strand s.cur.crew k).latchKill.seq)) ∧
      ((∀ k ∈ s.cur.strands, let st := s.strand s.cur.crew k
          s.timelineOf (s.crew s.cur.crew).core (st.sreg x.val) < (st.sreg y.val).toNat) →
        Waits s (exec (.tlwait x y) s) (fun k =>
          .timeline ((s.strand s.cur.crew k).sreg x.val) ((s.strand s.cur.crew k).sreg y.val)))) ∧
    (s.clear { sw := [d.val], nm := [x.val, y.val] } → ∀ j : Nat → Nat, (∀ k ∈ s.cur.strands, freeJoin (s.strand s.cur.crew k) d.val = some (j k)) →
      Completes s (exec (.fjoin d x y) s) (fun k =>
        let st := s.strand s.cur.crew k
        (({ st with joins := mset st.joins (j k) ⟨joinSrcs st x.val ++ joinSrcs st y.val⟩ } : Strand).setFut d.val
          (mkHandle 6 (j k) 0)).latchKill.seq)) ∧
    (∀ k, s.cur.strands = [k] → s.clear { nm := [x.val] } →
      AloneDone s k (exec (.fcancel x) s) (s.strand s.cur.crew k).seq (fun s =>
        if (s.strand s.cur.crew k).isFut x.val then s.cancelOp ((s.strand s.cur.crew k).sreg x.val) else s))

/-! Engines. -/

namespace Sys2Proof.Machine

/-- An engine instruction of one strand may issue: the writes that its release covers are complete, room in its context (R133, R247). -/
def State.engineReady (s : State) (x : Use) (k kind num : Nat) : Prop :=
  s.clear x ∧ s.released x k ∧ s.ctxRoom kind num 1 = true

/-- The next operation of a context: its handle, its entry, and the strand with the future (R247, R248). -/
def Issues (s : State) (x : Use) (k : Nat) (o : Host.Outcome State Fault Refusal) (d kind num : Nat) (op : Op) (g : State → Word64 → State) : Prop :=
  let c := mget s.ctxs (ctxKey kind num)
  let h := mkHandle kind num (c.issued + 1)
  AloneDone s k o ((s.reading x k).latchKill.setFut d h).seq (fun s =>
    g { s with ctxs := mset s.ctxs (ctxKey kind num) { c with issued := c.issued + 1 }
               ops := mset s.ops h.toNat { op with number := c.issued + 1 }
               results := mset s.results h.toNat none } h)

/-- The operation that strand k of the sub-gang makes. -/
def State.opOf (s : State) (x : Use) (k : Nat) (kind : OpKind) (a b c : Word64) : Op := mkOp (s.at x k) kind a b c

end Sys2Proof.Machine

/-- R272, R273: CLRUN starts a command list of the domain, or resolves at once with BAD_SHAPE when it is misaligned; CLSIG adds to a signal counter;
LAUNCH copies its record into the domain's queue, or resolves at once with BAD_SHAPE when it is misaligned and with FAULT when it cannot be read;
LQTRY tells the free entries. -/
def Obligations.ListsAndLaunches : Prop :=
  ∀ (s : State) (k : Nat) (d x y : Fin 32), s.cur.strands = [k] →
    let dom := domOf (s.crew s.cur.crew).core
    (let us : Use := { sr := [x.val, y.val], sw := [d.val] }
     let st := s.reading us k
     s.engineReady us k 3 dom →
      ((st.sreg x.val).toNat % 32 = 0 →
        Issues s us k (exec (.clrun d x y) s) d.val 3 dom (s.opOf us k .clrun (st.sreg x.val) (st.sreg y.val) 0) (fun t h =>
          { t with colls := mset t.colls t.nextId { (default : CollRun) with live := true, handle := h }, nextId := t.nextId + 1 })) ∧
      ((st.sreg x.val).toNat % 32 ≠ 0 →
        Issues s us k (exec (.clrun d x y) s) d.val 3 dom (s.opOf us k .clrun (st.sreg x.val) (st.sreg y.val) 0) (fun t h =>
          t.resolveOp h 2))) ∧
    (let us : Use := { sr := [x.val, y.val] }
     let st := s.reading us k
     s.clear us → s.released us k →
      AloneDone s k (exec (.clsig x y) s) st.seq (fun s =>
        { s with signals := mset s.signals (64 * dom + nbits (st.sreg x.val).toNat 0 6)
                              (mget s.signals (64 * dom + nbits (st.sreg x.val).toNat 0 6) + st.sreg y.val) })) ∧
    (let us : Use := { sr := [x.val], sw := [d.val] }
     let st := s.reading us k
     let l := s.crewLaunch (s.crew s.cur.crew)
     let gives := Issues s us k (exec (.launch d x) s) d.val 4 dom (s.opOf us k .launch (st.sreg x.val) 0 0)
     s.engineReady us k 4 dom → s.dlqCount dom < 256 →
      ((st.sreg x.val).toNat % 64 ≠ 0 → gives (fun t h => t.resolveOp h 2)) ∧
      ((st.sreg x.val).toNat % 64 = 0 → launchPages x.val (s.at us k) = [] →
        (∀ bytes, s.rdVirt (s.crew s.cur.crew).core l.part l.space (st.sreg x.val).toNat 256 = .ok bytes → gives (fun t h =>
          { t with dlq := mset t.dlq t.nextId { dom := dom, bytes := bytes, part := l.part, space := l.space, handle := h, cancelled := false }
                   nextId := t.nextId + 1 })) ∧
        (∀ c o, s.rdVirt (s.crew s.cur.crew).core l.part l.space (st.sreg x.val).toNat 256 = .fault c o →
          gives (fun t h => t.resolveOp h (BitVec.ofNat 64 (3 + 256 * c)))))) ∧
    (s.clear { sw := [d.val] } →
      Completes s (exec (.lqtry d) s) (fun k => ((s.strand s.cur.crew k).setS d.val (BitVec.ofNat 64 (256 - s.dlqCount dom))).seq))

/-! The matrix path. -/

namespace Sys2Proof.Machine

/-- A weave instruction: every strand of the sub-gang goes on as `fx`, the crew is otherwise `c`, the machine as `g` says, and nothing else has changed
(R37, R390). -/
def Weaves (s : State) (x : Use) (o : Host.Outcome State Fault Refusal) (c : Crew) (fx : Strand → Strand := fun st => st)
    (g : State → State := id) : Prop :=
  ∃ t, o = .next t ∧ (∀ k ∈ s.cur.strands, t.strand s.cur.crew k = (fx (s.reading x k)).seq) ∧
    (∀ j, j ∉ s.cur.strands → t.strand s.cur.crew j = s.strand s.cur.crew j) ∧
    { t.crew s.cur.crew with strand := [] } = { c with strand := [] } ∧ (∀ v, v ≠ s.cur.crew → t.crew v = s.crew v) ∧
    { t with crews := [] } = { g s with crews := [] }

/-- A weave instruction may run: the checks of R157, a sub-gang, and none of the locks of R266. -/
def State.weaveReady (s : State) (x : Use) (ls : List Lock) : Prop :=
  s.clear x ∧ s.cur.strands ≠ [] ∧ ∀ k ∈ s.cur.strands, ∀ l ∈ ls, s.locked s.cur.crew (weaveOf k) l = false

/-- The lowest strand of the sub-gang, from which a weave instruction takes its scalars (R390). -/
def State.lead (s : State) (x : Use) : Strand := s.reading x (s.cur.strands.headD 0)

/-- What the TILE instructions name and check. -/
abbrev tileUse (k : Fin 16) : Use := { bad := tileBad k.val, weave := true }
/-- TLD and TST. -/
abbrev tileAbUse (k : Fin 16) (n : Fin 32) : Use := { bad := tileBad k.val, weave := true, sr := [n.val] }
/-- TMOV. -/
abbrev tmovUse (f : FTile) : Use := { src := [f.d], bad := tileBad f.k.val, weave := true, sr := [f.x.val] }
/-- TMOVW. -/
abbrev tmovwUse (f : FTile) : Use := { grp := [(f.d, 4)], bad := tileBad f.k.val, weave := true, sr := [f.x.val] }
/-- The accumulator of an ACC instruction. -/
abbrev accUse (k : Fin 4) : Use := { bad := accBad k.val, weave := true }

end Sys2Proof.Machine

/-- R261, R262, R263: TZERO, TLD, TST, TMOV, TMOVW and TSCL: the bytes that they write, once for the weave, and that TLD and TST hold the tile until
their 34 AB cycles are over, which come after those of the TLD and TST before them and ahead of the strands' accesses (R100). -/
def Obligations.TileInstructions : Prop :=
  ∀ s : State,
    let c := s.crew s.cur.crew
    (∀ k : Fin 16, s.weaveReady (tileUse k) [.tile k.val, .tileRead k.val] →
      Weaves s (tileUse k) (exec (.tzero k) s)
        { c with tile := mreplace c.tile (8704 * k.val) 8704 (fun i => if i < 8192 then 0 else 0x7F) }) ∧
    (∀ (k : Fin 16) (n : Fin 32),
      let x := tileAbUse k n
      let d := nbits ((s.lead x).sreg n.val).toNat 0 21
      let e := nbits ((s.lead x).sreg n.val).toNat 32 21
      let holds := fun (kind : Nat) => mset c.tileBusy k.val
        { kind := kind, weave := weaveOf (s.cur.strands.headD 0), data := d, scale := e, due := 2 * (max s.clock (s.core c.core).tileFree + 34) }
      let served := fun (s : State) => s.setCore c.core
        { s.core c.core with tileFree := max s.clock (s.core c.core).tileFree + 34, abFree := max s.clock (s.core c.core).abFree + 34 }
      d % 64 = 0 → e % 64 = 0 → d + 8192 ≤ c.ab + c.xwin → e + 512 ≤ c.ab + c.xwin →
      (∀ k ∈ s.cur.strands, (s.reading x k).scHold = true → (s.reading x k).unacked = 0) →
      (s.weaveReady x [.tile k.val, .tileRead k.val, .bytes d 8192, .bytes e 512] →
        Weaves s x (exec (.tld k n) s)
          { c with tileBusy := holds 1
                   tile := mreplace c.tile (8704 * k.val) 8704 (fun i =>
                    c.abByte (c.abIndex (if i < 8192 then d + i else e + (i - 8192)))) }
          (fun st => st) served) ∧
      (s.weaveReady x [.tile k.val, .bytes d 8192, .bytes e 512] →
        (∀ k ∈ s.cur.strands, (s.reading x k).fence % 2 = 1 → ordered s s.cur.crew k 2 = true) →
        Weaves s x (exec (.tst k n) s)
          { (c.abWrite d (mflat 0 8192 (c.tileBytes k.val))).abWrite e (mgetList (c.tileBytes k.val) 8192 512) with tileBusy := holds 2 }
          (fun st => st) served)) ∧
    (∀ f : FTile,
      let place := fun (wide : Bool) (x : Use) (c : Crew) (k : Nat) =>
        (List.range 32).foldl (fun (c : Crew) t =>
          let p := tmovPlace wide f.rc ((nbits ((s.reading x k).sreg f.x.val).toNat 0 32 + f.n.val) % 2 ^ 32) (32 * sidOf k + t)
          (List.range (if wide then 4 else 1)).foldl (fun (c : Crew) j =>
            c.tileWord f.k.val p.1 (p.2 + j) (if wide then (s.reading x k).srcAt f.d j t else (s.reading x k).src f.d t)) c) c
      (s.weaveReady (tmovUse f) [.tile f.k.val, .tileRead f.k.val] →
        Weaves s (tmovUse f) (exec (.tmov f) s) (s.cur.strands.foldl (place false (tmovUse f)) c)) ∧
      (s.weaveReady (tmovwUse f) [.tile f.k.val, .tileRead f.k.val] →
        Weaves s (tmovwUse f) (exec (.tmovw f) s) (s.cur.strands.foldl (place true (tmovwUse f)) c))) ∧
    (∀ (d : Opnd) (k : Fin 16) (r : Fin 32) (n : Fin 16),
      let x : Use := { src := [d], bad := tileBad k.val, weave := true, sr := [r.val] }
      s.weaveReady x [.tile k.val, .tileRead k.val] →
      Weaves s x (exec (.tscl d k r n) s) (s.cur.strands.foldl (fun (c : Crew) j =>
        (List.range 32).foldl (fun (c : Crew) t =>
          let row := ((nbits ((s.reading x j).sreg r.val).toNat 0 32 + n.val) % 2 ^ 32 + (32 * sidOf j + t)) % 128
          { c with tile := msetList c.tile (8704 * k.val + 8192 + 4 * row) (leBytes 4 ((s.reading x j).src d t).toNat) }) c) c))

namespace Sys2Proof.Machine

/-- The threads of a strand that has executed an instruction with results of the matrix path: register c of D in thread t is `val c t`, in
every thread whatever the guard, from 2 issue periods later on (R269). -/
def MatrixValues (s : State) (x : Use) (o : Host.Outcome State Fault Refusal) (d : Opnd) (n : Nat) (val : Nat → Nat → Nat → Word) : Prop :=
  Completes s o (fun k => matrixResult (s.reading x k) d n s.period (val k))

end Sys2Proof.Machine

/-- R267, R268, R269, R84, R85: AZERO, ARANK, ARFOLD, AMOV, AMOVW, ATHR and ARREAD, on an accumulator of the form that each needs. -/
def Obligations.AccumulatorInstructions : Prop :=
  ∀ s : State,
    let c := s.crew s.cur.crew
    (∀ k : Fin 4, s.weaveReady (accUse k) [.acc k.val true] →
      Weaves s (accUse k) (exec (.azero k) s) (c.azero k.val)) ∧
    (∀ (k : Fin 4) (n : Fin 32), let x : Use := { bad := accBad k.val, weave := true, sr := [n.val] }
      s.weaveReady x [.acc k.val true] → ∀ base keep len,
      arankFields ((s.lead x).sreg n.val) (c.accForm k.val).ranked = some (base, keep, len) →
      Weaves s x (exec (.arank k n) s)
        (if keep then { c with ranked := mreplace c.ranked (128 * k.val) 128 (fun i => (c.rankRow k.val i).take len)
                               form := mset c.form k.val ⟨true, len, base⟩ }
         else { c.azero k.val with form := mset (c.azero k.val).form k.val ⟨true, len, base⟩ })) ∧
    (∀ j k : Fin 4, let x : Use := { bad := fun c st => accBad k.val c st || accBad j.val c st, weave := true }
      s.weaveReady x [.acc k.val true, .acc j.val false] → j ≠ k → (c.accForm k.val).ranked = true → (c.accForm j.val).ranked = false →
      let row := fun i => rankOffers (c.accForm k.val).len (c.rankRow k.val i)
        (rowOffers (c.accForm k.val).base (mget (c.accRow j.val i)))
      Weaves s x (exec (.arfold j k) s)
        { c with ranked := mreplace c.ranked (128 * k.val) 128 (fun i => (row i).1)
                 foldBusy := mset c.foldBusy k.val (s.time + 512)
                 foldWeave := mset c.foldWeave k.val (weaveOf (s.cur.strands.headD 0)) }
        (fun st => if (List.range 128).any (fun i => (row i).2) then st.orFlags flagIV else st)) ∧
    (∀ f : FAcc,
      let x := fun (wide : Bool) => ({ out := if wide then [] else [f.d], grp := if wide then [(f.d, 4)] else [], sr := [f.x.val]
                                       bad := accBad f.k.val, weave := true } : Use)
      let val := fun (wide : Bool) (k i t : Nat) => amovElem c f.k.val wide f.rc
        ((nbits ((s.reading (x wide) k).sreg f.x.val).toNat 0 32 + f.n.val) % 2 ^ 32) (32 * sidOf k + t) i
      (c.accForm f.k.val).ranked = false →
      (s.weaveReady (x false) [.acc f.k.val true] → MatrixValues s (x false) (exec (.amov f) s) f.d 1 (val false)) ∧
      (s.weaveReady (x true) [.acc f.k.val true] → MatrixValues s (x true) (exec (.amovw f) s) f.d 4 (val true))) ∧
    (∀ (d : Opnd) (k : Fin 4), let x : Use := { out := [d], bad := accBad k.val, weave := true }
      (c.accForm k.val).ranked = true → s.weaveReady x [.acc k.val false] →
      MatrixValues s x (exec (.athr d k) s) d 1 (fun j _ t =>
        rankThreshold (c.accForm k.val).len (c.rankRow k.val ((32 * sidOf j + t) % 128)))) ∧
    (∀ (d : Opnd) (k : Fin 4) (n : Fin 32), let x : Use := { grp := [(d, 2)], sr := [n.val], bad := accBad k.val, weave := true }
      (c.accForm k.val).ranked = true → s.weaveReady x [.acc k.val false] →
      MatrixValues s x (exec (.arread d k n) s) d 2 (fun j i t =>
        let u := 32 * sidOf j + t
        match ((c.rankRow k.val (u % 128)).drop (nbits ((s.reading x j).sreg n.val).toNat 0 32 + u / 128)).head? with
        | some p => if i = 0 then p.1 else p.2
        | none => if i = 0 then 0x7FC00000 else 0xFFFFFFFF))

namespace Sys2Proof.Machine

/-- One matrix operation for the whole weave: the same handle in S[d] of every strand, the operation on the core's matrix context with the
scalar of the lowest strand, and nothing else changed (R278). -/
def IssuesMatrix (s : State) (x : Use) (o : Host.Outcome State Fault Refusal) (d : Nat) (kind : OpKind) (val : Word64) : Prop :=
  let core := (s.crew s.cur.crew).core
  let c := mget s.ctxs (ctxKey 2 core)
  let h := mkHandle 2 core (c.issued + 1)
  ∃ t, o = .next t ∧ (∀ k ∈ s.cur.strands, t.strand s.cur.crew k = ((s.reading x k).latchKill.setFut d h).seq) ∧ s.othersKept t ∧
    { t with crews := [] } =
      { s with crews := []
               ctxs := mset s.ctxs (ctxKey 2 core) { c with issued := c.issued + 1 }
               ops := mset s.ops h.toNat { s.opOf x (s.cur.strands.headD 0) kind val 0 0 with number := c.issued + 1 }
               results := mset s.results h.toNat none }

/-- A matrix operation may issue: the writes that the releases of its strands cover are complete, room in the context (R133, R247). -/
def State.matrixReady (s : State) (x : Use) (ls : List Lock) : Prop :=
  s.weaveReady x ls ∧ (∀ k ∈ s.cur.strands, s.released x k) ∧ s.ctxRoom 2 (s.crew s.cur.crew).core 1 = true

end Sys2Proof.Machine

/-- R257, R247, R248: each CPY function puts one operation with its operands on the copy context of its core, returns its handle as a live future,
and changes nothing else: no byte is copied yet. R264, R270, R271, R278, R247: MMA, ACOMMIT and ALOAD put one operation on the matrix context and
return its handle to every strand; nothing is computed and no byte of memory changes yet. MMA traps with PROTECTION where its records lie beyond
the launch's claim. -/
def Obligations.CopyAndMatrixIssues : Prop :=
  (∀ (s : State) (k : Nat) (d x y z : Fin 32), s.cur.strands = [k] →
     let us : Use := { sr := [x.val, y.val, z.val], sw := [d.val] }
     let core := (s.crew s.cur.crew).core
     let st := s.reading us k
     s.engineReady us k 1 core →
     let issues := fun (o : Host.Outcome State Fault Refusal) (fn : Nat) =>
       Issues s us k o d.val 1 core (s.opOf us k (.copy fn) (st.sreg x.val) (st.sreg y.val) (st.sreg z.val)) (fun t _ => t)
     issues (exec (.cpyG2a d x y z) s) 0 ∧ issues (exec (.cpyA2g d x y z) s) 1 ∧ issues (exec (.cpyG2c d x y z) s) 2 ∧
     issues (exec (.cpyTcpy d x y z) s) 3 ∧ issues (exec (.cpyGath d x y z) s) 4 ∧ issues (exec (.cpyC2g d x y z) s) 5) ∧
  (∀ s : State,
     (∀ f : FX,
       let r := nbits ((s.lead (mmaUse f)).sreg f.b.val).toNat 0 32
       let claim := (s.crewLaunch (s.crew s.cur.crew)).record.cistern
       (s.matrixReady (mmaUse f) [.tile f.tile.val] → r + (if f.w then 8 else 4) ≤ claim →
         IssuesMatrix s (mmaUse f) (exec (.mma f) s) f.sf.val (.mma f) ((s.lead (mmaUse f)).sreg f.b.val)) ∧
       (s.clear (mmaUse f) → s.cur.strands ≠ [] → claim < r + (if f.w then 8 else 4) →
         Traps s (exec (.mma f) s) (fun k => valueTrap (s.reading (mmaUse f) k) 2 (BitVec.ofNat 64 r)))) ∧
     (∀ (d : Fin 32) (k : Fin 4) (n : Fin 32),
       let x := commitUse (.s d) k.val n
       s.matrixReady x [.fold k.val] →
       IssuesMatrix s x (exec (.acommit (.s d) k n) s) d.val (.acommit k.val) ((s.lead x).sreg n.val) ∧
       IssuesMatrix s x (exec (.aload (.s d) k n) s) d.val (.aload k.val) ((s.lead x).sreg n.val)))

/-! Privileged instructions. -/

/-- R290, R291, R292, R293, R294, R284: SPW, SPRP, TERM, TLBINV, SFRQPOP, WSPILL and WFILL at level 1, those that change more than their strand in a
sub-gang of one strand. Where the rules leave a point open, the model's choice of log entries 21, 22, 23, 77 and 95 holds. -/
def Obligations.PrivilegedInstructions : Prop :=
  ∀ s : State,
    (∀ (d : Fin 128) (r : Fin 32), let x : Use := { priv := true, sin := [.s r], bad := fun _ _ => decide (12 < d.val) }
      s.clear x → Completes s (exec (.spw d (.s r)) s) (fun k =>
        let st := s.reading x k
        let v := st.sreg r.val
        ({ st with
            tcause := if d.val = 0 then (st.tcause &&& ~~~0x100000#64) ||| (v &&& 0x100000#64) else st.tcause
            tepc := if d.val = 1 then v &&& 0x1FFFFFFFFFFFFFF#64 else st.tepc
            tval := if d.val = 2 then v else st.tval
            tmask := if d.val = 3 then v.setWidth 32 else st.tmask
            flags := if d.val = 5 then v.setWidth 4 else st.flags } : Strand).seq)) ∧
    (∀ (d : Fin 32) (n : Fin 128), let x : Use := { priv := true, sout := [.s d], bad := fun _ _ => decide (12 < n.val) }
      s.clear x → Completes s (exec (.sprp (.s d) n) s) (fun k =>
        ((s.reading x k).setS d.val (BitVec.ofNat 64 (sprpValue (s.at x k) n.val))).seq)) ∧
    (∀ k : Nat, s.cur.strands = [k] →
      let u := s.cur.crew
      let c := s.crew u
      let l := s.crewLaunch c
      (∀ d code : Fin 128, s.clear { priv := true } →
        ∃ t, exec (.term d code) s = .next t ∧ (∀ j ∈ termKeys c k d.val, (t.strand u j).live = 0) ∧
          (∀ j, j ∉ termKeys c k d.val → (t.strand u j).live = (s.strand u j).live) ∧
          ((∀ j ∈ c.keys, (t.strand u j).live = 0) → (t.crew u).retiring = true) ∧
          (2 ≤ d.val → l.ending = 0 → (t.launchOf c.launch).ending = 10 ∧ (t.launchOf c.launch).endCode = code.val) ∧ t.mem = s.mem) ∧
      (∀ x y : Fin 32, let us : Use := { priv := true, sin := [.s x, .s y] }
        s.clear us → s.released us k → ((s.reading us k).sreg y.val).toNat ≤ 1 →
        AloneDone s k (exec (.tlbinv (.s x) (.s y)) s) (s.reading us k).latchKill.seq (fun s =>
          let va := ((s.reading us k).sreg x.val).toNat
          let all := decide ((s.reading us k).sreg y.val = 1)
          { s with
            tlb := s.tlb.filter (fun e => !(decide (e.part = l.part) && (all || decide (e.page = va / 2 ^ e.pageBits))))
            walks := s.walks.filter (fun e => !(decide (e.2.part = l.part) && (all || decide (e.2.va / 2 ^ 30 = va / 2 ^ 30)))) })) ∧
      (∀ d : Fin 32, d.val % 2 = 0 → d.val ≠ 0 →
        let us : Use := { priv := true, sout := [.s d], sw := [d.val + 1], bad := fun _ _ => decide (d.val % 2 = 1) || decide (d.val = 0) }
        s.clear us →
        (s.oldestRecord u k = none → AloneDone s k (exec (.sfrqpop (.s d)) s)
          (((s.reading us k).setS d.val 0).setS (d.val + 1) 0).seq id) ∧
        (∀ e, s.oldestRecord u k = some e →
          ∃ t, exec (.sfrqpop (.s d)) s = .next t ∧ t.mem = s.mem ∧
            (t.strand u k).sreg d.val = BitVec.ofNat 64 (e.2.cause * 2 ^ 60 + e.2.z % 8 * 2 ^ 57 + e.2.va.toNat % 2 ^ 57) ∧
            (t.strand u k).sreg (d.val + 1) = (popWords s e.2).2 ∧
            (∀ m < 32, m ≠ d.val → m ≠ d.val + 1 → (t.strand u k).sreg m = (s.strand u k).sreg m) ∧
            (t.strand u k).v = (s.strand u k).v ∧ (t.strand u k).pc = (s.strand u k).seq.pc)) ∧
      (∀ d x y : Fin 32, let us : Use := { priv := true, sout := [.s d], sin := [.s x, .s y] }
        let st := s.reading us k
        let id_ := nbits (st.sreg x.val).toNat 0 16
        let group := nbits (st.sreg x.val).toNat 16 24
        let key := weirKey l.part group id_
        let w := mget s.weirs key
        let gives := fun (n : Nat) => AloneDone s k (exec (.wspill (.s d) (.s x) (.s y)) s) (st.latchKill.setS d.val (BitVec.ofNat 64 n)).seq
        s.clear us →
        (w.state ≠ 1 → gives 2 id) ∧ (w.state = 1 → 1024 ≤ s.spilledOf (weirDom id_) → gives 1 id) ∧
        (w.state = 1 → s.spilledOf (weirDom id_) < 1024 → (st.sreg y.val).toNat % 32 ≠ 0 → gives 3 id) ∧
        (w.state = 1 → s.spilledOf (weirDom id_) < 1024 → (st.sreg y.val).toNat % 32 = 0 → ∀ s1,
          s.wrVirt c.core l.part l.space (st.sreg y.val).toNat (spillBytes w group id_) = .ok s1 →
          gives 0 (fun _ => { s1 with weirs := mset s1.weirs key { (default : Weir) with state := 2, changed := s1.nextId }
                                      nextId := s1.nextId + 1 }))) ∧
      (∀ d x : Fin 32, let us : Use := { priv := true, sout := [.s d], sin := [.s x] }
        let st := s.reading us k
        let gives := fun (n : Nat) => AloneDone s k (exec (.wfill (.s d) (.s x)) s) (st.setS d.val (BitVec.ofNat 64 n)).seq
        s.clear us →
        ((st.sreg x.val).toNat % 32 ≠ 0 → gives 3 id) ∧
        ((st.sreg x.val).toNat % 32 = 0 → ∀ b, s.rdVirt c.core l.part l.space (st.sreg x.val).toNat 32 = .ok b →
          (spillFields b = none → gives 2 id) ∧
          (∀ i g w, spillFields b = some (i, g, w) →
            let key := weirKey l.part g i
            let delta := mget s.weirs key
            (delta.state ≠ 2 → gives 2 id) ∧ (delta.state = 2 → 4096 ≤ (s.weirsOf (weirDom i)).length → gives 1 id) ∧
            (delta.state = 2 → (s.weirsOf (weirDom i)).length < 4096 →
              gives 0 (fun s => { s with weirs := mset s.weirs key { w.credit delta.ca delta.cb with changed := s.nextId }
                                         nextId := s.nextId + 1 }))))))

/-! Steps of strands. -/

namespace Sys2Proof.Machine

/-- The step answers a next state with the property. -/
def Answers (o : Host.Outcome State Fault Refusal) (p : State → Prop) : Prop := ∃ t, o = .next t ∧ p t

/-- Strand k of crew u is now `f`, and nothing else of the machine has changed. -/
def OnlyStrand (s : State) (u k : Nat) (f : Strand) (t : State) : Prop :=
  t.strand u k = f ∧ (∀ v j, ¬(v = u ∧ j = k) → t.strand v j = s.strand v j) ∧
    (∀ v, { t.crew v with strand := [] } = { s.crew v with strand := [] }) ∧ { t with crews := [] } = { s with crews := [] }

/-- Only crew u has changed, to `c`. -/
def OnlyCrew (s : State) (u : Nat) (c : Crew) (t : State) : Prop :=
  t.crew u = c ∧ (∀ v, v ≠ u → t.crew v = s.crew v) ∧ { t with crews := [] } = { s with crews := [] }

end Sys2Proof.Machine

namespace Sys2Proof.Machine

/-- The YIELD or WAIT of strand k of crew u is over when the next issue period begins, and may complete (R183, R184, R191). -/
def State.ripe (s : State) (u k : Nat) : Prop :=
  (s.crew u).resident = true ∧ ((s.crew u).preempt = 0 ∨ (s.crew u).preempt = 3) ∧ k ∈ (s.crew u).liveKeys ∧
    ((∃ p, (s.strand u k).wait = .yielded p ∧ p ≤ s.time / 16 + 1) ∨ ∃ p, (s.strand u k).wait = .deadline p ∧ p ≤ (s.time + 16) / 8)

/-- When the next issue period begins no reply of L1 is due and no request waits at a router port (R232, R379). -/
def State.quiet (s : State) : Prop :=
  (∀ e ∈ s.back, e.2.kind = .load → e.2.readyAt ≠ 0 → s.time + 16 < e.2.readyAt) ∧
  ∀ e ∈ s.net, e.2.path = pathRouter → e.2.left = true ∨ e.2.kind = .none

/-- Strand k of crew u regangs with others by its key: it and the strands of its sub-gang are between instructions, those apart that are at level 1 or have
a trap due (R33). -/
def State.merges (s : State) (u k : Nat) : Prop :=
  (s.crew u).resident = true ∧ k ∈ (s.crew u).liveKeys ∧ (s.strand u k).handler = false ∧ (s.strand u k).pending = none ∧
    ∀ j ∈ (s.crew u).gangOf k, (s.strand u j).handler = false → (s.strand u j).pending = none → (s.strand u j).wait = .ready

end Sys2Proof.Machine

/-- R25, R33, R16: ISSUE_PERIOD lets 16 base cycles pass, changes no memory, delivers the lines that L1 has answered by then (R232) and, where there
are none and no request waits at a router port, changes no register; it completes the YIELDs and WAITs that are over (R183, R184), puts strands
between instructions into one sub-gang of their weave just when their keys are equal, and lets the weaves of the resident crews try in the order
of their context indices, from p mod 4 on for period p. R194, R183, R184, R301, R262, R268: the steps that end waits: late results, YIELD, WAIT,
a pending trap, TLD and TST, and ARFOLD. Where the rules leave a point open, the model's choice of log entries 7, 8, 13 and 66 holds. -/
def Obligations.PeriodsAndStrandSteps : Prop :=
  (∀ s : State, s.Tidy →
     Answers (exec .issuePeriod s) (fun t =>
       t.time = s.time + 16 ∧ t.taken = [] ∧ t.mem = s.mem ∧ t.ops = s.ops ∧ t.launches = s.launches ∧
       (∀ k r, mget s.back k = r → r.kind = .load → r.readyAt ≠ 0 → r.readyAt ≤ s.time + 16 → mget t.back k = default) ∧
       (s.quiet → t.net = s.net ∧ t.back = s.back ∧
       (∀ u k, (t.strand u k).sameRegs (s.strand u k) ∧
         (s.ripe u k → (t.strand u k).pc = (s.strand u k).seq.pc ∧ (t.strand u k).loops = (s.strand u k).seq.loops) ∧
         (¬s.ripe u k → (t.strand u k).pc = (s.strand u k).pc ∧ (t.strand u k).loops = (s.strand u k).loops) ∧
         (¬s.ripe u k → (s.strand u k).wait ≠ .ready → (t.strand u k).wait = (s.strand u k).wait)) ∧
       (∀ u w j k, (∀ i, ¬s.ripe u i) → w < (s.crew u).weaves → weaveOf j = w → weaveOf k = w → s.merges u j → s.merges u k →
         ((t.strand u j).gang = (t.strand u k).gang ↔ (s.strand u j).key = (s.strand u k).key)) ∧
       (∀ u k, (s.crew u).resident = true → k ∈ (s.crew u).liveKeys → weaveOf k < (s.crew u).weaves →
         ((s.strand u k).handler = true ∨ (s.strand u k).pending ≠ none) → (t.strand u k).gang = 16 + sidOf k) ∧
       (∀ i ∈ t.issueQ, i.strands = [] ∧ (s.crew i.crew).resident = true ∧ i.weave < (s.crew i.crew).weaves) ∧
       (let turn := fun (i : Issue) => (mget (s.crew i.crew).ctx i.weave + 4 - t.period % 4) % 4
        t.issueQ.Pairwise (fun i j => turn i ≤ turn j))))) ∧
  (∀ (s : State) (u k : Nat),
     let st := s.strand u k
     Answers (exec (.resultAvailable u k) s) (OnlyStrand s u k { st with late := st.late.filter (fun e => decide (s.time / 16 < e.2)) }) ∧
     (∀ p, st.wait = .yielded p → (s.crew u).preempt = 0 → p ≤ s.time / 16 → Answers (exec (.yieldExpiry u k) s) (OnlyStrand s u k st.seq)) ∧
     (∀ p, st.wait = .yielded p → (s.time / 16 < p ∨ (s.crew u).preempt ≠ 0) → exec (.yieldExpiry u k) s = .next s) ∧
     (∀ p, st.wait = .deadline p → (s.crew u).preempt = 0 → p ≤ s.time / 8 → Answers (exec (.waitDeadline u k) s) (OnlyStrand s u k st.seq)) ∧
     (∀ p, st.wait = .deadline p → (s.time / 8 < p ∨ (s.crew u).preempt ≠ 0) → exec (.waitDeadline u k) s = .next s) ∧
     (∀ tr, st.pending = some tr → exec (.trapEntry u k) s = .next (s.takeTrap u k tr)) ∧
     ((mget (s.crew u).tileBusy k).kind ≠ 0 → (mget (s.crew u).tileBusy k).due ≤ s.time →
       Answers (exec (.tldTstAbCyclesDone u k) s)
         (OnlyCrew s u { s.crew u with tileBusy := mset (s.crew u).tileBusy k default })) ∧
     (mget (s.crew u).foldBusy k ≠ 0 → mget (s.crew u).foldBusy k ≤ s.time →
       Answers (exec (.arfoldDone u k) s)
         (OnlyCrew s u { s.crew u with foldBusy := mset (s.crew u).foldBusy k 0, foldWeave := mset (s.crew u).foldWeave k 0 })))

/-! Steps at homes. -/

namespace Sys2Proof.Machine

/-- Bytes `lo` to `lo + n` of memory hold the number `v`, least significant byte first; every other byte is as before (R5). -/
def Holds (s t : State) (lo n v : Nat) : Prop :=
  (∀ i < n, mget t.mem (lo + i) = BitVec.ofNat 8 (v / 256 ^ i)) ∧ ∀ a, a < lo ∨ lo + n ≤ a → mget t.mem a = mget s.mem a

/-- A request of this device has been answered: it is at no home and on its way back as `r`. -/
def Answered (t : State) (k : Nat) (r : Req) : Prop := mget t.net k = default ∧ mget t.home k = default ∧ mget t.back k = r

/-- A request that has reached its home, with nothing waiting there before it and no lease or poison in its way. -/
def State.homeFree (s : State) (k : Nat) (r : Req) : Prop :=
  s.Tidy ∧ mget s.net k = r ∧ s.arrives k r = true ∧ s.waitingAt r.pa = [] ∧ s.poisoned r.pa = false ∧ r.dev = s.dev

end Sys2Proof.Machine

/-- R95, R96, R110, R113, R116, R117, R235, R375: LOAD_AT_HOME answers with the bytes of memory; WRITE_AT_HOME and ATOMIC_AT_HOME with no lease in
force write exactly the bytes of their accesses, and wait under a lease, but for an atomic that changes nothing; an access of 16 bytes performs
half by half; LEASE_EXPIRY lets the waiting write perform; a poisoned line fails the load. Where the rules leave a point open, the model's choice
of log entries 9 and 68 holds. -/
def Obligations.HomeSteps : Prop :=
  ∀ (s : State) (k : Nat) (r : Req),
    let read := fun (x : Access) (o n : Nat) => BitVec.ofNat 128 (leNat (mgetList s.mem (r.pa + x.off + o) n))
    (r.kind = .load → s.homeFree k r →
      (r.splits = false → Answers (exec (.loadAtHome k) s) (fun t => t.mem = s.mem ∧
        Answered t k { r with readyAt := 0, vals := r.accs.map (fun x => (x.thread, read x 0 x.size)) } ∧
        (r.hint ≠ 2 → s.writeWaits r.pa = false →
          mget t.lease r.pa = max (mget s.lease r.pa) (s.time / 8 + leaseTicks r.hint)) ∧
        (r.hint = 2 → t.lease = s.lease ∧ t.l1 = s.l1))) ∧
      (r.splits = true → r.half = false → Answers (exec (.loadAtHome k) s) (fun t => t.mem = s.mem ∧ t.back = s.back ∧ t.lease = s.lease ∧
        let n := { r with half := true, vals := r.accs.map (fun x => (x.thread, read x 0 8)) }
        mget t.net k = n ∨ mget t.home k = n)) ∧
      (∀ x v, r.splits = true → r.half = true → r.accs = [x] → r.vals = [(x.thread, v)] →
        Answers (exec (.loadAtHome k) s) (fun t => t.mem = s.mem ∧
          Answered t k { r with readyAt := 0, vals := [(x.thread, v ||| (read x 8 8 <<< 64))] }))) ∧
    (r.kind = .load → mget s.net k = r → s.arrives k r = true → s.waitingAt r.pa = [] → r.dev = s.dev → s.poisoned r.pa = true →
      Answers (exec (.loadAtHome k) s) (fun t => t.mem = s.mem ∧ Answered t k { r with readyAt := 0, fail := 3, vals := [] })) ∧
    (∀ x, r.accs = [x] → r.kind = .store → s.homeFree k r →
      (s.leaseFree r.pa = true → r.splits = false → Answers (exec (.writeAtHome k) s) (fun t =>
        Holds s t (r.pa + x.off) x.size x.data.toNat ∧ mget t.net k = default ∧ mget t.home k = default ∧ (mget t.back k).fail = r.fail ∧
        mget t.seqs (lineOf r.pa) = mget s.seqs (lineOf r.pa) + 1)) ∧
      (s.leaseFree r.pa = true → r.splits = true → r.half = false → Answers (exec (.writeAtHome k) s) (fun t =>
        Holds s t (r.pa + x.off) 8 (x.data.toNat % 2 ^ 64) ∧ mget t.net k = default ∧ mget t.home k = { r with stamp := s.nextId, half := true } ∧
        t.back = s.back ∧ t.seqs = s.seqs)) ∧
      (s.leaseFree r.pa = false → Answers (exec (.writeAtHome k) s) (fun t =>
        t.mem = s.mem ∧ mget t.net k = default ∧ mget t.home k = { r with stamp := s.nextId }))) ∧
    (∀ x aop, r.accs = [x] → s.homeFree k r →
      let m := leNat (mgetList s.mem (r.pa + x.off) x.size)
      (r.kind = .atomic aop → x.size = 4 →
        let n := atomFn aop m x.data.toNat x.cmp.toNat
        (s.leaseFree r.pa = false → n ≠ m → Answers (exec (.atomicAtHome k) s) (fun t =>
          t.mem = s.mem ∧ t.back = s.back ∧ mget t.net k = default ∧ mget t.home k = { r with stamp := s.nextId })) ∧
        (s.leaseFree r.pa = true ∨ n = m → Answers (exec (.atomicAtHome k) s) (fun t =>
          Holds s t (r.pa + x.off) 4 n ∧ (mget t.back k).vals = [(x.thread, BitVec.ofNat 128 m)] ∧ (n = m → t.seqs = s.seqs)))) ∧
      (r.kind = .atomicW aop → x.size = 8 ∨ x.size = 16 →
        let n := atomwFn aop m x.data.toNat x.cmp.toNat
        (s.leaseFree r.pa = false → n ≠ m → Answers (exec (.atomicAtHome k) s) (fun t =>
          t.mem = s.mem ∧ t.back = s.back ∧ mget t.net k = default ∧ mget t.home k = { r with stamp := s.nextId })) ∧
        (s.leaseFree r.pa = true ∨ n = m → Answers (exec (.atomicAtHome k) s) (fun t =>
          Holds s t (r.pa + x.off) x.size n ∧ (mget t.back k).vals = [(x.thread, BitVec.ofNat 128 m)] ∧ (n = m → t.seqs = s.seqs))))) ∧
    (∀ a x, s.Tidy → s.leaseFree a = true → s.waitingAt (lineOf a) = [(k, r)] → r.kind = .store → r.accs = [x] → r.dev = s.dev →
      s.poisoned (lineOf a) = false → (r.splits = true → r.half = true) →
      let o := if r.splits then 8 else 0
      Answers (exec (.leaseExpiry a) s) (fun t =>
        Holds s t (lineOf a + x.off + o) (if r.splits then 8 else x.size) (x.data.toNat / 256 ^ o) ∧ mget t.home k = default ∧
        mget t.lease (lineOf a) = 0 ∧ ∀ e ∈ t.l1, e.line = lineOf a → s.time / 8 < e.expiry)) ∧
    (∀ a, s.leaseFree a = false → exec (.leaseExpiry a) s = .next s)

/-- R232, R227, R231, R300, R127, R304: LOAD_REPLY writes the values of the last reply and the strand goes on, or leaves its partial fault;
ACKNOWLEDGEMENT lowers the strand's count, or makes a store-fault record while the queue has room, none for a strand that TERM has ended (R291);
that of one copy of an MST waits for the others (R243). A line that L1 has answered passes no router port. Where the rules leave a point open,
the model's choice of log entries 88, 89 and 93 holds. -/
def Obligations.Replies : Prop :=
  ∀ (s : State) (k : Nat),
    let r := mget s.back k
    let st := s.strand r.crew r.strand
    let st1 := (st.writeReply r).writeReg (.o 7) (tagMask r.tags) (tagVal r.tags)
    let goes := fun (base : State) (f : Strand) (t : State) =>
      OnlyStrand { base with back := mset s.back k default } r.crew r.strand f t
    let router := s.useRouter (r.core / 12)
    ((r.kind = .load ∨ (∃ a, r.kind = .atomic a) ∨ ∃ a, r.kind = .atomicW a) → r.readyAt ≤ s.time → r.dropped = false → st.mem.live = true →
      (r.readyAt = 0 → s.replyHeld r = false) →
      let base := if r.readyAt = 0 then router else s
      (st.mem.left = 1 → st.mem.faults = 0 → r.fail = 0 →
        Answers (exec (.loadReply k) s) (goes base ({ st1 with mem := default, wait := .ready } : Strand).seq)) ∧
      (1 < st.mem.left → r.fail = 0 →
        Answers (exec (.loadReply k) s) (goes base { st1 with mem := { st.mem with left := st.mem.left - 1 } })) ∧
      (∀ x, st.mem.left = 1 → st.mem.faults = 0 → r.fail ≠ 0 → r.accs = [x] → x.thread < 32 →
        Answers (exec (.loadReply k) s) (goes base { st1 with
          mem := default, wait := .ready
          pending := some { cause := r.fail, code := 0, pend := 0, epc := st.pc, tval := x.va, replay := true, mask := 1#32 <<< x.thread } }))) ∧
    (r.kind = .store → s.replyHeld r = false → devOf r.pa = s.dev →
      (r.dropped = false → r.mst = 0 → r.tag = false → r.tags = [] →
        (r.fail = 0 → Answers (exec (.acknowledgement k) s) (goes router (st.unack (domOf r.core) (· - r.accs.length)))) ∧
        (∀ x, r.fail ≠ 0 → r.accs = [x] → st.ended = true → Answers (exec (.acknowledgement k) s) (goes router (st.unack (domOf r.core) (· - 1)))) ∧
        (∀ x, r.fail ≠ 0 → r.accs = [x] → st.ended = false → s.sfrqCount r.core < 64 →
          Answers (exec (.acknowledgement k) s) (fun t =>
            t.strand r.crew r.strand = st.unack (domOf r.core) (· - 1) ∧ t.mem = s.mem ∧
            mget t.sfrq s.nextId = { core := r.core, crew := r.crew, strand := r.strand, launch := (s.crew r.crew).launch, pc := r.pc
                                     va := x.va, cause := r.fail, z := r.z, stamp := s.time / 8, waiting := false }))) ∧
      (r.dropped = false → r.mst ≠ 0 → r.noted = false → (∃ e ∈ s.net, e.2.mst = r.mst ∧ e.2.dev = s.dev) →
        Answers (exec (.acknowledgement k) s) (fun t => t.crews = s.crews ∧ t.mem = s.mem ∧ mget t.back k = { r with noted := true })) ∧
      (r.dropped = true → Answers (exec (.acknowledgement k) s) (fun t => t.crews = s.crews ∧ t.mem = s.mem ∧ mget t.back k = default)))

namespace Sys2Proof.Machine

/-- The engine that makes a put: the domain of the descriptor's home slice (R241, R339). -/
def State.putEngine (s : State) (r : Req) : Nat := domEngine (s.homeSlice r.pa / 256)

/-- The descriptor of a put in a state of its run: it is at the address, right, its tables lie on this device, and the pages that the put uses have
been walked (R240, R241, R339). -/
structure PutDescAt (s : State) (k : Nat) (r : Req) (x : Access) (d : PutDesc) : Prop where
  there : s.poisoned r.pa = false ∧ putDesc (s.rdBytes r.pa 64) = some d ∧ s.channelsReady [r.pa] = true
  base : ∃ pa, s.engineXl (s.putEngine r) d.part d.space d.base 0 = .ok pa ∧ devOf pa = s.dev
  map : ∃ pa, s.engineXl (s.putEngine r) d.part d.space d.map 0 = .ok pa ∧ devOf pa = s.dev
  walked : s.pagesMissed (putToken_ k) (s.putEngine r) d.part d.space (d.ranges r x) = []

/-- A put that has come to its descriptor (R240, R241): nothing that must perform before it is on its way, the descriptor is right and of the strand's
own space, the token and the bytes lie in it, and its map entry, at `mpa`, can be read. -/
structure PutReady (s : State) (k : Nat) (once : Bool) (r : Req) (x : Access) (d : PutDesc) (mpa : Nat) : Prop where
  request : mget s.net k = r ∧ r.kind = .put once ∧ r.accs = [x] ∧ r.vals = [] ∧ r.dev = s.dev ∧ devOf r.pa = s.dev ∧ r.hint = 1 ∧
    r.left = true ∧ r.row = 0 ∧ r.pa % 64 = 0
  first : s.putBehind k r = false
  here : r.stamp ≠ 0 ∨ (s.behind k r = false ∧ s.bridgeHolds r = false ∧ s.routerReady (s.routerPort r) = true)
  desc : PutDescAt s k r x d
  mine : d.part = r.part ∧ d.space = r.space
  bounds : x.cmp.toNat < d.ntok ∧ x.off + x.size ≤ d.row
  entry : s.engineXl (s.putEngine r) d.part d.space (d.map + 4 * x.cmp.toNat) (permR + permW) = .ok mpa ∧ devOf mpa = s.dev ∧
    s.poisoned mpa = false ∧ s.channelsReady [lineOf mpa] = true

/-- The put's row `n` can be written, at `pa` (R241). -/
structure RowReady (s : State) (k : Nat) (r : Req) (x : Access) (d : PutDesc) (n pa : Nat) : Prop where
  desc : PutDescAt s k { r with row := n + 1 } x d
  place : s.engineXl (s.putEngine r) d.part d.space (d.base + n * d.row + x.off) permW = .ok pa ∧ devOf pa = s.dev
  free : s.poisoned pa = false ∧ s.mayWriteBy (putToken_ k) (linesOf pa x.size) = true ∧ s.channelsReady (linesOf pa x.size) = true

/-- The state after a first put has claimed the next row (R241). -/
def State.rowClaimed (s : State) (k : Nat) (r : Req) (d : PutDesc) (mpa : Nat) : State :=
  (((s.touchSlice r).putWrite (r.pa + 32) (leBytes 4 (d.count + 1))).putWrite mpa (leBytes 4 d.count)).unqueue (putToken_ k) (fun _ => true)

/-- The put has been made, with an outcome, and memory is as in `m`: it is acknowledged (R241). -/
def PutMade (s : State) (k : Nat) (r : Req) (x : Access) (out : Nat) (m : State) : Prop :=
  Answers (exec (.putAtDescriptor k) s) (fun t => t.mem = m.mem ∧
    Answered t k { r with readyAt := 0, stamp := k + 1, vals := [(x.thread, BitVec.ofNat 128 (out + 256 * x.cmp.toNat))] })

end Sys2Proof.Machine

/-- R241, R240: a first put of a token takes the next row: COUNT rises, the map entry names the row, the data go into the row; with no row left the
entry says refused and REFUSED rises, and a later put of the token finds it so and writes nothing; a put to a token that has its row writes
there, or, as one of a kind that is made once, only raises DUPS. R102, R239: an exchange store writes the target's shadow bank and counts its
bytes; one to a crew that is lost is discarded and acknowledged, one to a crew that is still to be placed waits. Where the rules leave a point
open, the model's choice of log entries 9, 19, 55 and 89 holds. -/
def Obligations.PutsAndExchangeStores : Prop :=
  (∀ (s : State) (k : Nat) (once : Bool) (r : Req) (x : Access) (d : PutDesc) (mpa : Nat), PutReady s k once r x d mpa →
    let e := s.rdNat mpa 4
    (e = 0xFFFFFFFF → s.mayWriteBy (putToken_ k) (lineOf r.pa :: linesOf mpa 4) = true →
      (d.count < d.cap → d.weir = 0 →
        let s2 := s.rowClaimed k r d mpa
        ∀ pa, RowReady s2 k r x { d with count := d.count + 1 } d.count pa → PutMade s k r x 0 (s2.wrEngine pa (leBytes x.size x.data.toNat))) ∧
      (d.cap ≤ d.count → PutMade s k r x 1 ((s.wrEngine mpa (leBytes 4 0xFFFFFFFE)).wrEngine (r.pa + 36) (leBytes 4 (d.refused + 1))))) ∧
    (e = 0xFFFFFFFE → PutMade s k r x 2 s) ∧
    (e < d.cap → d.cap ≤ 2 ^ 24 →
      (once = false → d.weir = 0 → ∀ pa, RowReady (s.unqueue (putToken_ k) (fun _ => true)) k r x d e pa → PutMade s k r x 0 (s.wrEngine pa (leBytes x.size x.data.toNat))) ∧
      (once = true → s.mayWriteBy (putToken_ k) [lineOf r.pa] = true →
        PutMade s k r x 3 (s.wrEngine (r.pa + 40) (leBytes 4 (d.dups + 1)))))) ∧
  (∀ (s : State) (k rank : Nat) (x : Access), let r := mget s.net k
    r.kind = .stx rank → r.accs = [x] → r.dev = s.dev → s.bridgeDown = false →
    (∀ e ∈ s.net, e.1 < k → ¬(e.2.crew = r.crew ∧ e.2.strand = r.strand ∧ e.2.kind = .stx rank)) →
    (∀ u, s.crewOfRank r.x rank = some u →
      Answers (exec (.stxAtTarget k) s) (fun t =>
        let c := s.crew u
        let n := t.crew u
        n.cx = c.cx + x.size ∧
        (∀ i < x.size, n.abByte (c.shadowIndex (x.off + i)) = BitVec.ofNat 8 (x.data.toNat / 256 ^ i)) ∧
        (∀ p, (∀ i < x.size, p ≠ c.shadowIndex (x.off + i)) → n.abByte p = c.abByte p) ∧
        n.strand = c.strand ∧ n.swapped = c.swapped ∧ (∀ v, v ≠ u → t.crew v = s.crew v) ∧ t.mem = s.mem ∧
        Answered t k { r with readyAt := 0 })) ∧
    (s.crewOfRank r.x rank = none → s.rankComes r.x rank = false →
      Answers (exec (.stxAtTarget k) s) (fun t => t.crews = s.crews ∧ t.mem = s.mem ∧ Answered t k { r with readyAt := 0 })) ∧
    (s.crewOfRank r.x rank = none → s.rankComes r.x rank = true → exec (.stxAtTarget k) s = .next s))

/-! Steps of engine operations. -/

namespace Sys2Proof.Machine

/-- The operation with handle k has resolved with a status, a cause and a detail (R249). -/
def Resolved (k status cause detail : Nat) (t : State) : Prop :=
  mget t.ops k = default ∧ mget t.results k = some (mkResult status cause detail)

/-- The pages that a step of an engine operation uses have been walked, for an engine of a core (R339). -/
def State.pagesWalked (s : State) (k : Nat) (op : Op) (ranges : List (Nat × Nat)) : Prop :=
  op.core < coreCount ∧ s.pagesMissed (opToken k) op.core op.part op.space ranges = []

/-- A unit of a copy may move: the crew runs, nothing has ended the copy, every unit before it is done, what it needs is awake, the activation buffer
has room for it, and it writes to no other device (R100, R250, R259, R274, R312, R378). -/
structure UnitReady (s : State) (k fn : Nat) (op : Op) (x : CopyShape) (u : Nat) : Prop where
  started : op.kind = .copy fn ∧ op.started = true ∧ op.copyShape fn = x ∧ op.cancel = false ∧ op.orphan = false ∧ op.away = 0
  crew : (s.crew op.crew).resident = true ∧ (s.crew op.crew).suspends = false
  turn : u < x.units ∧ mget op.units u = false ∧ 0 < (x.unit u).2.2 ∧ ∀ v < u, op.unitDone x v = true
  room : usesAb fn = true → s.abRoom op.core (x.unit u).2.2 = true
  walked : s.pagesWalked k op (s.copyRanges op x u)
  awake : s.copyAwake op x u = true
  near : s.copyTarget op x u = none

/-- Its pages are in the TLB, and no byte that it writes was written by an earlier row. -/
def UnitSure (s : State) (k : Nat) (x : CopyShape) (u : Nat) : Prop :=
  (∀ e ∈ s.engineFaults, e.1 ≠ opToken k) ∧
  ∀ i < (x.unit u).2.2, x.contested (x.unit u).1 (x.dest (x.unit u).1 + (x.unit u).2.1 + i) = false

/-- Units of the copy that are left once unit u is done. -/
def unitsLeft (op : Op) (x : CopyShape) (u : Nat) : Prop := ∃ v < x.units, v ≠ u ∧ mget op.units v = false ∧ 0 < (x.unit v).2.2

/-- Unit u is done: the operation notes it, or resolves as DONE with the last. -/
def UnitDone (k : Nat) (op : Op) (x : CopyShape) (u : Nat) (t : State) : Prop :=
  (unitsLeft op x u → mget t.ops k = { op with units := mset op.units u true, starved := false, heldAt := 0 }) ∧
  (¬unitsLeft op x u → Resolved k 0 0 0 t)

/-- Every crew is as before, but for the end of its TLD and TST, which a copy can put off (R100). -/
def CrewsKept (s t : State) : Prop := ∀ v, { t.crew v with tileBusy := [] } = { s.crew v with tileBusy := [] }

/-- Unit u has written the bytes `l i` to memory at `pa` and nothing else. -/
def UnitWrites (s : State) (k : Nat) (op : Op) (x : CopyShape) (u pa : Nat) (l : Nat → Byte) : Prop :=
  let n := (x.unit u).2.2
  Answers (exec (.copyCompletion k u) s) (fun t =>
    (∀ i < n, mget t.mem (pa + i) = l i) ∧ (∀ a, a < pa ∨ pa + n ≤ a → mget t.mem a = mget s.mem a) ∧ CrewsKept s t ∧ UnitDone k op x u t)

/-- The destination of unit u, `n` bytes from `va` on, is the physical range from `pa` on, in one page of this device, free to be written. -/
def UnitPlace (s : State) (k : Nat) (op : Op) (va n pa : Nat) : Prop :=
  s.engineXl op.core op.part op.space va permW = .ok pa ∧ devOf pa = s.dev ∧ va / 2 ^ 16 = (va + n - 1) / 2 ^ 16 ∧
    s.mayWriteBy (opToken k) (linesOf pa n) = true ∧ ∀ i < n, s.poisoned (pa + i) = false

end Sys2Proof.Machine

/-- R257, R258, R259, R260: COPY_COMPLETION resolves a copy with bad words or a bad shape as BAD_SHAPE and one of no bytes as DONE, with no write,
and one whose shape record cannot be read as FAULT; starts any other; and moves a unit of each form: the bytes of G2A and GATH, whose index all
ones gives zeros, to the activation buffer, those of A2G, TCPY and C2G to memory, the records of G2C to the cistern. The last unit resolves it as
DONE, while an address that cannot be read resolves it as FAULT with the granule. Where the rules leave a point open, the model's choice of log
entries 29, 48 and 72 holds. -/
def Obligations.CopySteps : Prop :=
  ∀ (s : State) (k fn : Nat), k < 2 ^ 64 →
    let op := mget s.ops k
    let c := s.crew op.crew
    op.kind = .copy fn →
    (op.started = false → op.orphan = false → c.resident = true → c.suspends = false → (∀ e ∈ s.earlierOps k, e.2.started = true) →
      let begins := fun (op1 : Op) (x : CopyShape) =>
        let bad := x.bad (copyShaped op.c) (copyBytes op.c) c.view (s.launchOf op.launchId).record.cistern
        (bad = true ∨ s.copyWeirBad op = true → Answers (exec (.copyCompletion k 0) s) (fun t => Resolved k 2 0 0 t ∧ t.mem = s.mem ∧ t.crews = s.crews)) ∧
        (bad = false → s.copyWeirBad op = false →
          (copyBytes op.c = 0 → Answers (exec (.copyCompletion k 0) s) (fun t => Resolved k 0 0 0 t ∧ t.mem = s.mem ∧ t.crews = s.crews)) ∧
          (0 < copyBytes op.c → Answers (exec (.copyCompletion k 0) s) (fun t =>
            mget t.ops k = { op1 with started := true } ∧ t.mem = s.mem ∧ t.crews = s.crews ∧ t.results = s.results)))
      (copyWordBad fn op = true → Answers (exec (.copyCompletion k 0) s) (fun t =>
        Resolved k 2 0 0 t ∧ t.mem = s.mem ∧ t.crews = s.crews ∧ t.cores = s.cores)) ∧
      (copyWordBad fn op = false → copyShaped op.c = false →
        begins op (flatShape fn op) ∧ (op.a.toNat % 4 ≠ 0 → (flatShape fn op).bad false (copyBytes op.c) c.view (s.launchOf op.launchId).record.cistern = true)) ∧
      (copyWordBad fn op = false → copyShaped op.c = true → s.pagesWalked k op [(op.a.toNat, 32)] →
        s.wayOpen op.core (s.virtLines op.core op.part op.space op.a.toNat 32 permR) = true →
        (∀ l, s.rdVirt op.core op.part op.space op.a.toNat 32 = .ok l → begins { op with shape := l } (recordShape fn op l)) ∧
        (∀ cause o, s.rdVirt op.core op.part op.space op.a.toNat 32 = .fault cause o →
          Answers (exec (.copyCompletion k 0) s) (fun t => Resolved k 3 cause 0 t ∧ t.mem = s.mem ∧ t.crews = s.crews)))) ∧
    (∀ x u, UnitReady s k fn op x u →
      let row := (x.unit u).1
      let lo := (x.unit u).2.1
      let n := (x.unit u).2.2
      let rd := s.rdVirt op.core op.part op.space
      let buffers := fun (l : List Byte) => Answers (exec (.copyCompletion k u) s) (fun t =>
        { t.crew op.crew with tileBusy := [] } = { c.abWrite (x.abOffset row + lo) l with tileBusy := [] } ∧
        (∀ v, v ≠ op.crew → { t.crew v with tileBusy := [] } = { s.crew v with tileBusy := [] }) ∧ t.mem = s.mem ∧ UnitDone k op x u t)
      (UnitSure s k x u →
        (fn = 0 → ∀ l, rd (x.rowAddr row + lo) n = .ok l → buffers l) ∧
        (fn = 4 → ∀ i, rd (x.aux + 4 * row) 4 = .ok i →
          (leNat i = 0xFFFFFFFF → buffers (List.replicate n 0)) ∧
          (leNat i ≠ 0xFFFFFFFF → ∀ l, rd (addr64 ((x.addr : Int) + leNat i * x.gstride) + lo) n = .ok l → buffers l)) ∧
        (fn = 1 → ∀ pa, UnitPlace s k op (x.rowAddr row + lo) n pa →
          UnitWrites s k op x u pa (fun i => c.abByte (c.abIndex (x.abOffset row + lo + i)))) ∧
        (fn = 3 → ∀ l pa, rd (x.rowAddr row + lo) n = .ok l → UnitPlace s k op (x.auxAddr row + lo) n pa →
          (∀ i < n, x.hits (x.rowAddr row + lo + i) = false) → UnitWrites s k op x u pa (fun i => l.getD i 0)) ∧
        (fn = 5 → x.rowb = 256 ∨ x.rowb = 512 → ∀ pa, UnitPlace s k op (x.dest row + lo) n pa →
          let cl := s.claimOf op.core op.launchId
          let bytes := if row < x.rows then s.cisternRow x op.core cl row else s.cisternScales x op.core cl (row - x.rows)
          UnitWrites s k op x u pa (fun i => bytes.getD (lo + i) 0))) ∧
      (fn = 2 → ∀ (rows : Nat → List Byte) (scales : List Byte),
          (∀ i < 16, rd (x.rowAddr (16 * u + i)) x.rowb = .ok (rows i)) →
          (if x.aux = 0 then scales = List.replicate 256 0x7F else rd (x.auxAddr u) 256 = .ok scales) →
          let key := fun (e : Nat × Nat × BitVec 136) => 256 * ((s.claimOf op.core op.launchId).base + x.loc + u * x.wide + e.1) + e.2.1
          let recs := blockRecords x ((List.range 16).map rows) scales
          Answers (exec (.copyCompletion k u) s) (fun t =>
            (∀ e ∈ recs, mget (t.core op.core).cistern (key e) = some e.2.2) ∧
            (∀ p, (∀ e ∈ recs, p ≠ key e) → mget (t.core op.core).cistern p = mget (s.core op.core).cistern p) ∧
            t.crews = s.crews ∧ t.mem = s.mem ∧ UnitDone k op x u t)) ∧
      (∀ cause off, x.offset u % 4096 + off < 4096 →
        (fn = 0 ∨ fn = 3 → rd (x.rowAddr row + lo) n = .fault cause off →
          Answers (exec (.copyCompletion k u) s) (fun t =>
            Resolved k 3 cause ((x.offset u + off) / 4096 * 4096) t ∧ t.mem = s.mem ∧ t.crews = s.crews))))

/-- R79, R81, R82, R265, R264: MMA_COMPLETION, once the array is free and the cycles are over, updates every element of a plain accumulator by the
block results of its row and column, or offers them to the lists of a ranked one, and resolves as DONE; an MMA whose bound is below every
threshold counts in MXSKIP and resolves as SKIPPED. R21, R83, R270, R82: READ_OUT_DONE takes the accumulator out of the array and leaves it as it
is, or resolves a misaligned tile as BAD_SHAPE; SEGMENT_ARRIVAL changes no memory while a segment is missing; with the last one the commit takes
its place at its lines, and a segment whose turn has come there is applied by itself (R108): a plain one adds its elements with RNE, or replaces
them, a ranked one merges or replaces its lists; ACOMMIT_COMPLETION resolves as DONE once every segment has been applied. R271: ALOAD_COMPLETION
fills the accumulator from the home tile and resolves as DONE; a misaligned address or one with bit 0 set resolves as BAD_SHAPE, and a tile that
cannot be read as FAULT, with the accumulator as it was. Where the rules leave a point open, the model's choice of log entries 28, 46, 47 and 81
holds. -/
def Obligations.ArraySteps : Prop :=
  (∀ (s : State) (k : Nat) (f : FX), k < 2 ^ 64 →
     let op := mget s.ops k
     let c := s.crew op.crew
     let form := c.accForm f.acc.val
     let slotA := s.slotOf c f.slotA.val
     let slotB := s.slotOf c f.slotB.val
     op.kind = .mma f → s.arrayTurn k = true →
     (mmaSkips f c (BitVec.ofNat 32 (nbits op.a.toNat 32 32)) = true →
       Answers (exec (.mmaCompletion k) s) (fun t => Resolved k 1 0 0 t ∧ t.crews = s.crews ∧ t.mem = s.mem ∧
         t.core op.core = { s.core op.core with mxskip := (s.core op.core).mxskip + 1 })) ∧
     (mmaSkips f c (BitVec.ofNat 32 (nbits op.a.toNat 32 32)) = false → form.ranked = false →
       s.mmaEnd op (mmaCycles false (slotPlanes slotB)) ≤ s.time →
       Answers (exec (.mmaCompletion k) s) (fun t => Resolved k 0 0 0 t ∧ t.mem = s.mem ∧
         (∀ i < 128, ∀ j < 256,
           let old := if f.z then 0 else ((mflat 0 256 (c.accRow f.acc.val i)).getD j 0).toNat
           let a := (mmaRows slotA (mflat 0 tileSize (c.tileBytes f.tile.val))).getD i []
           let b := bBlocks slotB f.w (fun n => s.cisternRec op.core (s.claimOf op.core op.launchId) (nbits op.a.toNat 0 32 + n) j)
           mget (t.crew op.crew).acc (32768 * f.acc.val + 256 * i + j) =
             BitVec.ofNat 32 (mmaElem old a b (planeWeight (if f.w then 16 else 8) (slotPlanes slotB) (nbit slotB.toNat 8))).1) ∧
         (mwf c.acc = true → ∀ p, p < 32768 * f.acc.val ∨ 32768 * (f.acc.val + 1) ≤ p → mget (t.crew op.crew).acc p = mget c.acc p) ∧
         (t.crew op.crew).tile = c.tile ∧ (t.core op.core).cistern = (s.core op.core).cistern)) ∧
     (mmaSkips f c (BitVec.ofNat 32 (nbits op.a.toNat 32 32)) = false → form.ranked = true → s.mmaEnd op 256 ≤ s.time →
       Answers (exec (.mmaCompletion k) s) (fun t => Resolved k 0 0 0 t ∧ t.mem = s.mem ∧
         (∀ i < 128,
           let a := (mmaRows slotA (mflat 0 tileSize (c.tileBytes f.tile.val))).getD i []
           let b := fun j => bBlocks slotB f.w (fun n => s.cisternRec op.core (s.claimOf op.core op.launchId) (nbits op.a.toNat 0 32 + n) j)
           let v := fun j => BitVec.ofNat 32
             (mmaElem 0 a (b j) (planeWeight (if f.w then 16 else 8) (slotPlanes slotB) (nbit slotB.toNat 8))).1
           (t.crew op.crew).rankRow f.acc.val i =
             (rankOffers form.len (if f.z then [] else c.rankRow f.acc.val i) (rowOffers form.base v)).1) ∧
         (t.crew op.crew).acc = c.acc ∧ (t.crew op.crew).tile = c.tile))) ∧
  (∀ (s : State) (k a : Nat), k < 2 ^ 64 →
     let op := mget s.ops k
     let c := s.crew op.crew
     let form := c.accForm a
     op.kind = .acommit a →
     (op.readOut = false → s.arrayTurn k = true →
       (homeAddr op.a % tileBytesOf form.ranked ≠ 0 →
         Answers (exec (.readOutDone k) s) (fun t => Resolved k 2 0 0 t ∧ t.mem = s.mem ∧ t.crews = s.crews)) ∧
       (∀ p ps, homeAddr op.a % tileBytesOf form.ranked = 0 → s.tileXl op form.ranked (permR + permW) = (.ok p, ps) →
         s.pagesWalked k op [(homeAddr op.a, tileBytesOf form.ranked)] →
         s.arrayEnd op (if form.ranked then 64 else 256) ≤ s.time → s.bufferedSegs op.core + tileSegs form.ranked ≤ 64 →
         Answers (exec (.readOutDone k) s) (fun t => t.mem = s.mem ∧ t.crews = s.crews ∧ t.results = s.results ∧
           mget t.ops k = { op with readOut := true, frames := ps, form := form, data := mslice c.acc (32768 * a) 32768
                                    lists := mslice c.ranked (128 * a) 128 }))) ∧
     (∀ seg, op.readOut = true → op.orphan = false → seg < tileSegs op.form.ranked → s.bridgeDown = false →
       s.routerReady (op.core / 12) = true →
       ((∃ g < tileSegs op.form.ranked, g ≠ seg ∧ mget op.units g = false) →
         Answers (exec (.segmentArrival k seg) s) (fun t => t.mem = s.mem ∧ t.crews = s.crews ∧ t.results = s.results ∧
           mget t.ops k = { op with units := mset op.units seg true })) ∧
       (mget op.units seg = false → (∀ g < tileSegs op.form.ranked, g ≠ seg → mget op.units g = true) →
         let op1 := { op with units := mset op.units seg true }
         let s1 : State := { s.useRouter (op.core / 12) with ops := mset s.ops k op1 }
         (s1.commitPoisoned op1 = true → Answers (exec (.segmentArrival k seg) s) (fun t => Resolved k 3 3 0 t ∧ t.mem = s.mem)) ∧
         (s1.commitPoisoned op1 = false →
           Answers (exec (.segmentArrival k seg) s) (fun t =>
             t = (s1.queueWrite (opToken k) op.core s.dev ((List.range (tileSegs op.form.ranked)).flatMap op1.segmentDest)).applySegment k seg)))) ∧
     (∀ seg, op.readOut = true → seg < tileSegs op.form.ranked → (∀ g < tileSegs op.form.ranked, mget op.units g = true) →
       Answers (exec (.segmentArrival k seg) s) (fun t => t = s.applySegment k seg)) ∧
     (∀ seg, op.readOut = true → op.orphan = true → op.lostAt ≠ s.time + 1 → seg < tileSegs op.form.ranked →
       (∃ g < tileSegs op.form.ranked, mget op.units g = false) →
       Answers (exec (.segmentArrival k seg) s) (fun t => Resolved k 5 0 0 t ∧ t.mem = s.mem)) ∧
     (∀ seg, op.form.ranked = true → op.form.len ≤ 32 → mget op.applied seg = false → s.mayWriteBy (opToken k) (op.segmentDest seg) = true →
       s.channelsReady (op.segmentDest seg) = true →
       let pa := op.segmentPa seg
       let t := s.applySegment k seg
       (∀ i < 16,
         slotPairs (mgetList t.mem (pa + 256 * i) 256) =
           (rankedRow op.form (op.a.getLsbD 0) (mget op.lists (16 * seg + i)) (slotPairs (mgetList s.mem (pa + 256 * i) 256))).1) ∧
       (∀ p, p < pa ∨ pa + 4096 ≤ p → mget t.mem p = mget s.mem p) ∧ mget (mget t.ops k).applied seg = true) ∧
     (∀ seg, op.form.ranked = false → mget op.applied seg = false → s.mayWriteBy (opToken k) (op.segmentDest seg) = true →
       s.channelsReady (op.segmentDest seg) = true →
       let pa := op.segmentPa seg
       let t := s.applySegment k seg
       (∀ i < 1024,
         let x := (mget op.data (1024 * seg + i)).toNat
         let old := leNat (mgetList s.mem (pa + 4 * i) 4)
         leNat (mgetList t.mem (pa + 4 * i) 4) = (if op.a.getLsbD 0 then x else (add32 old x).1) % 2 ^ 32) ∧
       (∀ p, p < pa ∨ pa + 4096 ≤ p → mget t.mem p = mget s.mem p) ∧ mget (mget t.ops k).applied seg = true) ∧
     (∀ seg, s.mayWriteBy (opToken k) (op.segmentDest seg) = false → s.applySegment k seg = s) ∧
     (op.readOut = true → (∀ g < tileSegs op.form.ranked, mget op.applied g = true) →
       Answers (exec (.acommitCompletion k) s) (fun t => Resolved k (if op.orphan then 5 else 0) 0 0 t ∧ t.mem = s.mem ∧ t.crews = s.crews ∧
         t.core op.core = { s.core op.core with mxnan := (s.core op.core).mxnan + (if op.refusedNan then 1 else 0) }))) ∧
  (∀ (s : State) (k a : Nat), k < 2 ^ 64 →
     let op := mget s.ops k
     let c := s.crew op.crew
     let n := tileBytesOf (c.accForm a).ranked
     op.kind = .aload a → s.arrayTurn k = true →
     (op.a.toNat % n ≠ 0 → Answers (exec (.aloadCompletion k) s) (fun t => Resolved k 2 0 0 t ∧ t.crews = s.crews ∧ t.mem = s.mem)) ∧
     (op.a.toNat % n = 0 → s.pagesWalked k op [(op.a.toNat, n)] →
       (∀ cause off, s.rdVirt op.core op.part op.space op.a.toNat n = .fault cause off →
         Answers (exec (.aloadCompletion k) s) (fun t => Resolved k 3 cause 0 t ∧ t.crews = s.crews ∧ t.mem = s.mem)) ∧
       (∀ b, s.rdVirt op.core op.part op.space op.a.toNat n = .ok b → s.arrayEnd op 0 ≤ s.time →
         s.wayOpen op.core (s.virtLines op.core op.part op.space op.a.toNat n permR) = true →
         ((c.accForm a).ranked = false → Answers (exec (.aloadCompletion k) s) (fun t => Resolved k 0 0 0 t ∧ t.mem = s.mem ∧
           (∀ i < 32768, mget (t.crew op.crew).acc (32768 * a + i) = BitVec.ofNat 32 (leNat ((b.drop (4 * i)).take 4))) ∧
           (mwf c.acc = true → ∀ p, p < 32768 * a ∨ 32768 * (a + 1) ≤ p → mget (t.crew op.crew).acc p = mget c.acc p))) ∧
         ((c.accForm a).ranked = true → Answers (exec (.aloadCompletion k) s) (fun t => Resolved k 0 0 0 t ∧ t.mem = s.mem ∧
           (∀ i < 128, (t.crew op.crew).rankRow a i =
             (rankOffers (c.accForm a).len []
               ((slotPairs ((b.drop (256 * i)).take 256)).filter (fun p => decide (p ≠ (0xFFFFFFFF, 0xFFFFFFFF))))).1) ∧
           (t.crew op.crew).acc = c.acc)))))

/-! Launches and crews. -/

/-- R40, R322, R324, R249: CREW_RETIRE frees a drained crew and counts it, and with its launch's last crew the launch completes; DLQ_TAKE removes the
oldest record of the domain, accepting it or reporting BAD_RECORD; HOST_QUEUE_ACCEPT accepts the record at GET and raises GET by 1; an accepted
record becomes a live launch with a nonzero 32-bit id of its own and, with WGROUP 0, a group that no live launch of the partition holds. Where
the rules leave a point open, the model's choice of log entries 12, 40, 41, 65, 97, 98 and 99 holds. -/
def Obligations.LaunchesAndRetirement : Prop :=
  (∀ (s : State) (k : Nat), s.Tidy →
    let c := s.crew k
    let l := c.launch
    let x := s.launchOf l
    c.retiring = true → crewDrained s k = true → (∀ e ∈ s.sfrq, e.2.crew ≠ k) → x.state = 1 →
    ((∃ v, v ≠ k ∧ (s.crew v).launch = l) → l ≠ 0 → Answers (exec (.crewRetire k) s) (fun t =>
      t.crew k = default ∧ (∀ v, v ≠ k → t.crew v = s.crew v) ∧ t.launchOf l = { x with retired := x.retired + 1 } ∧ t.mem = s.mem)) ∧
    ((∀ v, v ≠ k → (s.crew v).launch ≠ l) → l ≠ 0 → x.cut = false → x.record.crewCount ≤ x.retired + 1 → x.restarts = [] →
      x.record.compl = 0 → Answers (exec (.crewRetire k) s) (fun t =>
        t.crew k = default ∧ (∀ v, v ≠ k → t.crew v = s.crew v) ∧ (t.launchOf l).state = 2 ∧ t.mem = s.mem ∧
        (x.fut ≠ 0 → mget t.results x.fut.toNat = some (mkResult x.ending x.endCode x.endDetail))))) ∧
  (∀ (s : State) (part space : Nat) (b : List Byte) (fut : Word64) (q : Nat),
    s.recordBad part b = false → (mget s.asroot (16 * part + space)).getLsbD 0 = true → s.noFit part (launchRec b) = false →
    ∃ g n, ((launchRec b).wgroup ≠ 0 → g = (launchRec b).wgroup) ∧
      ((launchRec b).wgroup = 0 → 0x800000 ≤ g ∧ s.groupLive part g = false) ∧
      1 ≤ launchIdAt n ∧ launchIdAt n < 2 ^ 32 ∧ s.nextLaunch ≤ n ∧
      (1 ≤ s.nextLaunch → s.launches.length < 2 ^ 32 - 1 → (s.launchOf (launchIdAt n)).state ≠ 1) ∧
      s.acceptRecord part space b fut q = some { s.setLaunch (launchIdAt n) { (default : Launch) with
        state := 1, accepted := n, part := part, space := space, record := launchRec b, group := g, fut := fut, queue := q } with
        nextLaunch := n + 1, firstBound := mset s.firstBound (launchIdAt n) false }) ∧
  (∀ (s : State) (k n : Nat) (e : DlqEntry), s.dlq.find? (fun e => decide (e.2.dom = k)) = some (n, e) →
    (∀ d ∈ s.dlq, d.2.dom = k → d.2.cancelled = false) →
    (∀ s1, s.acceptRecord e.part e.space e.bytes e.handle 0 = some s1 →
      Answers (exec (.dlqTake k) s) (fun t => t = { s1 with dlq := mset s1.dlq n default })) ∧
    (s.recordBad e.part e.bytes = true → (launchRec e.bytes).compl = 0 → e.handle ≠ 0 →
      Answers (exec (.dlqTake k) s) (fun t => mget t.dlq n = default ∧ t.launches = s.launches ∧ t.mem = s.mem ∧
        mget t.results e.handle.toNat = some (mkResult 2 0 0)))) ∧
  (∀ (s s1 s2 : State) (k : Nat) (h b : List Byte),
    let w1 := (mget s.hostq (8 * k + 1)).toNat
    let addr := (mget s.hostq (8 * k)).toNat
    let put := field h 0 4
    let get := field h 4 4
    let cap := field h 8 4
    addr ≠ 0 → mget s.cxlDown (w1 / 256 % 2) = false → s.bootstat.toNat % 16 = 8 →
    s.rdVirt noCore (k / 16) (w1 % 16) addr 12 = .ok h → put ≠ get → 0 < cap → cap ≤ 4096 →
    s.rdVirt noCore (k / 16) (w1 % 16) (addr + 64 + 256 * (get % cap)) 256 = .ok b →
    s.acceptRecord (k / 16) (w1 % 16) b 0 (k + 1) = some s1 →
    s1.wrVirt noCore (k / 16) (w1 % 16) (addr + 4) (leBytes 4 (get + 1)) = .ok s2 →
    Answers (exec (.hostQueueAccept k) s) (fun t => t = s2))

namespace Sys2Proof.Machine

/-- The machine once core k has created crew i of stage g of a launch under its slot j, the launch claimed in s1. -/
def State.placed (s1 : State) (k j : Nat) (b : Slot) (g i : Nat) (ch : Option Nat) (ctxs : List (Nat × List Nat)) : State :=
  { s1.setLaunch b.launch ((s1.launchOf b.launch).take g i ch) with slots := mset s1.slots (8 * k + j) b.count }.createCrew b.launch k g i ctxs

end Sys2Proof.Machine

/-- R329, R39, R281, R55, R69: CREW_PLACEMENT under the first slot that may place a crew creates it on the core with the state of R39: every strand
at the launch's entry, at privilege level 0, all 32 threads active, MR = 0, every V, O, uniform and predicate register zero, no latch, future
mark, stack, loop, join or wait, TCAUSE, TEPC, TVAL and TMASK zero, the stochastic states seeded; tiles and accumulators zero and plain, no
barrier or exchange arrival; the AB's bytes are free values. QUOTA falls unless unlimited, PLACED rises, and no other crew changes. Where the
rules leave a point open, the model's choice of log entries 12 and 105 holds. -/
def Obligations.CrewPlacement : Prop :=
  ∀ (s s1 : State) (k j g i : Nat) (ch : Option Nat) (ctxs : List (Nat × List Nat)),
    let b := mget s.slots (8 * k + j)
    let r := (s1.launchOf b.launch).record
    k < 768 → s.fenced (k / 12) = false → (List.range 8).find? (s.slotPlaces k) = some j →
    s.resuming b.launch k = none → s.supply b.launch k = some (g, i, ch) →
    s.fits b.launch k = some ctxs → (s.firstBind b.launch).claim b.launch k false = some s1 →
    (s1.placed k j b g i ch ctxs).allBound b.launch = true →
    Answers (exec (.crewPlacement k) s) (fun t =>
      let n := t.crew s1.nextId
      let d := mget t.slots (8 * k + j)
      n.launch = b.launch ∧ n.resident = true ∧ n.core = k ∧ n.stage = g ∧ n.index = i ∧ n.abuf = [] ∧ n.preempt = 0 ∧ n.retiring = false ∧
      n.weaves = r.weaves ∧ n.strands = r.strands ∧ n.vgran = r.vgran ∧ n.tiles = r.tiles ∧ n.accs = r.accs ∧ n.ab = r.ab ∧ n.xwin = r.xwin ∧
      n.tile = [] ∧ n.acc = [] ∧ n.form = [] ∧ n.ranked = [] ∧ n.swapped = false ∧ n.cbar = [] ∧ n.passed = [] ∧ n.xarr = [] ∧ n.xmax = [] ∧
      n.cx = 0 ∧ n.tileBusy = [] ∧ n.foldBusy = [] ∧
      (∀ w < r.weaves, ∀ x < r.strands, let st := t.strand s1.nextId (strandKey w x)
        st.pc = r.code.setWidth 57 ∧ st.amask = 0xFFFFFFFF ∧ st.live = 0xFFFFFFFF ∧ st.handler = false ∧ st.mr = 0 ∧ st.stack = [] ∧
        st.loops = [] ∧ st.flags = 0 ∧ st.lvalid = 0 ∧ st.f = 0 ∧ st.v = [] ∧ st.o = [] ∧ st.s = [] ∧ st.p = [] ∧ st.joins = [] ∧
        st.tcause = 0 ∧ st.tepc = 0 ∧ st.tval = 0 ∧ st.tmask = 0 ∧ st.wait = .ready ∧ st.replaying = false ∧ st.unacked0 = 0 ∧ st.unacked1 = 0) ∧
      (r.strands ≤ 16 → ∀ w < r.weaves, ∀ x < r.strands, ∀ h < 32,
        mget (t.strand s1.nextId (strandKey w x)).sto h = seedSto 0 h x w) ∧
      (∀ u, u ≠ s1.nextId → t.crew u = s1.crew u) ∧ t.mem = s1.mem ∧
      d = { b with quota := if b.quota = 0xFFFFFFFF then b.quota else b.quota - 1, placed := (b.placed + 1) % 2 ^ 32 })

/-- R312, R313: PREEMPTION_REQUEST marks the crew, so that it issues nothing more; CREW_SAVE, once the crew is stable, writes its save area and
releases its place, the latches of sub-gangs that have split lost; CREW_RESTORE puts it on a core that fits, under the first slot there that may
place a crew, resident, with its pc, masks and mode as its records hold them, and the slot counts it; it issues from the next period on. Where
the rules leave a point open, the model's choice of log entries 32, 33, 34 and 35 holds. -/
def Obligations.Preemption : Prop :=
  (∀ (s : State) (k : Nat), let c := s.crew k
    c.resident = true → c.launch ≠ 0 → (s.crewLaunch c).record.whole = false →
    Answers (exec (.preemptionRequest k) s) (fun t =>
      (∀ v, v ≠ k → t.crew v = s.crew v) ∧ t.mem = s.mem ∧
      (c.retiring = true ∨ c.preempt = 2 → t.crew k = c) ∧
      (c.retiring = false → c.preempt ≠ 2 → t.crew k = { c with preempt := 1 } ∧ ∀ w, t.chooseGang k w = none))) ∧
  (∀ (s s1 : State) (k : Nat), let c := (s.crew k).splitLatches
    let l := s.crewLaunch (s.crew k)
    let s0 := s.setCrew k c
    (s.crew k).resident = true → (s.crew k).preempt = 1 → (s.crew k).retiring = false → (s.crew k).passed = [] → s0.stable k = true →
    (s0.saveNoise l.part l.space c.savebase.toNat).writeParts l.part l.space c.savebase.toNat (s0.saveParts k) = .ok s1 →
    Answers (exec (.crewSave k) s) (fun t =>
      t.mem = s1.mem ∧ t.crew k = c.residue ∧ (t.crew k).resident = false ∧ (t.crew k).preempt = 2 ∧
      ∀ j ∈ (s.crew k).keys, (t.strand k j).live = ((s.crew k).st j).live ∧ (t.strand k j).unacked0 = ((s.crew k).st j).unacked0 ∧
        (t.strand k j).unacked1 = ((s.crew k).st j).unacked1)) ∧
  (∀ (s s1 : State) (u core j : Nat) (m : SaveImage) (ctxs : List (Nat × List Nat)), let c := s.crew u
    let l := s.crewLaunch c
    let b := mget s.slots (8 * core + j)
    core < 768 → (List.range 8).find? (s.slotPlaces core) = some j → b.launch = c.launch → c.preempt = 2 → c.retiring = false →
    s.stageCore l.part l.record c.stage core = true → s.fits c.launch core = some ctxs →
    (s.firstBind c.launch).claim c.launch core true = some s1 → s.readSave u = some m →
    Answers (exec (.crewRestore (1024 * u + core)) s) (fun t =>
      let n := t.crew u
      mget t.slots (8 * core + j) = b.count ∧
      n.resident = true ∧ n.core = core ∧ n.preempt = 3 ∧ n.launch = c.launch ∧ t.mem = s1.mem ∧ (∀ v, v ≠ u → t.crew v = s1.crew v) ∧
      ∀ x ∈ c.keys.zip m.strands, let st := t.strand u x.1
        st.pc = BitVec.ofNat 57 (field x.2 0x27A0 8) ∧ st.amask = BitVec.ofNat 32 (field x.2 0x27A8 4) ∧
        st.live = BitVec.ofNat 32 (field x.2 0x27AC 4) ∧ st.mr = BitVec.ofNat 32 (field x.2 0x27B0 4) ∧
        st.unacked0 = (c.st x.1).unacked0 ∧ st.unacked1 = (c.st x.1).unacked1))

/-- R315, R20, R346: CHIPLET_RESET leaves no crew resident on the chiplet, the chiplet fenced with RESET set, nothing of it in L1 caches, instruction
caches and L1 TLBs, and on its cores no cistern record and no claim but those that are evicted; of a reset in progress it is the end. R326:
STEAL_REQUEST sends one message for a launch and stage that the domain has room for and nothing left to supply; STEAL_REQUEST_ARRIVAL answers
with a chunk of the other domain that has supplied no crew, which changes owner, or with none; STEAL_ANSWER_ARRIVAL ends the exchange and
remembers a none. Where the rules leave a point open, the model's choice of log entries 38 and 85 holds. -/
def Obligations.ChipletResetAndSteals : Prop :=
  (∀ (s : State) (k : Nat), s.Tidy → k < 64 → s.resetting k = false →
     Answers (exec (.chipletReset k) s) (fun t =>
       t.fenced k = true ∧ t.resetting k = true ∧ (∀ c, c ≠ k → t.fenced c = s.fenced c) ∧ (∀ u, (t.crew u).resident = true → (t.crew u).core / 12 ≠ k) ∧
       (∀ e ∈ t.l1, e.core / 12 ≠ k) ∧ (∀ e ∈ t.icache, e.core / 12 ≠ k) ∧ (∀ e ∈ t.tlb, 2 ≤ e.owner → (e.owner - 2) / 12 ≠ k) ∧
       (∀ i < 12, (t.core (12 * k + i)).cistern = [] ∧ ∀ e ∈ (t.core (12 * k + i)).claims, e.evicted = true) ∧ t.time = s.time)) ∧
  (∀ (s : State) (k : Nat), k < 64 → s.resetting k = true → Answers (exec (.chipletReset k) s) (fun t =>
     t.resetting k = false ∧ t.fenced k = s.fenced k ∧ { t with chipctl := [] } = { s with chipctl := [] })) ∧
  (∀ (c : Core) (e : Claim), e ∈ c.loseCistern.claims ↔ e ∈ c.claims ∧ e.evicted = true) ∧
  (∀ (s : State) (k : Nat),
     (∀ dom l, let x := s.launchOf (l / 16)
       s.fwcfg.getLsbD 2 = true → dom < 2 → x.state = 1 → l % 16 < x.record.stages → x.cut = false → mget x.noneSeen (16 * dom + l % 16) = false →
       (∀ e ∈ s.steals, ¬(e.2.live = true ∧ e.2.launch = l / 16 ∧ e.2.stage = l % 16 ∧ e.2.dom = dom)) →
       x.nextChunk dom (l % 16) = none → (∀ e ∈ x.restarts, e.1 ≠ l % 16) →
       (∀ e ∈ s.crews, ¬(e.2.launch = l / 16 ∧ e.2.stage = l % 16 ∧ e.2.preempt = 2)) → s.roomIn dom (l / 16) (l % 16) = true →
       Answers (exec (.stealRequest dom l) s) (fun t =>
         mget t.steals s.nextId = { live := true, answer := false, dom := dom, launch := l / 16, stage := l % 16, chunk := none } ∧
         t.launches = s.launches ∧ t.crews = s.crews)) ∧
     (let m := mget s.steals k
      let x := s.launchOf m.launch
      let free := fun c => c < x.record.chunks ∧ x.ownerOf m.stage c = 1 - m.dom ∧ mget x.supplied (chunkKey m.stage c) = 0
      m.live = true → s.bridgeDown = false →
      (m.answer = false → m.dom < 2 →
        (∀ c, free c → (∀ d, free d → d ≤ c) → m.stage < 16 →
          Answers (exec (.stealRequestArrival k) s) (fun t =>
            mget t.steals k = { m with answer := true, chunk := some c } ∧ (t.launchOf m.launch).ownerOf m.stage c = m.dom ∧
            (∀ d, d ≠ c → (t.launchOf m.launch).ownerOf m.stage d = x.ownerOf m.stage d) ∧
            mget (t.launchOf m.launch).noneSeen (16 * (1 - m.dom) + m.stage) = false)) ∧
        ((∀ c, ¬ free c) → Answers (exec (.stealRequestArrival k) s) (fun t =>
          mget t.steals k = { m with answer := true, chunk := none } ∧ t.launches = s.launches))) ∧
      (m.answer = true → Answers (exec (.stealAnswerArrival k) s) (fun t =>
        mget t.steals k = default ∧ (m.chunk = none → mget (t.launchOf m.launch).noneSeen (16 * m.dom + m.stage) = true) ∧
        (m.chunk ≠ none → t.launches = s.launches)))))

/-! MMIO, hosts and tiers. -/

namespace Sys2Proof.Machine

/-- Access k of the MMIO inputs is an aligned 8-byte access to register m, first in its block's order (R296, R297). -/
def State.mmioAccess (s : State) (k : Nat) (m : Mmio) : Prop :=
  s.mmioTurn k (mget s.mmioIn k) = true ∧ mmioOffset (mget s.mmioIn k) ≠ none ∧ mmioTarget (mget s.mmioIn k) = m

end Sys2Proof.Machine

/-- R7, R8, R297, R283, R346, R348, R376, R386: MMIO loads answer with the register; stores write the bits a register has, and a host's store outside
the mailboxes writes nothing; FENCE := 1 resets the chiplet and keeps it fenced, FENCE := 0 returns it with its storage clear unless its last
self-test failed; a 1 in a count field of ERRCNT clears the field; a report starts with its nonce and goes out with the certificate, by the
mailbox too. R91, R130, R89, R370: PAIR_MODE_WRITE sets the mode of a pair and leaves every byte of it zero and every other byte as it was;
HOST_ACCESS reads bytes of memory, or writes them once no lease is in force on their lines, and waits while a retrain stops its way. Where the
rules leave a point open, the model's choice of log entries 27, 38, 39, 42, 43, 44, 69, 96, 100 and 101 holds. -/
def Obligations.RegistersAndHostAccesses : Prop :=
  (∀ (s : State) (k : Nat), let a := mget s.mmioIn k
     (∀ m, s.mmioAccess k m →
       (a.write = false → Answers (exec (.mmioWrite k) s) (fun t =>
         t.mmioOut = s.mmioOut ++ [BitVec.ofNat 64 (s.mmioRead m)] ∧ mget t.mmioIn k = default ∧ t.crews = s.crews ∧ t.cores = s.cores ∧
         t.mem = s.mem)) ∧
       (a.write = true → a.host = true → (∀ o, m ≠ .mailbox o) → Answers (exec (.mmioWrite k) s) (fun t =>
         t = { s with mmioIn := mset s.mmioIn k default, mmioAcks := s.mmioAcks ++ [k] })) ∧
       (a.write = true → a.host = false →
         (∀ n, m = .tvec n → Answers (exec (.mmioWrite k) s) (fun t =>
           t.core n = { s.core n with tvec := a.data &&& 0x1FFFFFFFFFFFFFC } ∧ (∀ j, j ≠ n → t.core j = s.core j) ∧ t.crews = s.crews ∧
           t.mmioAcks = s.mmioAcks ++ [k])) ∧
         (∀ p n, m = .asroot p n → Answers (exec (.mmioWrite k) s) (fun t =>
           mget t.asroot (16 * p + n) = a.data &&& 0x3FFFFFFFFFF001 ∧ t.cores = s.cores ∧ t.crews = s.crews)) ∧
         (m = .fabcfg → Answers (exec (.mmioWrite k) s) (fun t => t.fabcfg = a.data &&& 0xFFFFFF01)) ∧
         (m = .bootstat ∨ m = .reserved ∨ m = .fwcfg → Answers (exec (.mmioWrite k) s) (fun t =>
           t = { s with mmioIn := mset s.mmioIn k default, mmioAcks := s.mmioAcks ++ [k] })))) ∧
     (∀ c, s.mmioAccess k (.chip c) → c < 64 → a.write = true → a.host = false →
       let part := if s.fenced c then a.data &&& 0xE0 else s.chip c &&& 0xE0
       (a.data.getLsbD 1 = true → s.Tidy → Answers (exec (.chipctlFence k) s) (fun t =>
         t.fenced c = true ∧ t.chip c &&& 0xE0 = part ∧ mget t.mmioIn k = default ∧
         (s.fenced c = true → t.crews = s.crews ∧ t.resetting c = s.resetting c) ∧
         (s.fenced c = false → t.resetting c = true ∧ ∀ u, (t.crew u).resident = true → (t.crew u).core / 12 ≠ c))) ∧
       (a.data.getLsbD 1 = false → s.resetting c = true → exec (.chipctlUnfence k) s = .next s) ∧
       (a.data.getLsbD 1 = false → s.resetting c = false → s.fenced c = true → mget s.tests.chips c = true →
         Answers (exec (.chipctlUnfence k) s) (fun t =>
           t.fenced c = true ∧ t.chip c &&& 0xE0 = part ∧ mget t.mmioIn k = default ∧ t.crews = s.crews ∧ t.cores = s.cores)) ∧
       (a.data.getLsbD 1 = false → s.resetting c = false → mget s.tests.chips c = false → Answers (exec (.chipctlUnfence k) s) (fun t =>
         t.fenced c = false ∧ t.chip c &&& 0xE0 = part ∧ mget t.mmioIn k = default ∧ t.crews = s.crews ∧
         (s.fenced c = true → (∀ i < 12, (t.core (12 * c + i)).cistern = [] ∧ ∀ e ∈ (t.core (12 * c + i)).claims, e.evicted = true) ∧
           ∀ e ∈ t.l1, e.core / 12 ≠ c)))) ∧
     (∀ i, s.mmioAccess k (.errcnt i) → a.write = true → a.host = false → Answers (exec (.errcntClear k) s) (fun t =>
       let old := mget s.errcnt i
       let new := mget t.errcnt i
       new.toNat % 2 ^ 32 = (if a.data.toNat % 2 ^ 32 = 0 then old.toNat % 2 ^ 32 else 0) ∧
       new.toNat / 2 ^ 32 = (if a.data.toNat / 2 ^ 32 % 2 ^ 24 = 0 then old.toNat / 2 ^ 32 % 2 ^ 24 else 0) ∧
       mget t.mmioIn k = default)) ∧
     (s.bootstat.toNat % 16 = 8 → Answers (exec (.reportRequest k) s) (fun t =>
       let o := 4096 * (k % 2)
       let cert := s.running.certificate
       ∃ b, t = { s with reports := s.reports ++ [(b, cert)], mailbox := msetList s.mailbox (o + 64) ((b ++ cert).take 4032) } ∧
         b.take 64 = mgetList s.mailbox o 64))) ∧
  ((∀ (s : State) (m : Nat) (l : Bool), s.Tidy → m < 512 →
     let lo := s.dev * 2 ^ 44 + m * 2 ^ 31
     Answers (exec (.pairModeWrite (2 * m + l.toNat)) s) (fun t =>
       mget t.pairLocal m = l ∧ (∀ n, n ≠ m → mget t.pairLocal n = mget s.pairLocal n) ∧
       (∀ a, lo ≤ a → a < lo + 2 ^ 31 → mget t.mem a = 0) ∧ (∀ a, a < lo ∨ lo + 2 ^ 31 ≤ a → mget t.mem a = mget s.mem a) ∧
       t.crews = s.crews ∧ t.net = s.net)) ∧
   (∀ (s : State) (k : Nat), let a := mget s.hostIn k
     let pa := s.dev * 2 ^ 44 + a.addr
     let n := a.bytes.length
     a.live = true → mget s.cxlDown a.die = false → a.addr + n ≤ 2 ^ 44 → s.inTiers pa = true → s.inTiers (pa + n - 1) = true →
     s.rangePoisoned pa n = false →
     (s.bridgeStops a.die (linesOf pa n) = true → exec (.hostAccess k) s = .next s) ∧
     (s.bridgeStops a.die (linesOf pa n) = false →
     (s.channelsReady (linesOf pa n) = false → Answers (exec (.hostAccess k) s) (fun t => t = s.wakeChannels (linesOf pa n))) ∧
     (a.write = false → s.channelsReady (linesOf pa n) = true → Answers (exec (.hostAccess k) s) (fun t =>
       t.hostOut = s.hostOut ++ [mgetList s.mem pa n] ∧ t.mem = s.mem ∧ mget t.hostIn k = default)) ∧
     (a.write = true → s.channelsReady (linesOf pa n) = true → s.mayWriteBy (hostToken k) (linesOf pa n) = true → Answers (exec (.hostAccess k) s) (fun t =>
       mgetList t.mem pa n = a.bytes ∧ (∀ p, p < pa ∨ pa + n ≤ p → mget t.mem p = mget s.mem p) ∧ mget t.hostIn k = default)) ∧
     (a.write = true → s.channelsReady (linesOf pa n) = true → s.mayWriteBy (hostToken k) (linesOf pa n) = false →
       s.Tidy → (∀ e ∈ s.home, e.1 < s.nextId) → Answers (exec (.hostAccess k) s) (fun t =>
         t.mem = s.mem ∧ t.hostIn = s.hostIn ∧ ∀ l ∈ linesOf pa n, ∃ e ∈ t.home, e.2.kind = .hold ∧ e.2.peerId = hostToken k ∧ e.2.pa = l)))))

/-- R337, R339, R349, R378: PAGE_WALK, its tables' pseudo-channels awake, puts the translation into the TLBs, so that the access translates there, or
leaves the cause with the strands and engines that wait; a busy leaf is read again later, and a walk for a core of a fenced chiplet leaves
nothing. R342, R343, R344: PUMP_EVALUATION and RE_DECAY take place once at each of their ticks, a pump starting at most the move that R343 names
and a disabled pump none; PAGE_MOVE_COPY sets BUSY and invalidates the page's translations, then copies the page line by line, sets PA to the
frame and BUSY to 0, and puts the released frame into the list entry, a swap going on with its other page. Where the rules leave a point open,
the model's choice of log entries 45, 55 and 56 holds. -/
def Obligations.WalksAndTierPumps : Prop :=
  (∀ (s : State) (k : Nat), let w := mget s.walks k
     let lines := s.walkLines w.part w.space w.va
     s.walkRuns k w = true →
     (s.channelsReady lines = false → Answers (exec (.pageWalk k) s) (fun t => t = s.wakeChannels lines)) ∧
     (s.channelsReady lines = true →
       (∀ at_ e pb, s.walk w.part w.space w.va = .leaf at_ e pb →
         (w.core < 768 ∧ s.fenced (w.core / 12) = true → Answers (exec (.pageWalk k) s) (fun t =>
           t = ({ s with walks := mset s.walks k default } : State).useChannels lines)) ∧
         (¬(w.core < 768 ∧ s.fenced (w.core / 12) = true) → Answers (exec (.pageWalk k) s) (fun t =>
           mget t.walks k = default ∧ (∀ need, t.xlate w.core w.dom w.part w.space w.va need = leafXl e pb w.va need) ∧
           t.crews = s.crews ∧ t.mem = s.mem))) ∧
       (∀ c, s.walk w.part w.space w.va = .fault c → Answers (exec (.pageWalk k) s) (fun t =>
         mget t.walks k = default ∧ t.tlb = s.tlb ∧ t.mem = s.mem ∧
         (∀ x ∈ w.waiters, (s.crew x.1).launch ≠ 0 → (w.va / 2 ^ 16, c) ∈ (t.strand x.1 x.2).walkFaults) ∧
         ∀ x ∈ w.engines, (x, w.va / 2 ^ 16) ∈ t.engineFaults)) ∧
       (s.walk w.part w.space w.va = .busy → exec (.pageWalk k) s = .next s))) ∧
  ((∀ s : State, s.evalAt ≤ s.ltime → s.decayDue = false → s.halving = false →
     (Answers (exec .pumpEvaluation s) (fun t => t.evalAt = s.evalAt + 4096 ∧ t.crews = s.crews)) ∧
     ((∀ d < 2, (mget s.pumpCfg d).getLsbD 0 = false) → Answers (exec .pumpEvaluation s) (fun t => t = { s with evalAt := s.evalAt + 4096 }))) ∧
   (∀ (s : State) (d p : Nat) (leaf re : Nat) (f : PumpEntry), let l := s.pumpList p
     s.moves.any (fun m => m.2.live && decide (m.2.pump = d) && decide (m.2.part = p)) = false →
     firstMax (pumpCost (mget s.pumpCfg d) d) (s.pagesOn l (d + 1)) = some (leaf, re) → s.freeOn l 0 = some f →
     (re = 0 → s.evaluate d p = s) ∧
     (0 < re → let m := mget (s.evaluate d p).moves s.nextId
       m.live = true ∧ m.pump = d ∧ m.part = p ∧ m.leaf = leaf ∧ m.frame = f.addr ∧ m.entry = f.at_ ∧ m.promote = none)) ∧
   (∀ s : State, s.decayDue = true → Answers (exec .reDecay s) (fun t =>
     t.decayAt = s.decayAt + 2 ^ 20 ∧ t.mem = s.mem ∧ t.crews = s.crews ∧ ∀ e ∈ s.net, e.1 < s.nextId → mget t.net e.1 = mget s.net e.1)) ∧
   (∀ (s : State) (k : Nat), let m := mget s.moves k
     let x := s.rdNat m.leaf 8
     let pa := leafPa x
     m.live = true →
     (m.begun = false → s.channelsReady [lineOf m.leaf] = true → s.mayWrite m.leaf 8 = true → Answers (exec (.pageMoveCopy k) s) (fun t =>
       Holds s t m.leaf 8 (x ||| 0x80) ∧ (∀ e ∈ t.tlb, ¬(e.pageBits = 21 ∧ leafPa e.leaf.toNat = pa)) ∧
       (mget t.moves k).begun = true ∧ (mget t.moves k).frame = m.frame)) ∧
     (let src := pa + 128 * m.copied
      let dst := m.frame + 128 * m.copied
      m.begun = true → m.copied < 16384 →
      (s.moveReady m pa = false → exec (.pageMoveCopy k) s = .next s) ∧
      (s.moveReady m pa = true → s.leaseFree dst = true → s.channelsReady [src, dst] = true →
        (∀ e ∈ s.home, e.2.kind = .none ∨ e.2.kind = .load ∨ e.2.pa ≠ src) → Answers (exec (.pageMoveCopy k) s) (fun t =>
          (∀ i < 128, mget t.mem (dst + i) = mget s.mem (src + i)) ∧ mget t.poison dst = s.poisoned src ∧
          (∀ a, a < dst ∨ dst + 128 ≤ a → mget t.mem a = mget s.mem a) ∧ mget t.moves k = { m with copied := m.copied + 1 }))) ∧
     (m.begun = true → m.copied = 16384 → s.mayWrite m.leaf 8 = true → m.frame % 2 ^ 16 = 0 → m.frame < 2 ^ 54 →
       Answers (exec (.pageMoveCopy k) s) (fun t =>
         leafPa (t.rdNat m.leaf 8) = m.frame ∧ nbit (t.rdNat m.leaf 8) 7 = false ∧
         (∀ a, a < m.leaf ∨ m.leaf + 8 ≤ a → mget t.mem a = mget s.mem a) ∧
         mget t.moves k = { m with copied := m.copied + 1, before := [pa] })) ∧
     (∀ old, m.begun = true → m.copied = 16385 → m.before = [old] → old < 2 ^ 64 → s.mayWrite m.entry 8 = true →
       (m.promote = none → Answers (exec (.pageMoveCopy k) s) (fun t =>
         t.rdNat m.entry 8 = old ∧ (∀ a, a < m.entry ∨ m.entry + 8 ≤ a → mget t.mem a = mget s.mem a) ∧ mget t.moves k = default)) ∧
       (∀ leaf, m.promote = some leaf → Answers (exec (.pageMoveCopy k) s) (fun t =>
         let n := mget t.moves s.nextId
         n.live = true ∧ n.leaf = leaf ∧ n.frame = old ∧ n.entry = m.entry ∧ n.promote = none)))))

/-! The fabric. -/

namespace Sys2Proof.Machine

/-- Packet k of the inputs has been taken, and neither memory nor a crew has changed. -/
def Taken (s : State) (k : Nat) (t : State) : Prop := mget t.packetsIn k = default ∧ t.mem = s.mem ∧ t.crews = s.crews

/-- Request k has failed: it is on its way back with a cause (R352). -/
def Failed (s : State) (k cause : Nat) (t : State) : Prop :=
  mget t.net k = default ∧ (mget t.back k).fail = cause ∧ (mget t.back k).crew = (mget s.net k).crew ∧
    (mget t.back k).strand = (mget s.net k).strand ∧ t.mem = s.mem

end Sys2Proof.Machine

/-- R351, R352, R354, R356, R369, R389: PACKET_ARRIVAL starts another device's request towards its home here, takes an answer back to the strand, and
drops and counts a packet that fails authentication; PACKET_RETURN fails a request whose reach timeout has passed and else sends or holds it
again; REACH_TIMEOUT fails a request held at its source, but no flag that waits for its order; a held ordered flag asks the other switch, whose
answer lets it leave when no earlier write of its strand is still to be counted. Where the rules leave a point open, the model's choice of log
entries 49, 50 and 52 holds. -/
def Obligations.FabricRequests : Prop :=
  (∀ (s : State) (k : Nat),
    (∀ r, mget s.packetsIn k = .request r → r.dev ≠ s.dev → devOf r.pa = s.dev → Answers (exec (.packetArrival k) s) (fun t =>
      Taken s k t ∧ mget t.net s.nextId = { r with left := true, dropped := false, stamp := 0 })) ∧
    (∀ id r, mget s.packetsIn k = .answer id r → r.dev = s.dev → let q := mget s.net id
      q.kind ≠ .none → devOf q.pa ≠ s.dev → q.dev = s.dev → q.left = true → Answers (exec (.packetArrival k) s) (fun t =>
        Taken s k t ∧ mget t.net id = default ∧
        mget t.back id = { q with vals := r.vals, tags := r.tags, fail := r.fail, readyAt := 0 })) ∧
    (∀ i n c b p, mget s.packetsIn k = .sealed i n c b p → ((mget s.sessions i).state = 2 → (mget s.sessions i).opens b = false) →
      Answers (exec (.packetArrival k) s) (fun t =>
      Taken s k t ∧ (mget t.sessions i).badTags = (mget s.sessions i).badTags + 1 ∧ t.packetsOut = s.packetsOut ∧ t.colls = s.colls)) ∧
    (∀ i n c, mget s.packetsIn k = .ueAck i n c → (mget s.sessions i).state = 2 → Answers (exec (.packetArrival k) s) (fun t =>
      Taken s k t ∧ mget t.sessions i = { mget s.sessions i with badTags := (mget s.sessions i).badTags + 1 })) ∧
    (∀ i n c b src op virt part space addr l credit weir,
      mget s.packetsIn k = .sealed i n c b (.bulk src op virt part space addr l credit weir) →
      (∃ e ∈ (mget s.sessions i).received, e.1 = n) → Answers (exec (.packetArrival k) s) (fun t =>
        Taken s k t ∧ (mget t.sessions i).received = (mget s.sessions i).received ∧ t.colls = s.colls ∧ t.collOps = s.collOps)) ∧
    (∀ id, mget s.packetsIn k = .returned id → let r := mget s.net id
      r.kind ≠ .none → devOf r.pa ≠ s.dev → r.dev = s.dev → r.left = true → (∀ q ids, (mget s.packetsOut id).p ≠ .multicast q ids) →
      (∀ q, (mget s.packetsOut id).p = .request q → q.dev = s.dev) →
      (s.reachOver r.bornAt = true → Answers (exec (.packetReturn k) s) (fun t => Failed s id r.reachCause t ∧ mget t.packetsIn k = default)) ∧
      (s.reachOver r.bornAt = false → Answers (exec (.packetReturn k) s) (fun t => Taken s k t ∧ (mget t.net id).kind = r.kind ∧
        (s.pathOf r = none → (mget t.net id).left = false) ∧
        (∀ p port, s.pathOf r = some (p, port) → s.pathsFull (domOf r.core) = false →
          (mget t.net id).left = true ∧ (mget t.net id).path = p))))) ∧
  (∀ (s : State) (k : Nat), let r := mget s.net k
    r.kind ≠ .none → r.dev = s.dev → devOf r.pa ≠ s.dev → r.left = false →
    (r.path = 63 → s.reachOver r.bornAt = true → Answers (exec (.reachTimeout k) s) (Failed s k r.reachCause)) ∧
    (r.path = 63 ∧ s.reachOver r.bornAt = false ∨ r.path = 62 ∧ r.kind.isWrite = true → (mget s.colls k).live = false →
      s.copyOverdue k = false → s.heldOver k = none → exec (.reachTimeout k) s = .next s) ∧
    (r.flagged = true → s.flagSum k true = 0 → mget s.flagAsk k = 0 → Answers (exec (.orderedFlagQuery k) s) (fun t =>
      t = { s with flagAsk := mset s.flagAsk k 1 })) ∧
    (r.flagged = true → r.counted = false → r.path ≠ 60 → s.uncounted k r = false → mget s.flagAsk k = 1 → s.flagSum k false = 0 →
      s.bridgeDown = false → s.Tidy → (∀ j, j ≠ k → (mget s.net j).flagged = true → (mget s.net j).left = true) →
      (s.flagSum k true ≠ 0 → Answers (exec (.orderedFlagAnswer k) s) (fun t => t.net = s.net ∧ mget t.flagAsk k = 2)) ∧
      (∀ p port, s.flagSum k true = 0 → s.pathOf r = some (p, port) → s.pathsFull (domOf r.core) = false →
        Answers (exec (.orderedFlagAnswer k) s) (fun t => (mget t.net k).left = true ∧ (mget t.net k).path = p ∧ mget t.flagAsk k = 0))))

/-- R353, R357, R366, R367, R368, R369, R370, R389: demands and grants move credit in units of 4 KiB, at most PACE in a window; a replay changes
nothing but its count; links and the bridge go down and up; an elastic member that is late is dropped; a failing member's notice fails the
operation; the nonces of an exchange of keys are answered by a key message over both, which opens the session or replaces its keys, or puts it in
FAILED; what has no answer is sent again. Where the rules leave a point open, the model's choice of log entries 57, 58, 103 and 104 holds. -/
def Obligations.LinksAndSessions : Prop :=
  ∀ (s : State) (k : Nat),
    (∀ d n, mget s.packetsIn k = .demand d n → Answers (exec (.demand k) s) (fun t =>
      Taken s k t ∧ mget t.demands d = mget s.demands d + n)) ∧
    (∀ d, mget s.packetsIn k = .grant d → (∀ e ∈ s.collOps, e.2.owed = []) →
      ((∀ e ∈ s.pulls, e.2.src ≠ d) → Answers (exec (.grantArrival k) s) (fun t =>
        Taken s k t ∧ mget t.credits d = mget s.credits d + 4096 ∧
        (∀ e, s.asked.find? (fun e => decide (e.1 % 1024 = d)) = some e → mget t.asked e.1 = e.2 - 4096 ∧ ∀ j, j ≠ e.1 → mget t.asked j = mget s.asked j) ∧
        (s.asked.find? (fun e => decide (e.1 % 1024 = d)) = none → t.asked = s.asked))) ∧
      (∀ p q, s.pulls = [(p, q)] → q.src = d → q.n ≤ 4096 → d ≠ s.dev → mget s.credits d = 0 →
        (∀ i ≤ q.n, devOf (q.pa + i) = s.dev ∧ s.inTiers (q.pa + i) = true) → s.poisonAt q.pa q.n = none → Answers (exec (.grantArrival k) s) (fun t =>
          Taken s k t ∧ t.pulls = [] ∧ mget t.credits d = 4096 - q.n))) ∧
    (∀ d, (if s.grantWindow = s.time / 256 then s.grantsUsed else 0) < s.pace → s.nextSource = some d →
      Answers (exec .grantIssue s) (fun t => mget t.demands d = mget s.demands d - 4096 ∧ t.lastServed = d ∧ t.grantWindow = s.time / 256 ∧
        t.grantsUsed = (if s.grantWindow = s.time / 256 then s.grantsUsed else 0) + 1 ∧ t.mem = s.mem)) ∧
    (s.pace ≤ s.grantsUsed → s.grantWindow = s.time / 256 → exec .grantIssue s = .next s) ∧
    Answers (exec (.linkReplay k) s) (fun t =>
      t = { s with ports := mset s.ports k { mget s.ports k with replays := (mget s.ports k).replays + 1 } }) ∧
    (k < 36 → Answers (exec (.linkDown k) s) (fun t => (mget t.ports k).down = true ∧ { t with ports := [] } = { s with ports := [] }) ∧
      Answers (exec (.linkUp k) s) (fun t => (mget t.ports k).down = false ∧ t.mem = s.mem ∧ t.crews = s.crews)) ∧
    Answers (exec .bridgeRetrain s) (fun t => t.bridgeDown = true ∧ t.net = s.net ∧ t.mem = s.mem) ∧
    Answers (exec .bridgeRetrainDone s) (fun t => t.bridgeDown = false ∧ t.net = s.net ∧ t.mem = s.mem ∧
      (s.bridgeDown = true → t.bridgeResent = s.bridgeResent + s.crossing)) ∧
    (∀ g, s.keyGroup (k / 1024) = .ok g → s.memberLate (g.under (mget s.collOps (k / 1024)).head) (k / 1024) (k % 1024) = true →
      Answers (exec (.elasticTimeout k) s) (fun t => mget (mget t.collOps (k / 1024)).dropped (k % 1024) = true ∧ t.crews = s.crews)) ∧
    (∀ key rank status cause g, mget s.packetsIn k = .failure key rank status cause → s.keyGroup key = .ok g → g.elastic = false →
      (mget s.collOps key).failed = 0 → Answers (exec (.collectiveFailureNotice k) s) (fun t =>
        Taken s k t ∧ mget t.collOps key = { mget s.collOps key with failed := status, cause := cause })) ∧
    (∀ i inside n, mget s.packetsIn k = .hello i inside n → let x := mget s.sessions i
      Answers (exec (.keyExchange k) s) (fun t => Taken s k t ∧
        (x.state = 3 → t.sessions = s.sessions) ∧
        (x.state ≠ 3 → n ≠ [] → x.peerNonce = n → t.sessions = s.sessions) ∧
        (x.state = 2 → inside = false → (n = [] ∨ x.peerNonce ≠ n) → mget t.sessions i = { x with badTags := x.badTags + 1 }) ∧
        (x.state ≠ 3 → (n = [] ∨ x.peerNonce ≠ n) → (x.state = 2 → inside = true) → let y := mget t.sessions i
          y.peerNonce = n ∧
          (x.state = 1 ∨ x.rekeying = true → y.state = x.state ∧ y.ownNonce = x.ownNonce ∧ y.ownKey = Config.ownKeyMessage (s.freeAt firmwarePart) (x.ownNonce ++ n)) ∧
          (¬(x.state = 1 ∨ x.rekeying = true) → y.state = (if x.state = 2 then 2 else 1) ∧ y.ownNonce = Config.ownNonce (s.freeAt firmwarePart) ∧
            y.ownKey = Config.ownKeyMessage (s.freeAt firmwarePart + 16) (y.ownNonce ++ n))))) ∧
    (∀ i inside n b, mget s.packetsIn k = .keyMessage i inside n b → let x := mget s.sessions i
      Answers (exec (.keyExchange k) s) (fun t => Taken s k t ∧
        (x.state = 3 → t.sessions = s.sessions) ∧
        (x.state = 2 → inside = false → x.doneNonce = n → t.sessions = s.sessions) ∧
        (x.state = 2 → inside = false → x.doneNonce ≠ n → mget t.sessions i = { x with badTags := x.badTags + 1 }) ∧
        ((x.state = 2 → inside = true) → ¬(x.state = 1 ∨ x.rekeying = true) → t.sessions = s.sessions) ∧
        ((x.state = 2 → inside = true) → x.state ≠ 3 → (x.state = 1 ∨ x.rekeying = true) →
          let digest := mgetList s.sessTab (256 * i + 16) 64
          let good := Config.keyMessageGood (digest ++ x.ownNonce ++ n ++ b)
          let own := if x.peerNonce = n then x.ownKey else Config.ownKeyMessage (s.freeAt firmwarePart) (x.ownNonce ++ n)
          (good = false → mget t.sessions i = { x with state := 3 }) ∧
          (good = true → (mget t.sessions i).state = 2 ∧ (mget t.sessions i).rekeying = false ∧ (mget t.sessions i).doneNonce = n ∧
            (x.queued = [] → (mget t.sessions i).counter = 0) ∧
            (mget t.sessions i).keys = Config.sessionKeys (own ++ b ++ x.ownNonce ++ n ++ Config.ownIdentity ++ digest) ∧
            (mget t.sessions i).oldKeys = (if x.state = 2 then some x.keys else none))))) ∧
    (let x := mget s.sessions k
     (x.state = 2 → 2 ^ 31 - 2 ^ 20 ≤ x.counter → x.rekeying = false → Answers (exec (.rekey k) s) (fun t =>
       let y := mget t.sessions k
       t.mem = s.mem ∧ y.state = 2 ∧ y.rekeying = true ∧ y.keys = x.keys ∧ y.ownNonce = Config.ownNonce (s.freeAt firmwarePart) ∧
       y.peerNonce = [] ∧ (s.sessionReady k = true → y.counter = x.counter + 1 ∧ y.unacked = x.unacked ++ [(x.next, .hello k false y.ownNonce)]))) ∧
     (x.state = 1 → Answers (exec (.retransmissionTimeout k) s) (fun t =>
       t.sessions = s.sessions ∧ t.mem = s.mem ∧ t.crews = s.crews ∧ t.nextId = s.nextId + (if x.peerNonce = [] then 1 else 2))) ∧
     (∀ n p rest, x.unacked = (n, p) :: rest → s.sessionReady k = true → Answers (exec (.retransmissionTimeout k) s) (fun t =>
       mget t.sessions k = { x with counter := x.counter + 1 } ∧ t.mem = s.mem ∧ t.crews = s.crews)))

/-! Collective lists. -/

namespace Sys2Proof.Machine

/-- The operation of list k. -/
def State.listOp (s : State) (k : Nat) : Op := mget s.ops (mget s.colls k).handle.toNat

/-- A step of the running command of list k. -/
def ListStep (k : Nat) (i : Instr) : Prop :=
  i ∈ [Instr.cEnd k, .send k, .recv k, .reduce k, .mcast k, .waittl k, .waitweir k, .signal k, .compress k, .decompress k, .barrier k]

/-- List k runs the command `b`: it has been read, or it is the list's turn and it is read now (R133, R135, R361). -/
def State.runs (s : State) (k : Nat) (b : List Byte) : Prop :=
  let r := mget s.colls k
  let op := s.listOp k
  r.live = true ∧ b ≠ [] ∧ (r.cmd = b ∨ r.cmd = [] ∧ op.cancel = false ∧ s.listTurn r = true ∧
    (s.listRead r op (op.a.toNat + 32 * r.index) 32).1 = .ok b)

/-- The state in which list k runs the command `b`: its bytes are kept with the weir that it names, and its operation has started. -/
def State.begun (s : State) (k : Nat) (b : List Byte) : State :=
  let r := mget s.colls k
  let op := s.listOp k
  let s1 := if r.cmd.isEmpty then (s.listRead r op (op.a.toNat + 32 * r.index) 32).2 else s
  let r1 := if r.cmd.isEmpty then { r with cmd := b, weir := s.cmdWeir op (cmdOf b op.b) } else r
  { s1 with ops := mset s1.ops r.handle.toNat { op with started := true }, colls := mset s1.colls k r1 }

/-- List k goes on with its next command (R361). -/
def GoesOn (s : State) (k : Nat) (t : State) : Prop :=
  mget t.colls k = { (default : CollRun) with live := true, handle := (mget s.colls k).handle, index := (mget s.colls k).index + 1 } ∧
    t.crews = s.crews

/-- List k has resolved with a status, a cause and a detail (R249). -/
def ListEnds (s : State) (k status cause detail : Nat) (t : State) : Prop :=
  mget t.colls k = default ∧ mget t.results (mget s.colls k).handle.toNat = some (mkResult status cause detail) ∧ t.crews = s.crews

/-- List k is at `r` in its running command; memory is that of `m`. -/
def AtRun (s : State) (k : Nat) (r : CollRun) (m : State) (t : State) : Prop := mget t.colls k = r ∧ t.mem = m.mem ∧ t.crews = s.crews

/-- Where list k has parts of its results to write, their pages walked, the first is written when its line may be. -/
def WritesOut (s0 : State) (k : Nat) (i : Instr) (s : State) : Prop :=
  let r := mget s0.colls k
  let op := s0.listOp k
  let tok := opToken r.handle.toNat
  let w := s0.walksDone tok
  ∀ x rest s1, r.formed = true → r.out = x :: rest →
    s0.pagesMissed tok op.engine op.part op.space (r.out.map (fun y => (y.1, y.2.length))) = [] →
    let lines := s0.virtLines op.engine op.part op.space x.1 x.2.length permW
    w.listOpen op lines = true → w.wrVirtBy tok (!lines.all r.lines.contains) op.engine op.part op.space x.1 x.2 = .ok s1 →
    Answers (exec i s) (AtRun s k { r with out := rest, lines := r.lines ++ lines } s1)

end Sys2Proof.Machine

/-- R133, R136, R249, R250, R361, R362, R364, R365: a list whose turn has not come, or that is cancelled, begins no command; END resolves the list as
DONE; a command that breaks a rule resolves it as BAD_SHAPE with its index; WAITTL and WAITWEIR wait, SIGNAL adds to its counter, COMPRESS and
DECOMPRESS form the encoded or the decoded blocks and write them line by line, and the list goes on. Where the rules leave a point open, the
model's choice of log entries 57 and 82 holds. -/
def Obligations.ListCommands : Prop :=
  (∀ (s : State) (k : Nat), let r := mget s.colls k
    r.live = true → r.cmd = [] → ∀ i, ListStep k i →
      ((s.listOp k).cancel = true → Answers (exec i s) (fun t => ListEnds s k 4 0 0 t ∧ t.mem = s.mem)) ∧
      ((s.listOp k).cancel = false → s.listTurn r = false → exec i s = .next s)) ∧
  ∀ (s : State) (k : Nat) (b : List Byte), s.runs k b →
    let s0 := s.begun k b
    let r := mget s0.colls k
    let op := s0.listOp k
    let c := cmdOf b op.b
    let two := if c.bf16 then 2 else 4
    (c.bad = true → ∀ i ∈ [Instr.cEnd k, .waittl k, .waitweir k, .signal k, .compress k, .decompress k],
      (match i with
        | .cEnd _ => c.op = 0 ∨ 10 < c.op
        | .waittl _ => c.op = 5
        | .waitweir _ => c.op = 6
        | .signal _ => c.op = 7
        | .compress _ => c.op = 8
        | _ => c.op = 9) → Answers (exec i s) (fun t => ListEnds s k 2 0 r.index t ∧ t.mem = s.mem)) ∧
    (c.bad = false →
      (c.op = 0 → Answers (exec (.cEnd k) s) (fun t => ListEnds s k 0 0 0 t ∧ t.mem = s.mem)) ∧
      (c.op = 5 → let now := s0.timelineOf op.core (BitVec.ofNat 64 c.a0)
        (c.arg ≤ now → Answers (exec (.waittl k) s) (fun t => GoesOn s k t ∧ t.mem = s.mem)) ∧
        (now < c.arg → exec (.waittl k) s = .next s0)) ∧
      (c.op = 6 → let w := mget s0.weirs (weirKey op.part (s0.launchOf op.launchId).group (nbits c.arg 0 16))
        (w.state = 0 ∨ r.weirGone = true → Answers (exec (.waitweir k) s) (fun t => ListEnds s k 2 0 r.index t)) ∧
        (w.state = 1 → r.weirGone = false → phasePassed w.ph (BitVec.ofNat 32 c.a0) = true → Answers (exec (.waitweir k) s) (GoesOn s k)) ∧
        (w.state ≠ 0 → r.weirGone = false → w.state ≠ 1 ∨ phasePassed w.ph (BitVec.ofNat 32 c.a0) = false → exec (.waitweir k) s = .next s0)) ∧
      (c.op = 7 → Answers (exec (.signal k) s) (fun t => GoesOn s k t ∧ t.mem = s.mem ∧
        let key := 64 * domOf op.core + c.group
        mget t.signals key = mget s.signals key + BitVec.ofNat 64 c.arg)) ∧
      (c.op = 8 →
        (r.formed = false → c.arg = 0 → ∀ src, (s0.listRead r op c.a0 c.len).1 = .ok src →
          Answers (exec (.compress k) s) (AtRun s k
            { r with formed := true, lines := [], out := lineSpans c.a1 (compressed c.fmt (wideElems c.bf16 src)).1 } s)) ∧
        (r.formed = false → c.arg ≠ 0 → ∀ src res s1, s0.listRead r op c.a0 c.len = (.ok src, s1) →
          (s1.listRead r op c.arg (4 * c.elems)).1 = .ok res →
          let y := compressed c.fmt (List.zipWith (fun a b => addFl (fmtF32.value false a) (fmtF32.value false b))
            (wideElems c.bf16 src) (wideElems false res))
          Answers (exec (.compress k) s) (AtRun s k
            { r with formed := true, lines := [], out := lineSpans c.a1 y.1 ++ lineSpans c.arg (y.2.flatMap (leBytes 4)) } s)) ∧
        WritesOut s0 k (.compress k) s ∧
        (r.formed = true → r.out = [] → Answers (exec (.compress k) s) (fun t => GoesOn s k t ∧ t.mem = s.mem))) ∧
      (c.op = 9 →
        (r.formed = false → c.arg = 0 → ∀ src, (s0.listRead r op c.a0 (c.elems / 256 * groupBytes c.fmt)).1 = .ok src →
          Answers (exec (.decompress k) s) (AtRun s k
            { r with formed := true, lines := []
                     out := lineSpans c.a1 (((chunks (groupBytes c.fmt) src).flatMap (decodeGroup c.fmt)).flatMap (fun y =>
                       leBytes two ((if c.bf16 then fmtBF16 else fmtF32).place rneKeep y).1)) } s)) ∧
        (r.formed = false → c.arg ≠ 0 → ∀ src dst s1, s0.listRead r op c.a0 (c.elems / 256 * groupBytes c.fmt) = (.ok src, s1) →
          (s1.listRead r op c.a1 c.len).1 = .ok dst →
          let zs := List.zipWith (fun d y => fmtF32.value false (addFl (fmtF32.value false d) y)) (wideElems c.bf16 dst)
            ((chunks (groupBytes c.fmt) src).flatMap (decodeGroup c.fmt))
          Answers (exec (.decompress k) s) (AtRun s k
            { r with formed := true, lines := []
                     out := lineSpans c.a1 (zs.flatMap (fun y => leBytes two ((if c.bf16 then fmtBF16 else fmtF32).place rneKeep y).1)) } s)) ∧
        WritesOut s0 k (.decompress k) s ∧
        (r.formed = true → r.out = [] → Answers (exec (.decompress k) s) (fun t => GoesOn s k t ∧ t.mem = s.mem))))

/-- R136, R352, R353, R357, R361, R362, R363, R368, R369: SEND moves its data line by line, the last line once the others have performed, and goes on
when all have; RECV reads this device's own memory line by line, asks the member's device once, or the peer of a session line by line, and goes
on when the bytes are here; a command that names a FAILED session fails with PROTECTION; REDUCE, MCAST and BARRIER join the group's next
operation, which counts, contribute, and go on once the result has come and been passed on, REDUCE after writing the elements where it receives
them; an operation that has failed resolves the list with its status. Where the rules leave a point open, the model's choice of log entries 49,
57 and 82 holds. -/
def Obligations.CollectiveOperations : Prop :=
  ∀ (s : State) (k : Nat) (b : List Byte) (g : CollGroup), s.runs k b →
    let s0 := s.begun k b
    let r := mget s0.colls k
    let op := s0.listOp k
    let c := cmdOf b op.b
    let m := g.at_ c.rank
    let sent := partLen c.a1 r.done c.len
    let here := partLen c.a0 r.done c.len
    let weir := weirKey op.part m.wgrp c.weir
    let settled := m.id = s.dev ∨ r.landed = r.done
    s0.collGroup op.part c.group = .ok g →
    (c.bad = false → c.rank < g.n → m.ext = true → r.cause = 0 →
      ((mget s.sessions m.id).state = 3 →
        (c.op = 1 → Answers (exec (.send k) s) (ListEnds s k 3 cProtection r.index)) ∧
        (c.op = 2 → Answers (exec (.recv k) s) (ListEnds s k 3 cProtection r.index))) ∧
      (c.op = 2 → s.sessionReady m.id = true → r.done < c.len →
        (c.len ≤ r.landed → exec (.recv k) s = .next s0) ∧
        (r.landed < c.len → Answers (exec (.recv k) s) (AtRun s k
          { r with landed := r.landed + partLen c.a0 r.landed c.len, served := (c.a0 + 2 ^ 64 - c.a1) % 2 ^ 64 } s)))) ∧
    (c.bad = false → c.rank < g.n → m.ext = false → r.cause = 0 →
      (c.op = 1 → r.formed = false →
        (r.done = c.len → settled → Answers (exec (.send k) s) (GoesOn s k)) ∧
        (¬ settled → r.done + sent = c.len → exec (.send k) s = .next s0) ∧
        (r.done < c.len → settled ∨ r.done + sent ≠ c.len → ∀ l s1 s2, s0.listRead r op (c.a0 + r.done) sent = (.ok l, s1) →
          (s1.toMember k r op m c.a1 r.done c.len (4 * k + 3) weir l = .ok s2 ∨ s1.toMember k r op m c.a1 r.done c.len (4 * k + 3) weir l = .wait s2 →
            exec (.send k) s = .next s2) ∧
          (∀ e, s1.toMember k r op m c.a1 r.done c.len (4 * k + 3) weir l = .fault e →
            Answers (exec (.send k) s) (ListEnds s k 3 e r.index)))) ∧
      (c.op = 1 → r.formed = true →
        (∀ x rest s1, r.out = x :: rest → s0.listOpen op (linesOf x.1 x.2.length) = true →
          s0.bulkPhys (opToken r.handle.toNat) 0 x.1 x.2 0 0 = some (s1, 0) →
          Answers (exec (.send k) s) (AtRun s k { r with out := rest, lines := r.lines ++ linesOf x.1 x.2.length } s1)) ∧
        (r.out = [] → Answers (exec (.send k) s) (AtRun s k { r with formed := false } s))) ∧
      (c.op = 2 → c.len ≤ r.done → Answers (exec (.recv k) s) (fun t => GoesOn s k t ∧ t.mem = s.mem)) ∧
      (c.op = 2 → r.done < c.len → m.id = s.dev →
        (r.formed = false → ∀ spans s1, s0.memberSpans r op s.dev (c.a1 + r.done) here permR = (.ok spans, s1) →
          spans.any (fun p => (s.poisonAt p.2.1 p.2.2).isSome) = false →
          s0.listOpen op (spans.flatMap (fun p => linesOf p.2.1 p.2.2)) = true →
          Answers (exec (.recv k) s) (AtRun s k
            { r with formed := true, lines := [], out := lineSpans (c.a0 + r.done) (spans.flatMap (fun p => s.rdBytes p.2.1 p.2.2)) } s)) ∧
        WritesOut s0 k (.recv k) s ∧
        (r.formed = true → r.out = [] → Answers (exec (.recv k) s) (AtRun s k { r with formed := false, done := r.done + here } s))) ∧
      (c.op = 2 → r.done < c.len → m.id ≠ s.dev →
        (r.up = true → exec (.recv k) s = .next s0) ∧
        (r.up = false → s.inView op.part m.id = true → s0.canReach m = true → ∀ spans s1,
          s0.memberSpans r op m.id c.a1 c.len permR = (.ok spans, s1) →
          Answers (exec (.recv k) s) (AtRun s k { r with up := true, heldAt := 0 } s)))) ∧
    (∀ i ∈ [Instr.reduce k, .mcast k, .barrier k],
      (match i with | .reduce _ => c.op = 3 | .mcast _ => c.op = 4 | _ => c.op = 10) →
      (r.op = 0 → Answers (exec i s) (fun t => t.mem = s.mem ∧ t.crews = s.crews ∧
        mget t.collSeq (4096 * op.part + c.group) = mget s.collSeq (4096 * op.part + c.group) + 1 ∧
        (mget t.colls k).op = collKey op.part c.group (mget s.collSeq (4096 * op.part + c.group) + 1) + 1)) ∧
      (r.op ≠ 0 → let key := r.op - 1
        let o := mget s0.collOps key
        (o.failed ≠ 0 → Answers (exec i s) (fun t => ListEnds s k o.failed o.cause r.index t ∧ t.mem = s.mem)) ∧
        (o.failed = 0 → c.bad = false → c.op = 10 ∨ c.rank < g.n → g.elastic = false → (∀ x ∈ g.members, x.ext = false) →
          (c.op = 10 → o.has g.me = false → o.closed = false → Answers (exec i s) (fun t =>
            (mget t.collOps key).has g.me = true ∧ mget (mget t.collOps key).parts g.me = [] ∧ t.mem = s.mem ∧ t.crews = s.crews)) ∧
          (c.op = 3 → o.has g.me = false → o.closed = false → ∀ spans s1 l s2,
            s0.memberSpans r op s.dev c.a1 (if c.all_ = true ∨ g.me = c.rank then c.len else 0) permW = (.ok spans, s1) →
            s1.listRead r op c.a0 c.len = (.ok l, s2) → Answers (exec i s) (fun t =>
              (mget t.collOps key).has g.me = true ∧ mget (mget t.collOps key).parts g.me = reduceElems c.bf16 l ∧ t.mem = s.mem ∧ t.crews = s.crews)) ∧
          (o.has g.me = true → o.disagrees = false → o.ready = true → (g.children g.me).length ≤ r.served →
            (c.op = 4 → g.me ≠ c.rank → c.len ≤ o.landed → Answers (exec i s) (fun t => GoesOn s k t ∧ t.mem = s.mem)) ∧
            (c.op = 4 → g.me = c.rank → (g.children g.me).length + g.n ≤ r.served → o.acked = c.len * s0.podBelow g g.n →
              Answers (exec i s) (fun t => GoesOn s k t ∧ t.mem = s.mem)) ∧
            (c.op ≠ 4 →
              (r.formed = false → Answers (exec i s) (AtRun s k
                { r with formed := true, lines := [], out := lineSpans c.a1 (if c.op = 3 ∧ (c.all_ = true ∨ g.me = c.rank) then elemBytes c.bf16 o.result else []) } s)) ∧
              WritesOut s0 k i s ∧
              (r.formed = true → r.out = [] → Answers (exec i s) (fun t => GoesOn s k t ∧ t.mem = s.mem)))))))

/-! Power, errors and bring-up. -/

/-- R378, R379, R380, R381: a power state begins once its idle time has passed, and not before; a router port wakes at a wake signal; budgets and
scrubs take place once at their ticks; none of these changes memory or a register of a strand. A chiplet is throttled at 105 degrees until every
sensor is below, and at 120 degrees is fenced with ERR set. Where the rules leave a point open, the model's choice of log entries 5, 61 and 66
holds. -/
def Obligations.PowerAndTemperature : Prop :=
  ∀ (s : State) (k : Nat),
    (∀ j, k < 768 → j < 16 → (∀ o ∈ s.occupants k, o.1 ≠ j) → mget (s.core k).sliceUsed j + 64 ≤ s.clock →
      Answers (exec (.sliceGate k j) s) (fun t =>
        t.core k = { s.core k with sliceGated := mset (s.core k).sliceGated j true } ∧ { t with cores := [] } = { s with cores := [] })) ∧
    (∀ j, s.clock < mget (s.core k).sliceUsed j + 64 → exec (.sliceGate k j) s = .next s) ∧
    (let c := mget s.ctxs (ctxKey 2 k)
     k < 768 → c.issued = c.timeline → (s.core k).arrayUsed + 256 ≤ s.clock → (s.core k).arrayFree + 512 ≤ s.time →
      Answers (exec (.arrayGate k) s) (fun t =>
        t.core k = { s.core k with arrayGated := true } ∧ { t with cores := [] } = { s with cores := [] })) ∧
    (k < 768 → (s.core k).cistUsed + 4096 ≤ s.clock → Answers (exec (.cisternRetention k) s) (fun t =>
      t.core k = { s.core k with cistAsleep := true } ∧ { t with cores := [] } = { s with cores := [] })) ∧
    (mget s.routerDown k = false → mget s.routerUsed k + 8192 ≤ s.time → Answers (exec (.routerPortDown k) s) (fun t =>
      t = { s with routerDown := mset s.routerDown k true, routerUsed := mset s.routerUsed k s.time })) ∧
    (s.time < mget s.routerUsed k + 8192 → exec (.routerPortDown k) s = .next s) ∧
    Answers (exec (.wakeSignal k) s) (fun t =>
      mget t.routerDown k = false ∧
      mget t.routerUsed k = (if mget s.routerDown k = true ∧ mget s.routerUsed k ≠ s.time then s.time + 256 else max s.time (mget s.routerUsed k)) ∧
      (∀ j, j ≠ k → mget t.routerDown j = mget s.routerDown j ∧ mget t.routerUsed j = mget s.routerUsed j) ∧
      { t with routerDown := [], routerUsed := [] } = { s with routerDown := [], routerUsed := [] }) ∧
    (let r := mget s.net k
     s.reaches k r = true → s.arrives k r = false →
       ∀ i ∈ [Instr.loadAtHome k, .writeAtHome k, .atomicAtHome k],
         (match i with | .loadAtHome _ => r.kind = .load | .writeAtHome _ => r.kind = .store | _ => r.kind ≠ .load ∧ r.kind ≠ .store) →
         Answers (exec i s) (fun t => t.net = s.net ∧ t.home = s.home ∧ t.back = s.back ∧ t.mem = s.mem ∧
           mget t.routerDown (s.routerPort r) = false)) ∧
    (k < 36 → (mget s.ports k).usedAt + 2 ^ 20 ≤ s.time → (mget s.ports k).queue = 0 → Answers (exec (.linkLowPower k) s) (fun t =>
      t = { s with ports := mset s.ports k { mget s.ports k with lowPower := true } })) ∧
    (k < 512 → mget s.channelUsed k + 65536 ≤ s.time → Answers (exec (.selfRefresh k) s) (fun t =>
      t = { s with channelAsleep := mset s.channelAsleep k true })) ∧
    (s.time % 1024 = 0 → s.windowAt < s.time → Answers (exec .budgetWindow s) (fun t =>
      t.windowAt = s.time ∧ t.activity = [] ∧ t.mem = s.mem ∧ t.crews = s.crews)) ∧
    (s.scrubAt + 2 ^ 30 ≤ s.ltime → Answers (exec .scrub s) (fun t =>
      t.scrubAt = s.ltime ∧ t.scrubs = s.scrubs + 1 ∧ t.correctable = [] ∧ t.mem = s.mem ∧ t.crews = s.crews ∧ t.cores = s.cores)) ∧
    (s.ltime < s.scrubAt + 2 ^ 30 → Answers (exec .scrub s) (fun t =>
      t.scrubs = s.scrubs ∧ t.correctable = s.correctable.filter memoryUnit ∧ t.mem = s.mem ∧ t.crews = s.crews ∧ t.cores = s.cores)) ∧
    (k < 64 → (∃ j < 4, 105 ≤ mget s.sensors (4 * k + j)) →
      Answers (exec (.thermalThrottle k) s) (fun t => t = { s with throttled := mset s.throttled k true }) ∧
      exec (.thermalThrottleEnd k) s = .next s) ∧
    ((∀ j < 4, mget s.sensors (4 * k + j) < 105) →
      exec (.thermalThrottle k) s = .next s ∧
      Answers (exec (.thermalThrottleEnd k) s) (fun t => t = { s with throttled := mset s.throttled k false })) ∧
    (s.Tidy → k < 64 → (∃ j < 4, 120 ≤ mget s.sensors (4 * k + j)) → (s.chip k).getLsbD 2 = false ∨ s.fenced k = false →
      Answers (exec (.thermalTrip k) s) (fun t => t.fenced k = true ∧ (t.chip k).getLsbD 2 = true ∧
        ∀ u, (t.crew u).resident = true → (t.crew u).core / 12 ≠ k))

/-- R12, R374, R375, R376, R380, R382, R383, R384, R388: an uncorrectable error poisons its line, resets and fences its chiplet, or drops its caches,
and counts; each POWER_ON completes one stage: the first image that the boot ROM accepts runs, and the device serves at stage 8, with the near
tier zero, budgets within the package limit and every chiplet that the configuration puts into service unfenced; or it stops with ERR = 1 after
the last stage that it completed, and its registers can still be read; a CXL port goes down with its accesses, and comes back. Where the rules
leave a point open, the model's choice of log entries 59, 60, 61, 62 and 87 holds. -/
def Obligations.ErrorsAndBringUp : Prop :=
  (∀ (s : State) (k : Nat),
    (∀ unit pa, mget s.errIn k = .line unit pa → Answers (exec (.uncorrectableError k) s) (fun t =>
      t.poisoned pa = true ∧ (∀ q, lineOf q ≠ lineOf pa → t.poisoned q = s.poisoned q) ∧ t.mem = s.mem ∧ t.crews = s.crews ∧
      mget t.errIn k = default ∧
      (mget t.errcnt unit).toNat / 2 ^ 32 = min ((mget s.errcnt unit).toNat / 2 ^ 32 % 2 ^ 24 + 1) (2 ^ 24 - 1))) ∧
    (∀ c, mget s.errIn k = .chiplet c → s.Tidy → Answers (exec (.uncorrectableError k) s) (fun t =>
      t.fenced c = true ∧ (t.chip c).getLsbD 2 = true ∧ ∀ u, (t.crew u).resident = true → (t.crew u).core / 12 ≠ c)) ∧
    (∀ core, mget s.errIn k = .l1 core → Answers (exec (.uncorrectableError k) s) (fun t =>
      t.mem = s.mem ∧ t.crews = s.crews ∧ (∀ e ∈ t.l1, e.core ≠ core) ∧ (∀ e ∈ t.icache, e.core ≠ core) ∧ ∀ e ∈ t.tlb, e.owner ≠ core + 2)) ∧
    (k < 2 → Answers (exec (.cxlPortDown k) s) (fun t => mget t.cxlDown k = true ∧ (∀ e ∈ t.hostIn, e.2.die ≠ k) ∧
      (∀ e ∈ t.mmioIn, ¬(e.2.host = true ∧ e.2.die = k)) ∧ t.mem = s.mem ∧ t.crews = s.crews)) ∧
    Answers (exec (.cxlPortRetrained k) s) (fun t => t = { s with cxlDown := mset s.cxlDown k false })) ∧
  (∀ s : State, let n := s.bootstat.toNat % 16
    let i := if s.imageUsed = 2 then s.image2 else s.image
    (s.bootstat.getLsbD 8 = true ∨ 8 ≤ n → exec .powerOn s = .next s) ∧
    (s.bootstat.getLsbD 8 = true →
      (s.mmioIn = [] → step s = .fault .bringUpStopped) ∧
      (∀ k a, s.mmioIn = [(k, a)] → s.mmioAccess k .bootstat → a.write = false → Answers (step s) (fun t =>
        t.mmioOut = s.mmioOut ++ [s.bootstat] ∧ t.bootstat = s.bootstat))) ∧
    (s.bootstat.getLsbD 8 = false → n < 8 →
      let stops := n = 0 ∧ s.bootSlot = 0 ∨ n = 1 ∧ s.tests.bridge = true ∨ n = 2 ∧ s.tests.hbm ≠ 0
      (stops → Answers (exec .powerOn s) (fun t => t.bootstat.getLsbD 8 = true ∧ t.bootstat.toNat % 16 = n ∧ t = { s with bootstat := t.bootstat } ∧
        (n = 2 → t.bootstat.toNat / 2 ^ 16 = s.tests.hbm.toNat))) ∧
      (¬ stops → Answers (exec .powerOn s) (fun t => t.bootstat.getLsbD 8 = false ∧ t.bootstat.toNat % 16 = n + 1 ∧ t.crews = s.crews ∧
        (n = 0 → t.imageUsed = s.bootSlot ∧ t.rollbackFuse = max s.rollbackFuse (field (if s.bootSlot = 2 then s.image2 else s.image).header 8 4)) ∧
        (n ≠ 7 → t.mem = s.mem ∧ t.chipctl = s.chipctl) ∧
        (n = 7 → s.Tidy →
          (∀ a, s.dev * 2 ^ 44 ≤ a → a < s.dev * 2 ^ 44 + 2 ^ 40 → mget t.mem a = 0) ∧
          t.fwcfg = i.config &&& 0xFF0F ∧ (t.budgets.map (·.2)).sum ≤ t.packageLimit ∧ 4200 ≤ t.packageLimit ∧ t.packageLimit ≤ 6000 ∧
          ∀ c < 64, let e := (mget i.chipMap c).toNat
            (mget s.tests.chips c = true → t.fenced c = true ∧ (t.chip c).getLsbD 2 = true) ∧
            (mget s.tests.chips c = false → e < 8 → t.fenced c = false ∧ t.chipPart c = e) ∧
            (mget s.tests.chips c = false → 8 ≤ e → t.fenced c = true))))))

/-! The machine as a whole. -/

/-- R142, R153, R156: words whose bits the spec writes out read as the instructions that it names, one or more of each family, and words that it
calls illegal as none. -/
def Obligations.DecodingSampleWords : Prop :=
  decode 0x00000000 = .ok .nop ∧
  decode 0x000C5001 = .ok (.spr (.v 3) 10) ∧
  decode 0x0000100A = .ok (.wait (.v 2)) ∧
  decode 0x05000005 = .ok (.modeRm 5) ∧
  decode 0x0C77FFFC = .ok (.bru 7 1 0x3FFFC) ∧
  decode 0x181B1800 = .ok (.loop 6 (.s 3)) ∧
  decode 0x1C000003 = .ok .join ∧
  decode 0x200C0820 = .ok (.add ⟨false, .v 3, .v 1, .v 2⟩) ∧
  decode 0x2404164C = .ok (.bfx ⟨false, .v 1, .v 2, .s 4⟩) ∧
  decode 0x280C0E26 = .ok (.icmpTst ⟨3, .v 1, .s 2⟩) ∧
  decode 0x2E002042 = .ok (.fmul ⟨true, .v 0, .v 4, .v 4⟩) ∧
  decode 0x2C164633 = .ok (.fma ⟨.v 5, .l 0, .s 3⟩) ∧
  decode 0x30081836 = .ok (.fcmpUn ⟨2, .v 3, .v 3⟩) ∧
  decode 0x340C1060 = .ok (.cvt ⟨false, .v 3, .v 2, 6⟩) ∧
  decode 0x39900809 = .ok (.ballot (.s 4) 1) ∧
  decode 0x3C0C0820 = .ok (.pand 3 1 2) ∧
  decode 0x458C0003 = .ok (.movi false (.s 3) 3) ∧
  decode 0x51972808 = .ok (.uaddi (.s 5) (.s 5) 8) ∧
  decode 0x602080A4 = .ok (.ld ⟨.v 4, 2, .v 1, 2, 1, 0⟩) ∧
  decode 0x6C3132D1 = .ok (.atomIncb ⟨.v 6, 4, .s 5, 0, true⟩) ∧
  decode 0x9D4B6342 = .ok (.cpyG2c 10 11 12 13) ∧
  decode 0xA1230294 = .ok (.mma ⟨1, 2, 6, 0, 1, 9, false, true, false⟩) ∧
  decode 0xFFFFFFFF = .error .reservedMajor ∧
  decode 0x2E002043 = .error .latchForm ∧
  decode 0x200804CE = .error .unassignedFunction ∧
  decode 0x602080A8 = .error .reservedOrder

/-- R138, R140, R157: where a sub-gang is to issue and the word at its pc, four bytes of memory in little-endian order, decodes to an instruction,
step is that instruction's meaning followed by the end of the issue; a step that the agenda names comes before; and a device that stopped in
bring-up answers register accesses and does nothing more. Where the rules leave a point open, the model's choice of log entries 7 and 87 holds. -/
def Obligations.StepRunsDecodedInstruction : Prop :=
  ∀ s : State,
    (s.bootstat.getLsbD 8 = true → step s = s.stoppedStep) ∧
    (s.bootstat.getLsbD 8 = false →
      (∀ i r, s.agenda = i :: r → step s = exec i { s with agenda := r }) ∧
      (s.agenda = [] → s.nextIssue = none → step s = s.nextEvent s) ∧
      (∀ x, s.agenda = [] → s.nextIssue = some x →
        let q := s.issuing x
        let k := x.1.strands.headD 0
        let st := s.strand x.1.crew k
        let c := s.crew x.1.crew
        let l := s.crewLaunch c
        ∀ pa, st.walkFaults = [] → s.xlate c.core (domOf c.core) l.part l.space st.pc.toNat permX = .ok pa →
          s.cachedWord c.core pa = none → s.poisoned pa = false → devOf pa = s.dev →
          ∀ i, decode (BitVec.ofNat 32 (leNat (mgetList s.mem pa 4))) = .ok i →
            let run := q.cacheWord x.1.crew k (BitVec.ofNat 32 (leNat (mgetList s.mem pa 4)))
            (∀ t, exec i run = .next t → step s = .next t.afterIssue) ∧
            run.mem = s.mem ∧ run.crews = s.crews ∧ run.cur = x.1))

/-- R346, R383, R358, R342: after reset BOOTSTAT is 0, every chiplet is fenced with PART 0 and ERR 0, FABCFG and the tier pumps hold their reset
values, and nothing is resident, launched, bound, under way or held. Where the rules leave a point open, the model's choice of log entries 1 and
64 holds. -/
def Obligations.ResetState : Prop :=
  let s := State.reset
  s.bootstat = 0 ∧ (∀ c, s.chip c = 2) ∧ s.fabcfg = 0x01004001 ∧ (∀ d < 2, mget s.pumpCfg d = 0x404002) ∧
    (∀ u, s.crew u = default) ∧ (∀ l, s.launchOf l = default) ∧ (∀ k, mget s.slots k = default) ∧ s.net = [] ∧ s.home = [] ∧ s.back = [] ∧
    s.time = 0 ∧ s.l1 = [] ∧ s.tlb = [] ∧ s.icache = [] ∧ (∀ k, mget s.ops k = default) ∧ (∀ k, (s.core k).tvec = 0) ∧
    (∀ k, mget s.asroot k = 0) ∧ (∀ k, mget s.hostq k = 0)

/-- After reset the machine is tidy. -/
def Obligations.ResetIsTidy : Prop := State.reset.Tidy

/-- Every step keeps the machine tidy: memory and the tables of crews, cores and requests stay in their canonical forms, and no sub-gang names a
strand twice, whichever instruction or event the step is. -/
def Obligations.StepKeepsTidy : Prop :=
  ∀ s t : State, s.Tidy → step s = .next t → t.Tidy

/-- R141, R142, R143, R156: decoding the word of any well-formed instruction gives the instruction back, with every operand. -/
def Obligations.DecodingOfEncodings : Prop :=
  ∀ (i : Instr) (w : Word), i.wellFormed = true → encode i = some w → decode w = .ok i

/-- R141, R142, R143, R156: a word that decodes is the encoding of what it decodes to, which is well formed: no bit of a word is left unread. -/
def Obligations.EncodingOfDecodings : Prop :=
  ∀ (w : Word) (i : Instr), decode w = .ok i → i.wellFormed = true ∧ encode i = some w
end

