-- ==== Sys2Proof/Laws/Elements.lean ====
section
/-! SUPPORT. Elements of a word: packing patterns and reading them back, and the range of `fit`. -/

namespace Sys2Proof.Machine

theorem wrapN_lt (w : Nat) (x : Int) : wrapN w x < 2 ^ w := by
  unfold wrapN
  have h : (0 : Int) < ((2 ^ w : Nat) : Int) := by exact_mod_cast Nat.two_pow_pos w
  have h1 := Int.emod_nonneg x (ne_of_gt h)
  have h2 := Int.emod_lt_of_pos x h
  omega

theorem fitN_lt (w : Nat) (sg sat : Bool) (x : Int) : fitN w sg sat x < 2 ^ w := by
  unfold fitN; split <;> exact wrapN_lt _ _

/-- The element widths are 8, 16 and 32, and the elements fill the word. -/
theorem etWidth_cases (et : Nat) : (etWidth et = 8 ∧ etCount et = 4) ∨ (etWidth et = 16 ∧ etCount et = 2) ∨
    (etWidth et = 32 ∧ etCount et = 1) := by
  unfold etCount etWidth; split <;> [skip; split] <;> simp

theorem four_parts (a b c d : Nat) (ha : a < 256) (hb : b < 256) (hc : c < 256) (hd : d < 256) :
    let x := (a + (b * 256 + (c * 65536 + d * 16777216))) % 4294967296
    x / 1 % 256 = a ∧ x / 256 % 256 = b ∧ x / 65536 % 256 = c ∧ x / 16777216 % 256 = d := by
  intro x; refine ⟨?_, ?_, ?_, ?_⟩ <;> omega

theorem two_parts (a b : Nat) (ha : a < 65536) (hb : b < 65536) :
    let x := (a + b * 65536) % 4294967296
    x / 1 % 65536 = a ∧ x / 65536 % 65536 = b := by
  intro x; refine ⟨?_, ?_⟩ <;> omega

theorem packElems_toNat (w n : Nat) (f : Nat → Nat) : (packElems w n f).toNat
    = ((List.range n).map (fun k => f k % 2 ^ w * 2 ^ (w * k))).sum % 4294967296 := by
  unfold packElems; rw [BitVec.toNat_ofNat]
theorem range_sum4 (g : Nat → Nat) : ((List.range 4).map g).sum = g 0 + (g 1 + (g 2 + g 3)) := by
  simp [List.range, List.range.loop]
theorem range_sum2 (g : Nat → Nat) : ((List.range 2).map g).sum = g 0 + g 1 := by
  simp [List.range, List.range.loop]
theorem range_sum1 (g : Nat → Nat) : ((List.range 1).map g).sum = g 0 := by
  simp [List.range, List.range.loop]

theorem pack8 (f : Nat → Nat) (k : Nat) (hk : k < 4) : nbits (packElems 8 4 f).toNat (8 * k) 8 = f k % 2 ^ 8 := by
  have h := four_parts (f 0 % 256) (f 1 % 256) (f 2 % 256) (f 3 % 256) (Nat.mod_lt _ (by decide)) (Nat.mod_lt _ (by decide))
    (Nat.mod_lt _ (by decide)) (Nat.mod_lt _ (by decide))
  have e : (packElems 8 4 f).toNat
      = (f 0 % 256 + (f 1 % 256 * 256 + (f 2 % 256 * 65536 + f 3 % 256 * 16777216))) % 4294967296 := by
    rw [packElems_toNat, range_sum4]; congr 1; norm_num
  unfold nbits; rw [e]
  obtain h' | h' | h' | h' : k = 0 ∨ k = 1 ∨ k = 2 ∨ k = 3 := by omega
  · subst h'; norm_num; norm_num at h; exact h.1
  · subst h'; norm_num; norm_num at h; exact h.2.1
  · subst h'; norm_num; norm_num at h; exact h.2.2.1
  · subst h'; norm_num; norm_num at h; exact h.2.2.2

theorem pack16 (f : Nat → Nat) (k : Nat) (hk : k < 2) : nbits (packElems 16 2 f).toNat (16 * k) 16 = f k % 2 ^ 16 := by
  have h := two_parts (f 0 % 65536) (f 1 % 65536) (Nat.mod_lt _ (by decide)) (Nat.mod_lt _ (by decide))
  have e : (packElems 16 2 f).toNat = (f 0 % 65536 + f 1 % 65536 * 65536) % 4294967296 := by
    rw [packElems_toNat, range_sum2]; congr 1; norm_num
  unfold nbits; rw [e]
  have h1 := h.1
  have h2 := h.2
  obtain h' | h' : k = 0 ∨ k = 1 := by omega
  · subst h'; norm_num
  · subst h'; norm_num; exact h2

theorem pack32 (f : Nat → Nat) : nbits (packElems 32 1 f).toNat 0 32 = f 0 % 2 ^ 32 := by
  unfold nbits
  rw [packElems_toNat, range_sum1]; norm_num

/-- An element of a packed word is the pattern placed there. -/
theorem elemBits_packElems (et : Nat) (f : Nat → Nat) (k : Nat) (hk : k < etCount et) :
    elemBits et (packElems (etWidth et) (etCount et) f) k = f k % 2 ^ etWidth et := by
  unfold elemBits
  rcases etWidth_cases et with ⟨hw, hc⟩ | ⟨hw, hc⟩ | ⟨hw, hc⟩ <;> rw [hc] at hk <;> rw [hw, hc]
  · exact pack8 f k hk
  · exact pack16 f k hk
  · obtain h : k = 0 := by omega
    subst h; exact pack32 f

/-- An element of an elementwise integer result (R193). -/
theorem elemBits_mapInt (et : Nat) (sat : Bool) (g : Int → Int → Int) (a b : Word) (k : Nat) (hk : k < etCount et) :
    elemBits et (mapInt et sat g a b) k = fitN (etWidth et) (etSigned et) sat (g (elemInt et a k) (elemInt et b k)) := by
  unfold mapInt
  rw [elemBits_packElems et _ k hk]
  exact Nat.mod_eq_of_lt (fitN_lt _ _ _ _)

/-- An element of an elementwise result on patterns. -/
theorem elemBits_mapBits (et : Nat) (g : Nat → Nat → Nat) (a b : Word) (k : Nat) (hk : k < etCount et) :
    elemBits et (mapBits et g a b) k = g (elemBits et a k) (elemBits et b k) % 2 ^ etWidth et := by
  unfold mapBits; exact elemBits_packElems et _ k hk

/-! Masks of threads. -/

/-- The number with the bits `f 0` to `f (n - 1)`. -/
theorem mask_sum (f : Nat → Bool) (n : Nat) :
    ((List.range n).map (fun t => if f t then 2 ^ t else 0)).sum < 2 ^ n ∧
    ∀ t, t < n → ((List.range n).map (fun t => if f t then 2 ^ t else 0)).sum.testBit t = f t := by
  induction n with
  | zero => simp
  | succ n ih =>
    rw [List.range_succ, List.map_append, List.sum_append]
    simp only [List.map_cons, List.map_nil, List.sum_cons, List.sum_nil, Nat.add_zero]
    obtain ⟨h1, h2⟩ := ih
    generalize ((List.range n).map (fun t => if f t then 2 ^ t else 0)).sum = x at *
    constructor
    · rw [Nat.pow_succ]; split <;> omega
    · intro t ht
      cases hf : f n
      · simp only [Bool.false_eq_true, if_false, Nat.add_zero]
        by_cases h : t = n
        · subst h; rw [hf]; exact Nat.testBit_lt_two_pow h1
        · exact h2 t (by omega)
      · simp only [if_true]
        rw [Nat.add_comm]
        by_cases h : t = n
        · subst h; rw [hf, Nat.testBit_two_pow_add_eq, Nat.testBit_lt_two_pow h1]; rfl
        · rw [Nat.testBit_two_pow_add_gt (by omega)]; exact h2 t (by omega)

/-- Bit t of a mask that a test makes. -/
theorem maskOf_bit (f : Nat → Bool) (t : Nat) (ht : t < 32) : (maskOf f).getLsbD t = f t := by
  unfold maskOf
  obtain ⟨h1, h2⟩ := mask_sum f 32
  rw [BitVec.getLsbD_ofNat, h2 t ht]
  simp [ht]

/-- The threads of a mask are its bits below 32. -/
theorem mem_threadsOf (m : Word) (t : Nat) : t ∈ threadsOf m ↔ t < 32 ∧ m.getLsbD t = true := by
  simp [threadsOf, tbit]

end Sys2Proof.Machine
end

