-- ==== Sys2Proof/Laws/Exec.lean ====
section
/-! SUPPORT. The meaning of each instruction and step, as an equation: what `exec` calls. -/

namespace Sys2Proof.Machine

section
variable (s : State)

@[simp] theorem exec_nop : exec (.nop) s = execNop s := rfl
@[simp] theorem exec_spr (d : Opnd) (a : Fin 128) : exec (.spr d a) s = execSpr d a s := rfl
@[simp] theorem exec_brk (a : Fin 128) : exec (.brk a) s = execBrk a s := rfl
@[simp] theorem exec_trap (a : Fin 128) : exec (.trap a) s = execTrap a s := rfl
@[simp] theorem exec_tfence : exec (.tfence) s = execTfence s := rfl
@[simp] theorem exec_drain : exec (.drain) s = execDrain s := rfl
@[simp] theorem exec_yield : exec (.yield) s = execYield s := rfl
@[simp] theorem exec_seed (a : Opnd) : exec (.seed a) s = execSeed a s := rfl
@[simp] theorem exec_clock (d : Opnd) : exec (.clock d) s = execClock d s := rfl
@[simp] theorem exec_exit : exec (.exit) s = execExit s := rfl
@[simp] theorem exec_wait (a : Opnd) : exec (.wait a) s = execWait a s := rfl
@[simp] theorem exec_modeGp (g : Bool) (p : Fin 8) : exec (.modeGp g p) s = execModeGp g p s := rfl
@[simp] theorem exec_modeEt (e : Fin 16) : exec (.modeEt e) s = execModeEt e s := rfl
@[simp] theorem exec_modeRm (m : Fin 8) : exec (.modeRm m) s = execModeRm m s := rfl
@[simp] theorem exec_modeSatfz (z : Bool) (a : Bool) : exec (.modeSatfz z a) s = execModeSatfz z a s := rfl
@[simp] theorem exec_modeScope (c : Fin 8) : exec (.modeScope c) s = execModeScope c s := rfl
@[simp] theorem exec_modeTe (t : Fin 16) : exec (.modeTe t) s = execModeTe t s := rfl
@[simp] theorem exec_modeDh (h : Fin 4) : exec (.modeDh h) s = execModeDh h s := rfl
@[simp] theorem exec_modeAll (r : Fin 32) : exec (.modeAll r) s = execModeAll r s := rfl
@[simp] theorem exec_br (h : Bool) (p : Fin 8) (o : BitVec 21) : exec (.br h p o) s = execBr h p o s := rfl
@[simp] theorem exec_brn (h : Bool) (p : Fin 8) (o : BitVec 21) : exec (.brn h p o) s = execBrn h p o s := rfl
@[simp] theorem exec_bru (r : Fin 32) (c : Fin 4) (o : BitVec 18) : exec (.bru r c o) s = execBru r c o s := rfl
@[simp] theorem exec_jmp (o : BitVec 26) : exec (.jmp o) s = execJmp o s := rfl
@[simp] theorem exec_call (o : BitVec 26) : exec (.call o) s = execCall o s := rfl
@[simp] theorem exec_loop (len : Fin 256) (c : Opnd) : exec (.loop len c) s = execLoop len c s := rfl
@[simp] theorem exec_ret : exec (.ret) s = execRet s := rfl
@[simp] theorem exec_jr (a : Opnd) : exec (.jr a) s = execJr a s := rfl
@[simp] theorem exec_callr (a : Opnd) : exec (.callr a) s = execCallr a s := rfl
@[simp] theorem exec_join : exec (.join) s = execJoin s := rfl
@[simp] theorem exec_wconv : exec (.wconv) s = execWconv s := rfl
@[simp] theorem exec_lbrk : exec (.lbrk) s = execLbrk s := rfl
@[simp] theorem exec_add (f : FR3) : exec (.add f) s = execAdd f s := rfl
@[simp] theorem exec_sub (f : FR3) : exec (.sub f) s = execSub f s := rfl
@[simp] theorem exec_mul (f : FR3) : exec (.mul f) s = execMul f s := rfl
@[simp] theorem exec_mulhi (f : FR3) : exec (.mulhi f) s = execMulhi f s := rfl
@[simp] theorem exec_mad (f : FRA) : exec (.mad f) s = execMad f s := rfl
@[simp] theorem exec_div (f : FR3) : exec (.div f) s = execDiv f s := rfl
@[simp] theorem exec_rem (f : FR3) : exec (.rem f) s = execRem f s := rfl
@[simp] theorem exec_min (f : FR3) : exec (.min f) s = execMin f s := rfl
@[simp] theorem exec_max (f : FR3) : exec (.max f) s = execMax f s := rfl
@[simp] theorem exec_abs (f : FR2) : exec (.abs f) s = execAbs f s := rfl
@[simp] theorem exec_neg (f : FR2) : exec (.neg f) s = execNeg f s := rfl
@[simp] theorem exec_dot4 (f : FRA) : exec (.dot4 f) s = execDot4 f s := rfl
@[simp] theorem exec_dot2 (f : FRA) : exec (.dot2 f) s = execDot2 f s := rfl
@[simp] theorem exec_avg (f : FR3) : exec (.avg f) s = execAvg f s := rfl
@[simp] theorem exec_and (f : FR3) : exec (.and f) s = execAnd f s := rfl
@[simp] theorem exec_or (f : FR3) : exec (.or f) s = execOr f s := rfl
@[simp] theorem exec_xor (f : FR3) : exec (.xor f) s = execXor f s := rfl
@[simp] theorem exec_andn (f : FR3) : exec (.andn f) s = execAndn f s := rfl
@[simp] theorem exec_not (f : FR2) : exec (.not f) s = execNot f s := rfl
@[simp] theorem exec_shl (f : FR3) : exec (.shl f) s = execShl f s := rfl
@[simp] theorem exec_shr (f : FR3) : exec (.shr f) s = execShr f s := rfl
@[simp] theorem exec_sar (f : FR3) : exec (.sar f) s = execSar f s := rfl
@[simp] theorem exec_rol (f : FR3) : exec (.rol f) s = execRol f s := rfl
@[simp] theorem exec_popc (f : FR2) : exec (.popc f) s = execPopc f s := rfl
@[simp] theorem exec_clz (f : FR2) : exec (.clz f) s = execClz f s := rfl
@[simp] theorem exec_brev (f : FR2) : exec (.brev f) s = execBrev f s := rfl
@[simp] theorem exec_bfx (f : FR3) : exec (.bfx f) s = execBfx f s := rfl
@[simp] theorem exec_bfi (f : FRA) : exec (.bfi f) s = execBfi f s := rfl
@[simp] theorem exec_crc (f : FRA) : exec (.crc f) s = execCrc f s := rfl
@[simp] theorem exec_icmpEq (f : FCmp) : exec (.icmpEq f) s = execIcmpEq f s := rfl
@[simp] theorem exec_icmpNe (f : FCmp) : exec (.icmpNe f) s = execIcmpNe f s := rfl
@[simp] theorem exec_icmpLt (f : FCmp) : exec (.icmpLt f) s = execIcmpLt f s := rfl
@[simp] theorem exec_icmpLe (f : FCmp) : exec (.icmpLe f) s = execIcmpLe f s := rfl
@[simp] theorem exec_icmpGt (f : FCmp) : exec (.icmpGt f) s = execIcmpGt f s := rfl
@[simp] theorem exec_icmpGe (f : FCmp) : exec (.icmpGe f) s = execIcmpGe f s := rfl
@[simp] theorem exec_icmpTst (f : FCmp) : exec (.icmpTst f) s = execIcmpTst f s := rfl
@[simp] theorem exec_fadd (f : FR3) : exec (.fadd f) s = execFadd f s := rfl
@[simp] theorem exec_fsub (f : FR3) : exec (.fsub f) s = execFsub f s := rfl
@[simp] theorem exec_fmul (f : FR3) : exec (.fmul f) s = execFmul f s := rfl
@[simp] theorem exec_fma (f : FRA) : exec (.fma f) s = execFma f s := rfl
@[simp] theorem exec_fms (f : FRA) : exec (.fms f) s = execFms f s := rfl
@[simp] theorem exec_fmin (f : FR3) : exec (.fmin f) s = execFmin f s := rfl
@[simp] theorem exec_fmax (f : FR3) : exec (.fmax f) s = execFmax f s := rfl
@[simp] theorem exec_fabs (f : FR2) : exec (.fabs f) s = execFabs f s := rfl
@[simp] theorem exec_fneg (f : FR2) : exec (.fneg f) s = execFneg f s := rfl
@[simp] theorem exec_frcp (f : FR2) : exec (.frcp f) s = execFrcp f s := rfl
@[simp] theorem exec_frsq (f : FR2) : exec (.frsq f) s = execFrsq f s := rfl
@[simp] theorem exec_fsqrt (f : FR2) : exec (.fsqrt f) s = execFsqrt f s := rfl
@[simp] theorem exec_fdiv (f : FR3) : exec (.fdiv f) s = execFdiv f s := rfl
@[simp] theorem exec_fex2 (f : FR2) : exec (.fex2 f) s = execFex2 f s := rfl
@[simp] theorem exec_flg2 (f : FR2) : exec (.flg2 f) s = execFlg2 f s := rfl
@[simp] theorem exec_fscl (f : FR3) : exec (.fscl f) s = execFscl f s := rfl
@[simp] theorem exec_fcmpEq (f : FCmp) : exec (.fcmpEq f) s = execFcmpEq f s := rfl
@[simp] theorem exec_fcmpNe (f : FCmp) : exec (.fcmpNe f) s = execFcmpNe f s := rfl
@[simp] theorem exec_fcmpLt (f : FCmp) : exec (.fcmpLt f) s = execFcmpLt f s := rfl
@[simp] theorem exec_fcmpLe (f : FCmp) : exec (.fcmpLe f) s = execFcmpLe f s := rfl
@[simp] theorem exec_fcmpGt (f : FCmp) : exec (.fcmpGt f) s = execFcmpGt f s := rfl
@[simp] theorem exec_fcmpGe (f : FCmp) : exec (.fcmpGe f) s = execFcmpGe f s := rfl
@[simp] theorem exec_fcmpUn (f : FCmp) : exec (.fcmpUn f) s = execFcmpUn f s := rfl
@[simp] theorem exec_cvt (f : FCvt) : exec (.cvt f) s = execCvt f s := rfl
@[simp] theorem exec_qnt (f : FSlot) : exec (.qnt f) s = execQnt f s := rfl
@[simp] theorem exec_dqnt (f : FSlot) : exec (.dqnt f) s = execDqnt f s := rfl
@[simp] theorem exec_pack (f : FCvt) : exec (.pack f) s = execPack f s := rfl
@[simp] theorem exec_unpk (f : FCvt) : exec (.unpk f) s = execUnpk f s := rfl
@[simp] theorem exec_nest (f : FSlot) : exec (.nest f) s = execNest f s := rfl
@[simp] theorem exec_mov (f : FR2) : exec (.mov f) s = execMov f s := rfl
@[simp] theorem exec_shfi (f : FR3) : exec (.shfi f) s = execShfi f s := rfl
@[simp] theorem exec_shup (f : FR3) : exec (.shup f) s = execShup f s := rfl
@[simp] theorem exec_shdn (f : FR3) : exec (.shdn f) s = execShdn f s := rfl
@[simp] theorem exec_shxr (f : FR3) : exec (.shxr f) s = execShxr f s := rfl
@[simp] theorem exec_rds (f : FR2) : exec (.rds f) s = execRds f s := rfl
@[simp] theorem exec_rdmin (f : FR2) : exec (.rdmin f) s = execRdmin f s := rfl
@[simp] theorem exec_rdmax (f : FR2) : exec (.rdmax f) s = execRdmax f s := rfl
@[simp] theorem exec_scan (f : FR2) : exec (.scan f) s = execScan f s := rfl
@[simp] theorem exec_ballot (d : Opnd) (p : Fin 8) : exec (.ballot d p) s = execBallot d p s := rfl
@[simp] theorem exec_any (d : Opnd) (p : Fin 8) : exec (.any d p) s = execAny d p s := rfl
@[simp] theorem exec_all (d : Opnd) (p : Fin 8) : exec (.all d p) s = execAll d p s := rfl
@[simp] theorem exec_wrds (d : Opnd) (a : Opnd) : exec (.wrds d a) s = execWrds d a s := rfl
@[simp] theorem exec_pand (d : Fin 8) (a : Fin 8) (b : Fin 8) : exec (.pand d a b) s = execPand d a b s := rfl
@[simp] theorem exec_por (d : Fin 8) (a : Fin 8) (b : Fin 8) : exec (.por d a b) s = execPor d a b s := rfl
@[simp] theorem exec_pxor (d : Fin 8) (a : Fin 8) (b : Fin 8) : exec (.pxor d a b) s = execPxor d a b s := rfl
@[simp] theorem exec_pnot (d : Fin 8) (a : Fin 8) : exec (.pnot d a) s = execPnot d a s := rfl
@[simp] theorem exec_p2s (d : Opnd) (a : Fin 8) : exec (.p2s d a) s = execP2s d a s := rfl
@[simp] theorem exec_s2p (d : Fin 8) (a : Opnd) : exec (.s2p d a) s = execS2p d a s := rfl
@[simp] theorem exec_sel (k : Fin 8) (f : FR3) : exec (.sel k f) s = execSel k f s := rfl
@[simp] theorem exec_addi (f : FImm) : exec (.addi f) s = execAddi f s := rfl
@[simp] theorem exec_movi (n : Bool) (d : Opnd) (i : BitVec 18) : exec (.movi n d i) s = execMovi n d i s := rfl
@[simp] theorem exec_movh (d : Opnd) (j : Fin 4) (v : BitVec 16) : exec (.movh d j v) s = execMovh d j v s := rfl
@[simp] theorem exec_uadd (d : Fin 32) (a : Fin 32) (b : Fin 32) : exec (.uadd d a b) s = execUadd d a b s := rfl
@[simp] theorem exec_usub (d : Fin 32) (a : Fin 32) (b : Fin 32) : exec (.usub d a b) s = execUsub d a b s := rfl
@[simp] theorem exec_umul (d : Fin 32) (a : Fin 32) (b : Fin 32) : exec (.umul d a b) s = execUmul d a b s := rfl
@[simp] theorem exec_umulhi (d : Fin 32) (a : Fin 32) (b : Fin 32) : exec (.umulhi d a b) s = execUmulhi d a b s := rfl
@[simp] theorem exec_uand (d : Fin 32) (a : Fin 32) (b : Fin 32) : exec (.uand d a b) s = execUand d a b s := rfl
@[simp] theorem exec_uor (d : Fin 32) (a : Fin 32) (b : Fin 32) : exec (.uor d a b) s = execUor d a b s := rfl
@[simp] theorem exec_uxor (d : Fin 32) (a : Fin 32) (b : Fin 32) : exec (.uxor d a b) s = execUxor d a b s := rfl
@[simp] theorem exec_ushl (d : Fin 32) (a : Fin 32) (b : Fin 32) : exec (.ushl d a b) s = execUshl d a b s := rfl
@[simp] theorem exec_ushr (d : Fin 32) (a : Fin 32) (b : Fin 32) : exec (.ushr d a b) s = execUshr d a b s := rfl
@[simp] theorem exec_usar (d : Fin 32) (a : Fin 32) (b : Fin 32) : exec (.usar d a b) s = execUsar d a b s := rfl
@[simp] theorem exec_umin (d : Fin 32) (a : Fin 32) (b : Fin 32) : exec (.umin d a b) s = execUmin d a b s := rfl
@[simp] theorem exec_umax (d : Fin 32) (a : Fin 32) (b : Fin 32) : exec (.umax d a b) s = execUmax d a b s := rfl
@[simp] theorem exec_ucmplt (d : Fin 32) (a : Fin 32) (b : Fin 32) : exec (.ucmplt d a b) s = execUcmplt d a b s := rfl
@[simp] theorem exec_ucmpeq (d : Fin 32) (a : Fin 32) (b : Fin 32) : exec (.ucmpeq d a b) s = execUcmpeq d a b s := rfl
@[simp] theorem exec_ucmpltn (d : Fin 32) (a : Fin 32) (b : Fin 32) : exec (.ucmpltn d a b) s = execUcmpltn d a b s := rfl
@[simp] theorem exec_uaddi (d : Opnd) (a : Opnd) (i : BitVec 11) : exec (.uaddi d a i) s = execUaddi d a i s := rfl
@[simp] theorem exec_ishiShl (f : FShi) : exec (.ishiShl f) s = execIshiShl f s := rfl
@[simp] theorem exec_ishiShr (f : FShi) : exec (.ishiShr f) s = execIshiShr f s := rfl
@[simp] theorem exec_ishiSar (f : FShi) : exec (.ishiSar f) s = execIshiSar f s := rfl
@[simp] theorem exec_ishiRol (f : FShi) : exec (.ishiRol f) s = execIshiRol f s := rfl
@[simp] theorem exec_andi (f : FImm) : exec (.andi f) s = execAndi f s := rfl
@[simp] theorem exec_ld (f : FM) : exec (.ld f) s = execLd f s := rfl
@[simp] theorem exec_st (f : FM) : exec (.st f) s = execSt f s := rfl
@[simp] theorem exec_stp (f : FM) : exec (.stp f) s = execStp f s := rfl
@[simp] theorem exec_atomAdd (f : FMA) : exec (.atomAdd f) s = execAtomAdd f s := rfl
@[simp] theorem exec_atomMin (f : FMA) : exec (.atomMin f) s = execAtomMin f s := rfl
@[simp] theorem exec_atomMax (f : FMA) : exec (.atomMax f) s = execAtomMax f s := rfl
@[simp] theorem exec_atomMinu (f : FMA) : exec (.atomMinu f) s = execAtomMinu f s := rfl
@[simp] theorem exec_atomMaxu (f : FMA) : exec (.atomMaxu f) s = execAtomMaxu f s := rfl
@[simp] theorem exec_atomAnd (f : FMA) : exec (.atomAnd f) s = execAtomAnd f s := rfl
@[simp] theorem exec_atomOr (f : FMA) : exec (.atomOr f) s = execAtomOr f s := rfl
@[simp] theorem exec_atomXor (f : FMA) : exec (.atomXor f) s = execAtomXor f s := rfl
@[simp] theorem exec_atomXchg (f : FMA) : exec (.atomXchg f) s = execAtomXchg f s := rfl
@[simp] theorem exec_atomCas (f : FMA) : exec (.atomCas f) s = execAtomCas f s := rfl
@[simp] theorem exec_atomIncb (f : FMA) : exec (.atomIncb f) s = execAtomIncb f s := rfl
@[simp] theorem exec_atomFadd (f : FMA) : exec (.atomFadd f) s = execAtomFadd f s := rfl
@[simp] theorem exec_atomFaddbf (f : FMA) : exec (.atomFaddbf f) s = execAtomFaddbf f s := rfl
@[simp] theorem exec_atomFmax (f : FMA) : exec (.atomFmax f) s = execAtomFmax f s := rfl
@[simp] theorem exec_atomDecz (f : FMA) : exec (.atomDecz f) s = execAtomDecz f s := rfl
@[simp] theorem exec_atomwAdd (f : FMA) : exec (.atomwAdd f) s = execAtomwAdd f s := rfl
@[simp] theorem exec_atomwMin (f : FMA) : exec (.atomwMin f) s = execAtomwMin f s := rfl
@[simp] theorem exec_atomwMax (f : FMA) : exec (.atomwMax f) s = execAtomwMax f s := rfl
@[simp] theorem exec_atomwXchg (f : FMA) : exec (.atomwXchg f) s = execAtomwXchg f s := rfl
@[simp] theorem exec_atomwCas (f : FMA) : exec (.atomwCas f) s = execAtomwCas f s := rfl
@[simp] theorem exec_atomwCas128 (f : FMA) : exec (.atomwCas128 f) s = execAtomwCas128 f s := rfl
@[simp] theorem exec_atomwMaxp (f : FMA) : exec (.atomwMaxp f) s = execAtomwMaxp f s := rfl
@[simp] theorem exec_atomwIncb (f : FMA) : exec (.atomwIncb f) s = execAtomwIncb f s := rfl
@[simp] theorem exec_lda (f : FMz) : exec (.lda f) s = execLda f s := rfl
@[simp] theorem exec_sta (f : FMz) : exec (.sta f) s = execSta f s := rfl
@[simp] theorem exec_atomaAdd (f : FMo) : exec (.atomaAdd f) s = execAtomaAdd f s := rfl
@[simp] theorem exec_atomaMin (f : FMo) : exec (.atomaMin f) s = execAtomaMin f s := rfl
@[simp] theorem exec_atomaMax (f : FMo) : exec (.atomaMax f) s = execAtomaMax f s := rfl
@[simp] theorem exec_atomaAnd (f : FMo) : exec (.atomaAnd f) s = execAtomaAnd f s := rfl
@[simp] theorem exec_atomaOr (f : FMo) : exec (.atomaOr f) s = execAtomaOr f s := rfl
@[simp] theorem exec_atomaXor (f : FMo) : exec (.atomaXor f) s = execAtomaXor f s := rfl
@[simp] theorem exec_atomaXchg (f : FMo) : exec (.atomaXchg f) s = execAtomaXchg f s := rfl
@[simp] theorem exec_atomaCas (f : FMo) : exec (.atomaCas f) s = execAtomaCas f s := rfl
@[simp] theorem exec_atomaIncb (f : FMo) : exec (.atomaIncb f) s = execAtomaIncb f s := rfl
@[simp] theorem exec_atomaFadd (f : FMo) : exec (.atomaFadd f) s = execAtomaFadd f s := rfl
@[simp] theorem exec_atomaMaxp (f : FMo) : exec (.atomaMaxp f) s = execAtomaMaxp f s := rfl
@[simp] theorem exec_stx (f : FMz) : exec (.stx f) s = execStx f s := rfl
@[simp] theorem exec_puta (f : FMz) (h : Bool) : exec (.puta f h) s = execPuta f h s := rfl
@[simp] theorem exec_mst (f : FMz) : exec (.mst f) s = execMst f s := rfl
@[simp] theorem exec_pref (b : Fin 32) (i : Opnd) : exec (.pref b i) s = execPref b i s := rfl
@[simp] theorem exec_phint (x : Opnd) (b : Fin 32) (i : Opnd) : exec (.phint x b i) s = execPhint x b i s := rfl
@[simp] theorem exec_ldrop (b : Fin 32) (i : Opnd) : exec (.ldrop b i) s = execLdrop b i s := rfl
@[simp] theorem exec_fenceAcq (c : Fin 8) : exec (.fenceAcq c) s = execFenceAcq c s := rfl
@[simp] theorem exec_fenceRel (c : Fin 8) : exec (.fenceRel c) s = execFenceRel c s := rfl
@[simp] theorem exec_fenceAr (c : Fin 8) : exec (.fenceAr c) s = execFenceAr c s := rfl
@[simp] theorem exec_fenceSc (c : Fin 8) : exec (.fenceSc c) s = execFenceSc c s := rfl
@[simp] theorem exec_fenceAcks (c : Fin 8) : exec (.fenceAcks c) s = execFenceAcks c s := rfl
@[simp] theorem exec_winit (a : Fin 32) (b : Fin 32) (c : Fin 32) : exec (.winit a b c) s = execWinit a b c s := rfl
@[simp] theorem exec_warr (d : Fin 32) (a : Fin 32) (b : Fin 32) : exec (.warr d a b) s = execWarr d a b s := rfl
@[simp] theorem exec_wwait (a : Fin 32) (b : Fin 32) : exec (.wwait a b) s = execWwait a b s := rfl
@[simp] theorem exec_wtest (d : Fin 32) (a : Fin 32) (b : Fin 32) : exec (.wtest d a b) s = execWtest d a b s := rfl
@[simp] theorem exec_cbar : exec (.cbar) s = execCbar s := rfl
@[simp] theorem exec_xswap (a : Fin 32) : exec (.xswap a) s = execXswap a s := rfl
@[simp] theorem exec_wdrop (a : Fin 32) : exec (.wdrop a) s = execWdrop a s := rfl
@[simp] theorem exec_fwait (d : Fin 32) (a : Fin 32) : exec (.fwait d a) s = execFwait d a s := rfl
@[simp] theorem exec_ftest (d : Fin 32) (a : Fin 32) : exec (.ftest d a) s = execFtest d a s := rfl
@[simp] theorem exec_fcancel (a : Fin 32) : exec (.fcancel a) s = execFcancel a s := rfl
@[simp] theorem exec_tlread (d : Fin 32) (a : Fin 32) : exec (.tlread d a) s = execTlread d a s := rfl
@[simp] theorem exec_tlwait (a : Fin 32) (b : Fin 32) : exec (.tlwait a b) s = execTlwait a b s := rfl
@[simp] theorem exec_fjoin (d : Fin 32) (a : Fin 32) (b : Fin 32) : exec (.fjoin d a b) s = execFjoin d a b s := rfl
@[simp] theorem exec_cpyG2a (d : Fin 32) (a : Fin 32) (b : Fin 32) (c : Fin 32) : exec (.cpyG2a d a b c) s = execCpyG2a d a b c s := rfl
@[simp] theorem exec_cpyA2g (d : Fin 32) (a : Fin 32) (b : Fin 32) (c : Fin 32) : exec (.cpyA2g d a b c) s = execCpyA2g d a b c s := rfl
@[simp] theorem exec_cpyG2c (d : Fin 32) (a : Fin 32) (b : Fin 32) (c : Fin 32) : exec (.cpyG2c d a b c) s = execCpyG2c d a b c s := rfl
@[simp] theorem exec_cpyTcpy (d : Fin 32) (a : Fin 32) (b : Fin 32) (c : Fin 32) : exec (.cpyTcpy d a b c) s = execCpyTcpy d a b c s := rfl
@[simp] theorem exec_cpyGath (d : Fin 32) (a : Fin 32) (b : Fin 32) (c : Fin 32) : exec (.cpyGath d a b c) s = execCpyGath d a b c s := rfl
@[simp] theorem exec_cpyC2g (d : Fin 32) (a : Fin 32) (b : Fin 32) (c : Fin 32) : exec (.cpyC2g d a b c) s = execCpyC2g d a b c s := rfl
@[simp] theorem exec_mma (f : FX) : exec (.mma f) s = execMma f s := rfl
@[simp] theorem exec_azero (k : Fin 4) : exec (.azero k) s = execAzero k s := rfl
@[simp] theorem exec_acommit (d : Opnd) (k : Fin 4) (x : Fin 32) : exec (.acommit d k x) s = execAcommit d k x s := rfl
@[simp] theorem exec_arank (k : Fin 4) (x : Fin 32) : exec (.arank k x) s = execArank k x s := rfl
@[simp] theorem exec_arfold (j : Fin 4) (k : Fin 4) : exec (.arfold j k) s = execArfold j k s := rfl
@[simp] theorem exec_amov (f : FAcc) : exec (.amov f) s = execAmov f s := rfl
@[simp] theorem exec_amovw (f : FAcc) : exec (.amovw f) s = execAmovw f s := rfl
@[simp] theorem exec_athr (d : Opnd) (k : Fin 4) : exec (.athr d k) s = execAthr d k s := rfl
@[simp] theorem exec_arread (d : Opnd) (k : Fin 4) (x : Fin 32) : exec (.arread d k x) s = execArread d k x s := rfl
@[simp] theorem exec_aload (d : Opnd) (k : Fin 4) (x : Fin 32) : exec (.aload d k x) s = execAload d k x s := rfl
@[simp] theorem exec_tzero (k : Fin 16) : exec (.tzero k) s = execTzero k s := rfl
@[simp] theorem exec_tld (k : Fin 16) (x : Fin 32) : exec (.tld k x) s = execTld k x s := rfl
@[simp] theorem exec_tst (k : Fin 16) (x : Fin 32) : exec (.tst k x) s = execTst k x s := rfl
@[simp] theorem exec_tmov (f : FTile) : exec (.tmov f) s = execTmov f s := rfl
@[simp] theorem exec_tmovw (f : FTile) : exec (.tmovw f) s = execTmovw f s := rfl
@[simp] theorem exec_tscl (d : Opnd) (k : Fin 16) (x : Fin 32) (n : Fin 16) : exec (.tscl d k x n) s = execTscl d k x n s := rfl
@[simp] theorem exec_clrun (d : Fin 32) (a : Fin 32) (b : Fin 32) : exec (.clrun d a b) s = execClrun d a b s := rfl
@[simp] theorem exec_clsig (a : Fin 32) (b : Fin 32) : exec (.clsig a b) s = execClsig a b s := rfl
@[simp] theorem exec_launch (d : Fin 32) (a : Fin 32) : exec (.launch d a) s = execLaunch d a s := rfl
@[simp] theorem exec_lqtry (d : Fin 32) : exec (.lqtry d) s = execLqtry d s := rfl
@[simp] theorem exec_eret : exec (.eret) s = execEret s := rfl
@[simp] theorem exec_spw (d : Fin 128) (a : Opnd) : exec (.spw d a) s = execSpw d a s := rfl
@[simp] theorem exec_sprp (d : Opnd) (a : Fin 128) : exec (.sprp d a) s = execSprp d a s := rfl
@[simp] theorem exec_term (d : Fin 128) (a : Fin 128) : exec (.term d a) s = execTerm d a s := rfl
@[simp] theorem exec_tlbinv (a : Opnd) (b : Opnd) : exec (.tlbinv a b) s = execTlbinv a b s := rfl
@[simp] theorem exec_sfrqpop (d : Opnd) : exec (.sfrqpop d) s = execSfrqpop d s := rfl
@[simp] theorem exec_wspill (d : Opnd) (a : Opnd) (b : Opnd) : exec (.wspill d a b) s = execWspill d a b s := rfl
@[simp] theorem exec_wfill (d : Opnd) (a : Opnd) : exec (.wfill d a) s = execWfill d a s := rfl
@[simp] theorem exec_cEnd (k : Nat) : exec (.cEnd k) s = execCEnd k s := rfl
@[simp] theorem exec_send (k : Nat) : exec (.send k) s = execSend k s := rfl
@[simp] theorem exec_recv (k : Nat) : exec (.recv k) s = execRecv k s := rfl
@[simp] theorem exec_reduce (k : Nat) : exec (.reduce k) s = execReduce k s := rfl
@[simp] theorem exec_mcast (k : Nat) : exec (.mcast k) s = execMcast k s := rfl
@[simp] theorem exec_waittl (k : Nat) : exec (.waittl k) s = execWaittl k s := rfl
@[simp] theorem exec_waitweir (k : Nat) : exec (.waitweir k) s = execWaitweir k s := rfl
@[simp] theorem exec_signal (k : Nat) : exec (.signal k) s = execSignal k s := rfl
@[simp] theorem exec_compress (k : Nat) : exec (.compress k) s = execCompress k s := rfl
@[simp] theorem exec_decompress (k : Nat) : exec (.decompress k) s = execDecompress k s := rfl
@[simp] theorem exec_barrier (k : Nat) : exec (.barrier k) s = execBarrier k s := rfl
@[simp] theorem exec_issuePeriod : exec (.issuePeriod) s = execIssuePeriod s := rfl
@[simp] theorem exec_resultAvailable (u : Nat) (k : Nat) : exec (.resultAvailable u k) s = execResultAvailable u k s := rfl
@[simp] theorem exec_yieldExpiry (u : Nat) (k : Nat) : exec (.yieldExpiry u k) s = execYieldExpiry u k s := rfl
@[simp] theorem exec_waitDeadline (u : Nat) (k : Nat) : exec (.waitDeadline u k) s = execWaitDeadline u k s := rfl
@[simp] theorem exec_loadAtHome (k : Nat) : exec (.loadAtHome k) s = execLoadAtHome k s := rfl
@[simp] theorem exec_writeAtHome (k : Nat) : exec (.writeAtHome k) s = execWriteAtHome k s := rfl
@[simp] theorem exec_atomicAtHome (k : Nat) : exec (.atomicAtHome k) s = execAtomicAtHome k s := rfl
@[simp] theorem exec_leaseExpiry (k : Nat) : exec (.leaseExpiry k) s = execLeaseExpiry k s := rfl
@[simp] theorem exec_loadReply (k : Nat) : exec (.loadReply k) s = execLoadReply k s := rfl
@[simp] theorem exec_acknowledgement (k : Nat) : exec (.acknowledgement k) s = execAcknowledgement k s := rfl
@[simp] theorem exec_putAtDescriptor (k : Nat) : exec (.putAtDescriptor k) s = execPutAtDescriptor k s := rfl
@[simp] theorem exec_stxAtTarget (k : Nat) : exec (.stxAtTarget k) s = execStxAtTarget k s := rfl
@[simp] theorem exec_segmentArrival (k : Nat) (seg : Nat) : exec (.segmentArrival k seg) s = execSegmentArrival k seg s := rfl
@[simp] theorem exec_copyCompletion (k : Nat) (unit : Nat) : exec (.copyCompletion k unit) s = execCopyCompletion k unit s := rfl
@[simp] theorem exec_mmaCompletion (k : Nat) : exec (.mmaCompletion k) s = execMmaCompletion k s := rfl
@[simp] theorem exec_acommitCompletion (k : Nat) : exec (.acommitCompletion k) s = execAcommitCompletion k s := rfl
@[simp] theorem exec_aloadCompletion (k : Nat) : exec (.aloadCompletion k) s = execAloadCompletion k s := rfl
@[simp] theorem exec_trapEntry (u : Nat) (k : Nat) : exec (.trapEntry u k) s = execTrapEntry u k s := rfl
@[simp] theorem exec_crewRetire (k : Nat) : exec (.crewRetire k) s = execCrewRetire k s := rfl
@[simp] theorem exec_crewPlacement (k : Nat) : exec (.crewPlacement k) s = execCrewPlacement k s := rfl
@[simp] theorem exec_preemptionRequest (k : Nat) : exec (.preemptionRequest k) s = execPreemptionRequest k s := rfl
@[simp] theorem exec_crewSave (k : Nat) : exec (.crewSave k) s = execCrewSave k s := rfl
@[simp] theorem exec_crewRestore (k : Nat) : exec (.crewRestore k) s = execCrewRestore k s := rfl
@[simp] theorem exec_chipletReset (k : Nat) : exec (.chipletReset k) s = execChipletReset k s := rfl
@[simp] theorem exec_hostQueueAccept (k : Nat) : exec (.hostQueueAccept k) s = execHostQueueAccept k s := rfl
@[simp] theorem exec_dlqTake (k : Nat) : exec (.dlqTake k) s = execDlqTake k s := rfl
@[simp] theorem exec_stealRequest (dom : Nat) (l : Nat) : exec (.stealRequest dom l) s = execStealRequest dom l s := rfl
@[simp] theorem exec_stealRequestArrival (k : Nat) : exec (.stealRequestArrival k) s = execStealRequestArrival k s := rfl
@[simp] theorem exec_stealAnswerArrival (k : Nat) : exec (.stealAnswerArrival k) s = execStealAnswerArrival k s := rfl
@[simp] theorem exec_chipctlFence (k : Nat) : exec (.chipctlFence k) s = execChipctlFence k s := rfl
@[simp] theorem exec_chipctlUnfence (k : Nat) : exec (.chipctlUnfence k) s = execChipctlUnfence k s := rfl
@[simp] theorem exec_mmioWrite (k : Nat) : exec (.mmioWrite k) s = execMmioWrite k s := rfl
@[simp] theorem exec_errcntClear (k : Nat) : exec (.errcntClear k) s = execErrcntClear k s := rfl
@[simp] theorem exec_pairModeWrite (k : Nat) : exec (.pairModeWrite k) s = execPairModeWrite k s := rfl
@[simp] theorem exec_reportRequest (k : Nat) : exec (.reportRequest k) s = execReportRequest k s := rfl
@[simp] theorem exec_hostAccess (k : Nat) : exec (.hostAccess k) s = execHostAccess k s := rfl
@[simp] theorem exec_pageWalk (k : Nat) : exec (.pageWalk k) s = execPageWalk k s := rfl
@[simp] theorem exec_pumpEvaluation : exec (.pumpEvaluation) s = execPumpEvaluation s := rfl
@[simp] theorem exec_pageMoveCopy (k : Nat) : exec (.pageMoveCopy k) s = execPageMoveCopy k s := rfl
@[simp] theorem exec_reDecay : exec (.reDecay) s = execReDecay s := rfl
@[simp] theorem exec_packetArrival (k : Nat) : exec (.packetArrival k) s = execPacketArrival k s := rfl
@[simp] theorem exec_collectiveFailureNotice (k : Nat) : exec (.collectiveFailureNotice k) s = execCollectiveFailureNotice k s := rfl
@[simp] theorem exec_packetReturn (k : Nat) : exec (.packetReturn k) s = execPacketReturn k s := rfl
@[simp] theorem exec_reachTimeout (k : Nat) : exec (.reachTimeout k) s = execReachTimeout k s := rfl
@[simp] theorem exec_orderedFlagQuery (k : Nat) : exec (.orderedFlagQuery k) s = execOrderedFlagQuery k s := rfl
@[simp] theorem exec_orderedFlagAnswer (k : Nat) : exec (.orderedFlagAnswer k) s = execOrderedFlagAnswer k s := rfl
@[simp] theorem exec_demand (k : Nat) : exec (.demand k) s = execDemand k s := rfl
@[simp] theorem exec_grantIssue : exec (.grantIssue) s = execGrantIssue s := rfl
@[simp] theorem exec_grantArrival (k : Nat) : exec (.grantArrival k) s = execGrantArrival k s := rfl
@[simp] theorem exec_linkReplay (k : Nat) : exec (.linkReplay k) s = execLinkReplay k s := rfl
@[simp] theorem exec_linkDown (k : Nat) : exec (.linkDown k) s = execLinkDown k s := rfl
@[simp] theorem exec_bridgeRetrain : exec (.bridgeRetrain) s = execBridgeRetrain s := rfl
@[simp] theorem exec_elasticTimeout (k : Nat) : exec (.elasticTimeout k) s = execElasticTimeout k s := rfl
@[simp] theorem exec_keyExchange (k : Nat) : exec (.keyExchange k) s = execKeyExchange k s := rfl
@[simp] theorem exec_rekey (k : Nat) : exec (.rekey k) s = execRekey k s := rfl
@[simp] theorem exec_sliceGate (core : Nat) (slice : Nat) : exec (.sliceGate core slice) s = execSliceGate core slice s := rfl
@[simp] theorem exec_arrayGate (k : Nat) : exec (.arrayGate k) s = execArrayGate k s := rfl
@[simp] theorem exec_cisternRetention (k : Nat) : exec (.cisternRetention k) s = execCisternRetention k s := rfl
@[simp] theorem exec_routerPortDown (k : Nat) : exec (.routerPortDown k) s = execRouterPortDown k s := rfl
@[simp] theorem exec_wakeSignal (k : Nat) : exec (.wakeSignal k) s = execWakeSignal k s := rfl
@[simp] theorem exec_linkLowPower (k : Nat) : exec (.linkLowPower k) s = execLinkLowPower k s := rfl
@[simp] theorem exec_selfRefresh (k : Nat) : exec (.selfRefresh k) s = execSelfRefresh k s := rfl
@[simp] theorem exec_budgetWindow : exec (.budgetWindow) s = execBudgetWindow s := rfl
@[simp] theorem exec_thermalThrottle (k : Nat) : exec (.thermalThrottle k) s = execThermalThrottle k s := rfl
@[simp] theorem exec_thermalTrip (k : Nat) : exec (.thermalTrip k) s = execThermalTrip k s := rfl
@[simp] theorem exec_scrub : exec (.scrub) s = execScrub s := rfl
@[simp] theorem exec_uncorrectableError (k : Nat) : exec (.uncorrectableError k) s = execUncorrectableError k s := rfl
@[simp] theorem exec_powerOn : exec (.powerOn) s = execPowerOn s := rfl
@[simp] theorem exec_cxlPortDown (k : Nat) : exec (.cxlPortDown k) s = execCxlPortDown k s := rfl
@[simp] theorem exec_tldTstAbCyclesDone (u : Nat) (k : Nat) : exec (.tldTstAbCyclesDone u k) s = execTldTstAbCyclesDone u k s := rfl
@[simp] theorem exec_arfoldDone (u : Nat) (k : Nat) : exec (.arfoldDone u k) s = execArfoldDone u k s := rfl
@[simp] theorem exec_readOutDone (k : Nat) : exec (.readOutDone k) s = execReadOutDone k s := rfl
@[simp] theorem exec_linkUp (k : Nat) : exec (.linkUp k) s = execLinkUp k s := rfl
@[simp] theorem exec_cxlPortRetrained (k : Nat) : exec (.cxlPortRetrained k) s = execCxlPortRetrained k s := rfl
@[simp] theorem exec_bridgeRetrainDone : exec (.bridgeRetrainDone) s = execBridgeRetrainDone s := rfl
@[simp] theorem exec_thermalThrottleEnd (k : Nat) : exec (.thermalThrottleEnd k) s = execThermalThrottleEnd k s := rfl
@[simp] theorem exec_retransmissionTimeout (k : Nat) : exec (.retransmissionTimeout k) s = execRetransmissionTimeout k s := rfl
end

end Sys2Proof.Machine
end

