-- ==== Sys2Proof/Laws/Table.lean ====
section
/-! SUPPORT. What reading and writing a sparse table does: read after write, other keys untouched, the canonical form kept. -/

namespace Sys2Proof.Machine

variable {α : Type}

@[simp] theorem mget_nil [Inhabited α] (k : Nat) : mget ([] : FMap α) k = default := rfl

theorem mget_beyond [Inhabited α] (m : FMap α) (k j : Nat) : mget (mbeyond m k) j = if j ≤ k then default else mget m j := by
  induction m with
  | nil => simp [mbeyond, mget]
  | cons e r ih =>
    obtain ⟨a, x⟩ := e
    by_cases h : a ≤ k
    · rw [mbeyond, if_pos h, ih]
      split
      · rfl
      · rw [mget, if_neg (by omega), if_neg (by omega)]
    · rw [mbeyond, if_neg h]
      split
      · rw [mget, if_pos (by omega)]
      · rfl

/-- Read after write, whatever the table: the key written reads as the value, every other key as before. -/
@[simp] theorem mget_mset [Inhabited α] [DecidableEq α] (m : FMap α) (k : Nat) (v : α) (j : Nat) :
    mget (mset m k v) j = if j = k then v else mget m j := by
  induction m with
  | nil =>
    by_cases hv : v = default
    · simp only [mset, if_pos hv, mget_nil]; split <;> simp [hv]
    · simp only [mset, if_neg hv, mget]
      split
      · rw [if_neg (by omega)]
      · split <;> rfl
  | cons e r ih =>
    obtain ⟨a, x⟩ := e
    by_cases h1 : k < a
    · by_cases hv : v = default
      · rw [mset, if_pos h1, if_pos hv]
        by_cases hj : j = k
        · rw [if_pos hj, mget, if_pos (by omega), hv]
        · rw [if_neg hj]
      · rw [mset, if_pos h1, if_neg hv, mget]
        by_cases hj : j = k
        · simp [hj]
        · rw [if_neg hj]
          by_cases hl : j < k
          · rw [if_pos hl, mget, if_pos (by omega)]
          · rw [if_neg hl]
    · by_cases h2 : k = a
      · subst h2
        by_cases hv : v = default
        · rw [mset, if_neg h1, if_pos rfl, if_pos hv, mget_beyond]
          by_cases hj : j = k
          · rw [if_pos (by omega), if_pos hj, hv]
          · rw [if_neg hj, mget]
            by_cases hl : j < k
            · rw [if_pos (by omega), if_pos hl]
            · rw [if_neg (by omega), if_neg hl, if_neg hj]
        · rw [mset, if_neg h1, if_pos rfl, if_neg hv, mget, mget, mget_beyond]
          by_cases hj : j = k
          · rw [if_neg (by omega), if_pos hj, if_pos hj]
          · rw [if_neg hj]
            by_cases hl : j < k
            · simp [hl, hj]
            · rw [if_neg hl, if_neg hj, if_neg hl, if_neg hj, if_neg (by omega)]
      · rw [mset, if_neg h1, if_neg h2, mget, mget, ih]
        by_cases hj : j = k
        · rw [if_neg (by omega), if_neg (by omega), if_pos hj, if_pos hj]
        · rw [if_neg hj, if_neg hj]

theorem mget_mset_same [Inhabited α] [DecidableEq α] (m : FMap α) (k : Nat) (v : α) : mget (mset m k v) k = v := by simp

theorem mget_mset_ne [Inhabited α] [DecidableEq α] (m : FMap α) {k j : Nat} (v : α) (h : j ≠ k) :
    mget (mset m k v) j = mget m j := by simp [h]

theorem mwfAbove_mono [Inhabited α] [DecidableEq α] {lo hi : Nat} {m : FMap α} (h : mwfAbove hi m = true) (hl : lo ≤ hi) :
    mwfAbove lo m = true := by
  cases m with
  | nil => rfl
  | cons e r => simp only [mwfAbove, Bool.and_eq_true, decide_eq_true_eq] at *; exact ⟨⟨by omega, h.1.2⟩, h.2⟩

theorem mwfAbove_beyond [Inhabited α] [DecidableEq α] (m : FMap α) (lo k : Nat) (h : mwfAbove lo m = true) :
    mwfAbove (max lo (k + 1)) (mbeyond m k) = true := by
  induction m generalizing lo with
  | nil => rfl
  | cons e r ih =>
    obtain ⟨a, x⟩ := e
    simp only [mwfAbove, Bool.and_eq_true, decide_eq_true_eq] at h
    by_cases ha : a ≤ k
    · rw [mbeyond, if_pos ha]
      exact mwfAbove_mono (ih (a + 1) h.2) (by omega)
    · rw [mbeyond, if_neg ha]
      simp only [mwfAbove, Bool.and_eq_true, decide_eq_true_eq]
      exact ⟨⟨by omega, h.1.2⟩, h.2⟩

theorem mwfAbove_mset [Inhabited α] [DecidableEq α] (m : FMap α) (lo k : Nat) (v : α) (h : mwfAbove lo m = true)
    (hk : lo ≤ k) : mwfAbove lo (mset m k v) = true := by
  induction m generalizing lo with
  | nil =>
    by_cases hv : v = default
    · simp [mset, hv, mwfAbove]
    · simp [mset, hv, mwfAbove, hk]
  | cons e r ih =>
    obtain ⟨a, x⟩ := e
    have h0 := h
    simp only [mwfAbove, Bool.and_eq_true, decide_eq_true_eq] at h
    by_cases h1 : k < a
    · by_cases hv : v = default
      · rw [mset, if_pos h1, if_pos hv]; exact h0
      · rw [mset, if_pos h1, if_neg hv]
        simp only [mwfAbove, Bool.and_eq_true, decide_eq_true_eq]
        exact ⟨⟨hk, hv⟩, ⟨⟨by omega, h.1.2⟩, h.2⟩⟩
    · by_cases h2 : k = a
      · have hb := mwfAbove_beyond r (a + 1) k h.2
        by_cases hv : v = default
        · rw [mset, if_neg h1, if_pos h2, if_pos hv]
          exact mwfAbove_mono hb (by omega)
        · rw [mset, if_neg h1, if_pos h2, if_neg hv]
          simp only [mwfAbove, Bool.and_eq_true, decide_eq_true_eq]
          exact ⟨⟨hk, hv⟩, mwfAbove_mono hb (by omega)⟩
      · rw [mset, if_neg h1, if_neg h2]
        simp only [mwfAbove, Bool.and_eq_true, decide_eq_true_eq]
        exact ⟨h.1, ih (a + 1) h.2 (by omega)⟩

/-- Writing a key keeps the canonical form. -/
theorem mwf_mset [Inhabited α] [DecidableEq α] (m : FMap α) (k : Nat) (v : α) (h : mwf m = true) : mwf (mset m k v) = true :=
  mwfAbove_mset m 0 k v h (Nat.zero_le k)

/-- Writing consecutive keys keeps the canonical form. -/
theorem mwf_msetList [Inhabited α] [DecidableEq α] (l : List α) : ∀ (m : FMap α) (k : Nat), mwf m = true →
    mwf (msetList m k l) = true := by
  induction l with
  | nil => exact fun _ _ h => h
  | cons v r ih => exact fun m k h => ih _ _ (mwf_mset m k v h)

/-- Writing consecutive keys leaves every key outside them as it was. -/
theorem mget_msetList_out [Inhabited α] [DecidableEq α] (l : List α) : ∀ (m : FMap α) (k j : Nat),
    j < k ∨ k + l.length ≤ j → mget (msetList m k l) j = mget m j := by
  induction l with
  | nil => intros; rfl
  | cons v r ih =>
    intro m k j h
    simp only [List.length_cons] at h
    rw [msetList, ih _ _ _ (by omega), mget_mset_ne _ _ (by omega)]

/-- Writing consecutive keys puts the i-th value at the i-th key. -/
theorem mget_msetList_in [Inhabited α] [DecidableEq α] (l : List α) : ∀ (m : FMap α) (k i : Nat) (h : i < l.length),
    mget (msetList m k l) (k + i) = l[i] := by
  induction l with
  | nil => intro m k i h; simp at h
  | cons v r ih =>
    intro m k i h
    cases i with
    | zero => rw [msetList, mget_msetList_out _ _ _ _ (by omega)]; simp
    | succ i =>
      have := ih (mset m k v) (k + 1) i (by simpa using h)
      rw [msetList, show k + (i + 1) = k + 1 + i by omega, this]; rfl

end Sys2Proof.Machine
end

