-- ==== Sys2Proof/Laws/State.lean ====
section
/-! SUPPORT. What each update of the state leaves of each field: one lemma per field per update, true by computation, so that no proof
unfolds a record update; and the equations of the updates of a strand. -/

namespace Sys2Proof.Machine

/-! State.setCrew. -/

section
variable (s : State) (u : Nat) (c : Crew)
@[simp] theorem State.setCrew_time : (s.setCrew u c).time = s.time := rfl
@[simp] theorem State.setCrew_agenda : (s.setCrew u c).agenda = s.agenda := rfl
@[simp] theorem State.setCrew_issueQ : (s.setCrew u c).issueQ = s.issueQ := rfl
@[simp] theorem State.setCrew_taken : (s.setCrew u c).taken = s.taken := rfl
@[simp] theorem State.setCrew_cur : (s.setCrew u c).cur = s.cur := rfl
@[simp] theorem State.setCrew_nextId : (s.setCrew u c).nextId = s.nextId := rfl
@[simp] theorem State.setCrew_free : (s.setCrew u c).free = s.free := rfl
@[simp] theorem State.setCrew_dev : (s.setCrew u c).dev = s.dev := rfl
@[simp] theorem State.setCrew_mem : (s.setCrew u c).mem = s.mem := rfl
@[simp] theorem State.setCrew_poison : (s.setCrew u c).poison = s.poison := rfl
@[simp] theorem State.setCrew_lease : (s.setCrew u c).lease = s.lease := rfl
@[simp] theorem State.setCrew_seqs : (s.setCrew u c).seqs = s.seqs := rfl
@[simp] theorem State.setCrew_pairLocal : (s.setCrew u c).pairLocal = s.pairLocal := rfl
@[simp] theorem State.setCrew_net : (s.setCrew u c).net = s.net := rfl
@[simp] theorem State.setCrew_home : (s.setCrew u c).home = s.home := rfl
@[simp] theorem State.setCrew_back : (s.setCrew u c).back = s.back := rfl
@[simp] theorem State.setCrew_l1 : (s.setCrew u c).l1 = s.l1 := rfl
@[simp] theorem State.setCrew_icache : (s.setCrew u c).icache = s.icache := rfl
@[simp] theorem State.setCrew_tlb : (s.setCrew u c).tlb = s.tlb := rfl
@[simp] theorem State.setCrew_walks : (s.setCrew u c).walks = s.walks := rfl
@[simp] theorem State.setCrew_engineFaults : (s.setCrew u c).engineFaults = s.engineFaults := rfl
@[simp] theorem State.setCrew_crews : (s.setCrew u c).crews = mset s.crews u c := rfl
@[simp] theorem State.setCrew_cores : (s.setCrew u c).cores = s.cores := rfl
@[simp] theorem State.setCrew_ctxs : (s.setCrew u c).ctxs = s.ctxs := rfl
@[simp] theorem State.setCrew_ops : (s.setCrew u c).ops = s.ops := rfl
@[simp] theorem State.setCrew_results : (s.setCrew u c).results = s.results := rfl
@[simp] theorem State.setCrew_signals : (s.setCrew u c).signals = s.signals := rfl
@[simp] theorem State.setCrew_colls : (s.setCrew u c).colls = s.colls := rfl
@[simp] theorem State.setCrew_collOps : (s.setCrew u c).collOps = s.collOps := rfl
@[simp] theorem State.setCrew_collSeq : (s.setCrew u c).collSeq = s.collSeq := rfl
@[simp] theorem State.setCrew_weirs : (s.setCrew u c).weirs = s.weirs := rfl
@[simp] theorem State.setCrew_sfrq : (s.setCrew u c).sfrq = s.sfrq := rfl
@[simp] theorem State.setCrew_launches : (s.setCrew u c).launches = s.launches := rfl
@[simp] theorem State.setCrew_nextLaunch : (s.setCrew u c).nextLaunch = s.nextLaunch := rfl
@[simp] theorem State.setCrew_dlq : (s.setCrew u c).dlq = s.dlq := rfl
@[simp] theorem State.setCrew_slots : (s.setCrew u c).slots = s.slots := rfl
@[simp] theorem State.setCrew_steals : (s.setCrew u c).steals = s.steals := rfl
@[simp] theorem State.setCrew_firstBound : (s.setCrew u c).firstBound = s.firstBound := rfl
@[simp] theorem State.setCrew_bootstat : (s.setCrew u c).bootstat = s.bootstat := rfl
@[simp] theorem State.setCrew_fabcfg : (s.setCrew u c).fabcfg = s.fabcfg := rfl
@[simp] theorem State.setCrew_pumpCfg : (s.setCrew u c).pumpCfg = s.pumpCfg := rfl
@[simp] theorem State.setCrew_fwcfg : (s.setCrew u c).fwcfg = s.fwcfg := rfl
@[simp] theorem State.setCrew_chipctl : (s.setCrew u c).chipctl = s.chipctl := rfl
@[simp] theorem State.setCrew_asroot : (s.setCrew u c).asroot = s.asroot := rfl
@[simp] theorem State.setCrew_plist : (s.setCrew u c).plist = s.plist := rfl
@[simp] theorem State.setCrew_plcnt : (s.setCrew u c).plcnt = s.plcnt := rfl
@[simp] theorem State.setCrew_pview : (s.setCrew u c).pview = s.pview := rfl
@[simp] theorem State.setCrew_groute : (s.setCrew u c).groute = s.groute := rfl
@[simp] theorem State.setCrew_mgroup : (s.setCrew u c).mgroup = s.mgroup := rfl
@[simp] theorem State.setCrew_cgroup : (s.setCrew u c).cgroup = s.cgroup := rfl
@[simp] theorem State.setCrew_sessTab : (s.setCrew u c).sessTab = s.sessTab := rfl
@[simp] theorem State.setCrew_sessions : (s.setCrew u c).sessions = s.sessions := rfl
@[simp] theorem State.setCrew_hostq : (s.setCrew u c).hostq = s.hostq := rfl
@[simp] theorem State.setCrew_errcnt : (s.setCrew u c).errcnt = s.errcnt := rfl
@[simp] theorem State.setCrew_mailbox : (s.setCrew u c).mailbox = s.mailbox := rfl
@[simp] theorem State.setCrew_reports : (s.setCrew u c).reports = s.reports := rfl
@[simp] theorem State.setCrew_msix : (s.setCrew u c).msix = s.msix := rfl
@[simp] theorem State.setCrew_moves : (s.setCrew u c).moves = s.moves := rfl
@[simp] theorem State.setCrew_evalAt : (s.setCrew u c).evalAt = s.evalAt := rfl
@[simp] theorem State.setCrew_decayAt : (s.setCrew u c).decayAt = s.decayAt := rfl
@[simp] theorem State.setCrew_ports : (s.setCrew u c).ports = s.ports := rfl
@[simp] theorem State.setCrew_packetsIn : (s.setCrew u c).packetsIn = s.packetsIn := rfl
@[simp] theorem State.setCrew_packetsOut : (s.setCrew u c).packetsOut = s.packetsOut := rfl
@[simp] theorem State.setCrew_held : (s.setCrew u c).held = s.held := rfl
@[simp] theorem State.setCrew_pathCnt : (s.setCrew u c).pathCnt = s.pathCnt := rfl
@[simp] theorem State.setCrew_hopsDown : (s.setCrew u c).hopsDown = s.hopsDown := rfl
@[simp] theorem State.setCrew_circuits : (s.setCrew u c).circuits = s.circuits := rfl
@[simp] theorem State.setCrew_flagAsk : (s.setCrew u c).flagAsk = s.flagAsk := rfl
@[simp] theorem State.setCrew_demands : (s.setCrew u c).demands = s.demands := rfl
@[simp] theorem State.setCrew_lastServed : (s.setCrew u c).lastServed = s.lastServed := rfl
@[simp] theorem State.setCrew_grantWindow : (s.setCrew u c).grantWindow = s.grantWindow := rfl
@[simp] theorem State.setCrew_grantsUsed : (s.setCrew u c).grantsUsed = s.grantsUsed := rfl
@[simp] theorem State.setCrew_asked : (s.setCrew u c).asked = s.asked := rfl
@[simp] theorem State.setCrew_credits : (s.setCrew u c).credits = s.credits := rfl
@[simp] theorem State.setCrew_bridgeDown : (s.setCrew u c).bridgeDown = s.bridgeDown := rfl
@[simp] theorem State.setCrew_bridgeAt : (s.setCrew u c).bridgeAt = s.bridgeAt := rfl
@[simp] theorem State.setCrew_bridgeResent : (s.setCrew u c).bridgeResent = s.bridgeResent := rfl
@[simp] theorem State.setCrew_routerDown : (s.setCrew u c).routerDown = s.routerDown := rfl
@[simp] theorem State.setCrew_routerUsed : (s.setCrew u c).routerUsed = s.routerUsed := rfl
@[simp] theorem State.setCrew_channelAsleep : (s.setCrew u c).channelAsleep = s.channelAsleep := rfl
@[simp] theorem State.setCrew_channelUsed : (s.setCrew u c).channelUsed = s.channelUsed := rfl
@[simp] theorem State.setCrew_ethDown : (s.setCrew u c).ethDown = s.ethDown := rfl
@[simp] theorem State.setCrew_ethLow : (s.setCrew u c).ethLow = s.ethLow := rfl
@[simp] theorem State.setCrew_ethUsed : (s.setCrew u c).ethUsed = s.ethUsed := rfl
@[simp] theorem State.setCrew_cxlDown : (s.setCrew u c).cxlDown = s.cxlDown := rfl
@[simp] theorem State.setCrew_throttled : (s.setCrew u c).throttled = s.throttled := rfl
@[simp] theorem State.setCrew_sensors : (s.setCrew u c).sensors = s.sensors := rfl
@[simp] theorem State.setCrew_windowAt : (s.setCrew u c).windowAt = s.windowAt := rfl
@[simp] theorem State.setCrew_budgets : (s.setCrew u c).budgets = s.budgets := rfl
@[simp] theorem State.setCrew_activity : (s.setCrew u c).activity = s.activity := rfl
@[simp] theorem State.setCrew_scrubAt : (s.setCrew u c).scrubAt = s.scrubAt := rfl
@[simp] theorem State.setCrew_scrubs : (s.setCrew u c).scrubs = s.scrubs := rfl
@[simp] theorem State.setCrew_rollbackFuse : (s.setCrew u c).rollbackFuse = s.rollbackFuse := rfl
@[simp] theorem State.setCrew_rollbackRaised : (s.setCrew u c).rollbackRaised = s.rollbackRaised := rfl
@[simp] theorem State.setCrew_image : (s.setCrew u c).image = s.image := rfl
@[simp] theorem State.setCrew_image2 : (s.setCrew u c).image2 = s.image2 := rfl
@[simp] theorem State.setCrew_tests : (s.setCrew u c).tests = s.tests := rfl
@[simp] theorem State.setCrew_imageUsed : (s.setCrew u c).imageUsed = s.imageUsed := rfl
@[simp] theorem State.setCrew_hostIn : (s.setCrew u c).hostIn = s.hostIn := rfl
@[simp] theorem State.setCrew_hostOut : (s.setCrew u c).hostOut = s.hostOut := rfl
@[simp] theorem State.setCrew_mmioIn : (s.setCrew u c).mmioIn = s.mmioIn := rfl
@[simp] theorem State.setCrew_mmioOut : (s.setCrew u c).mmioOut = s.mmioOut := rfl
@[simp] theorem State.setCrew_errIn : (s.setCrew u c).errIn = s.errIn := rfl
@[simp] theorem State.setCrew_correctable : (s.setCrew u c).correctable = s.correctable := rfl
@[simp] theorem State.setCrew_mgmtIrq : (s.setCrew u c).mgmtIrq = s.mgmtIrq := rfl
@[simp] theorem State.setCrew_fillerJob : (s.setCrew u c).fillerJob = s.fillerJob := rfl
@[simp] theorem State.setCrew_pulls : (s.setCrew u c).pulls = s.pulls := rfl
@[simp] theorem State.setCrew_packageLimit : (s.setCrew u c).packageLimit = s.packageLimit := rfl
@[simp] theorem State.setCrew_mmioAcks : (s.setCrew u c).mmioAcks = s.mmioAcks := rfl
end

/-! State.setCore. -/

section
variable (s : State) (n : Nat) (c : Core)
@[simp] theorem State.setCore_time : (s.setCore n c).time = s.time := rfl
@[simp] theorem State.setCore_agenda : (s.setCore n c).agenda = s.agenda := rfl
@[simp] theorem State.setCore_issueQ : (s.setCore n c).issueQ = s.issueQ := rfl
@[simp] theorem State.setCore_taken : (s.setCore n c).taken = s.taken := rfl
@[simp] theorem State.setCore_cur : (s.setCore n c).cur = s.cur := rfl
@[simp] theorem State.setCore_nextId : (s.setCore n c).nextId = s.nextId := rfl
@[simp] theorem State.setCore_free : (s.setCore n c).free = s.free := rfl
@[simp] theorem State.setCore_dev : (s.setCore n c).dev = s.dev := rfl
@[simp] theorem State.setCore_mem : (s.setCore n c).mem = s.mem := rfl
@[simp] theorem State.setCore_poison : (s.setCore n c).poison = s.poison := rfl
@[simp] theorem State.setCore_lease : (s.setCore n c).lease = s.lease := rfl
@[simp] theorem State.setCore_seqs : (s.setCore n c).seqs = s.seqs := rfl
@[simp] theorem State.setCore_pairLocal : (s.setCore n c).pairLocal = s.pairLocal := rfl
@[simp] theorem State.setCore_net : (s.setCore n c).net = s.net := rfl
@[simp] theorem State.setCore_home : (s.setCore n c).home = s.home := rfl
@[simp] theorem State.setCore_back : (s.setCore n c).back = s.back := rfl
@[simp] theorem State.setCore_l1 : (s.setCore n c).l1 = s.l1 := rfl
@[simp] theorem State.setCore_icache : (s.setCore n c).icache = s.icache := rfl
@[simp] theorem State.setCore_tlb : (s.setCore n c).tlb = s.tlb := rfl
@[simp] theorem State.setCore_walks : (s.setCore n c).walks = s.walks := rfl
@[simp] theorem State.setCore_engineFaults : (s.setCore n c).engineFaults = s.engineFaults := rfl
@[simp] theorem State.setCore_crews : (s.setCore n c).crews = s.crews := rfl
@[simp] theorem State.setCore_cores : (s.setCore n c).cores = mset s.cores n c := rfl
@[simp] theorem State.setCore_ctxs : (s.setCore n c).ctxs = s.ctxs := rfl
@[simp] theorem State.setCore_ops : (s.setCore n c).ops = s.ops := rfl
@[simp] theorem State.setCore_results : (s.setCore n c).results = s.results := rfl
@[simp] theorem State.setCore_signals : (s.setCore n c).signals = s.signals := rfl
@[simp] theorem State.setCore_colls : (s.setCore n c).colls = s.colls := rfl
@[simp] theorem State.setCore_collOps : (s.setCore n c).collOps = s.collOps := rfl
@[simp] theorem State.setCore_collSeq : (s.setCore n c).collSeq = s.collSeq := rfl
@[simp] theorem State.setCore_weirs : (s.setCore n c).weirs = s.weirs := rfl
@[simp] theorem State.setCore_sfrq : (s.setCore n c).sfrq = s.sfrq := rfl
@[simp] theorem State.setCore_launches : (s.setCore n c).launches = s.launches := rfl
@[simp] theorem State.setCore_nextLaunch : (s.setCore n c).nextLaunch = s.nextLaunch := rfl
@[simp] theorem State.setCore_dlq : (s.setCore n c).dlq = s.dlq := rfl
@[simp] theorem State.setCore_slots : (s.setCore n c).slots = s.slots := rfl
@[simp] theorem State.setCore_steals : (s.setCore n c).steals = s.steals := rfl
@[simp] theorem State.setCore_firstBound : (s.setCore n c).firstBound = s.firstBound := rfl
@[simp] theorem State.setCore_bootstat : (s.setCore n c).bootstat = s.bootstat := rfl
@[simp] theorem State.setCore_fabcfg : (s.setCore n c).fabcfg = s.fabcfg := rfl
@[simp] theorem State.setCore_pumpCfg : (s.setCore n c).pumpCfg = s.pumpCfg := rfl
@[simp] theorem State.setCore_fwcfg : (s.setCore n c).fwcfg = s.fwcfg := rfl
@[simp] theorem State.setCore_chipctl : (s.setCore n c).chipctl = s.chipctl := rfl
@[simp] theorem State.setCore_asroot : (s.setCore n c).asroot = s.asroot := rfl
@[simp] theorem State.setCore_plist : (s.setCore n c).plist = s.plist := rfl
@[simp] theorem State.setCore_plcnt : (s.setCore n c).plcnt = s.plcnt := rfl
@[simp] theorem State.setCore_pview : (s.setCore n c).pview = s.pview := rfl
@[simp] theorem State.setCore_groute : (s.setCore n c).groute = s.groute := rfl
@[simp] theorem State.setCore_mgroup : (s.setCore n c).mgroup = s.mgroup := rfl
@[simp] theorem State.setCore_cgroup : (s.setCore n c).cgroup = s.cgroup := rfl
@[simp] theorem State.setCore_sessTab : (s.setCore n c).sessTab = s.sessTab := rfl
@[simp] theorem State.setCore_sessions : (s.setCore n c).sessions = s.sessions := rfl
@[simp] theorem State.setCore_hostq : (s.setCore n c).hostq = s.hostq := rfl
@[simp] theorem State.setCore_errcnt : (s.setCore n c).errcnt = s.errcnt := rfl
@[simp] theorem State.setCore_mailbox : (s.setCore n c).mailbox = s.mailbox := rfl
@[simp] theorem State.setCore_reports : (s.setCore n c).reports = s.reports := rfl
@[simp] theorem State.setCore_msix : (s.setCore n c).msix = s.msix := rfl
@[simp] theorem State.setCore_moves : (s.setCore n c).moves = s.moves := rfl
@[simp] theorem State.setCore_evalAt : (s.setCore n c).evalAt = s.evalAt := rfl
@[simp] theorem State.setCore_decayAt : (s.setCore n c).decayAt = s.decayAt := rfl
@[simp] theorem State.setCore_ports : (s.setCore n c).ports = s.ports := rfl
@[simp] theorem State.setCore_packetsIn : (s.setCore n c).packetsIn = s.packetsIn := rfl
@[simp] theorem State.setCore_packetsOut : (s.setCore n c).packetsOut = s.packetsOut := rfl
@[simp] theorem State.setCore_held : (s.setCore n c).held = s.held := rfl
@[simp] theorem State.setCore_pathCnt : (s.setCore n c).pathCnt = s.pathCnt := rfl
@[simp] theorem State.setCore_hopsDown : (s.setCore n c).hopsDown = s.hopsDown := rfl
@[simp] theorem State.setCore_circuits : (s.setCore n c).circuits = s.circuits := rfl
@[simp] theorem State.setCore_flagAsk : (s.setCore n c).flagAsk = s.flagAsk := rfl
@[simp] theorem State.setCore_demands : (s.setCore n c).demands = s.demands := rfl
@[simp] theorem State.setCore_lastServed : (s.setCore n c).lastServed = s.lastServed := rfl
@[simp] theorem State.setCore_grantWindow : (s.setCore n c).grantWindow = s.grantWindow := rfl
@[simp] theorem State.setCore_grantsUsed : (s.setCore n c).grantsUsed = s.grantsUsed := rfl
@[simp] theorem State.setCore_asked : (s.setCore n c).asked = s.asked := rfl
@[simp] theorem State.setCore_credits : (s.setCore n c).credits = s.credits := rfl
@[simp] theorem State.setCore_bridgeDown : (s.setCore n c).bridgeDown = s.bridgeDown := rfl
@[simp] theorem State.setCore_bridgeAt : (s.setCore n c).bridgeAt = s.bridgeAt := rfl
@[simp] theorem State.setCore_bridgeResent : (s.setCore n c).bridgeResent = s.bridgeResent := rfl
@[simp] theorem State.setCore_routerDown : (s.setCore n c).routerDown = s.routerDown := rfl
@[simp] theorem State.setCore_routerUsed : (s.setCore n c).routerUsed = s.routerUsed := rfl
@[simp] theorem State.setCore_channelAsleep : (s.setCore n c).channelAsleep = s.channelAsleep := rfl
@[simp] theorem State.setCore_channelUsed : (s.setCore n c).channelUsed = s.channelUsed := rfl
@[simp] theorem State.setCore_ethDown : (s.setCore n c).ethDown = s.ethDown := rfl
@[simp] theorem State.setCore_ethLow : (s.setCore n c).ethLow = s.ethLow := rfl
@[simp] theorem State.setCore_ethUsed : (s.setCore n c).ethUsed = s.ethUsed := rfl
@[simp] theorem State.setCore_cxlDown : (s.setCore n c).cxlDown = s.cxlDown := rfl
@[simp] theorem State.setCore_throttled : (s.setCore n c).throttled = s.throttled := rfl
@[simp] theorem State.setCore_sensors : (s.setCore n c).sensors = s.sensors := rfl
@[simp] theorem State.setCore_windowAt : (s.setCore n c).windowAt = s.windowAt := rfl
@[simp] theorem State.setCore_budgets : (s.setCore n c).budgets = s.budgets := rfl
@[simp] theorem State.setCore_activity : (s.setCore n c).activity = s.activity := rfl
@[simp] theorem State.setCore_scrubAt : (s.setCore n c).scrubAt = s.scrubAt := rfl
@[simp] theorem State.setCore_scrubs : (s.setCore n c).scrubs = s.scrubs := rfl
@[simp] theorem State.setCore_rollbackFuse : (s.setCore n c).rollbackFuse = s.rollbackFuse := rfl
@[simp] theorem State.setCore_rollbackRaised : (s.setCore n c).rollbackRaised = s.rollbackRaised := rfl
@[simp] theorem State.setCore_image : (s.setCore n c).image = s.image := rfl
@[simp] theorem State.setCore_image2 : (s.setCore n c).image2 = s.image2 := rfl
@[simp] theorem State.setCore_tests : (s.setCore n c).tests = s.tests := rfl
@[simp] theorem State.setCore_imageUsed : (s.setCore n c).imageUsed = s.imageUsed := rfl
@[simp] theorem State.setCore_hostIn : (s.setCore n c).hostIn = s.hostIn := rfl
@[simp] theorem State.setCore_hostOut : (s.setCore n c).hostOut = s.hostOut := rfl
@[simp] theorem State.setCore_mmioIn : (s.setCore n c).mmioIn = s.mmioIn := rfl
@[simp] theorem State.setCore_mmioOut : (s.setCore n c).mmioOut = s.mmioOut := rfl
@[simp] theorem State.setCore_errIn : (s.setCore n c).errIn = s.errIn := rfl
@[simp] theorem State.setCore_correctable : (s.setCore n c).correctable = s.correctable := rfl
@[simp] theorem State.setCore_mgmtIrq : (s.setCore n c).mgmtIrq = s.mgmtIrq := rfl
@[simp] theorem State.setCore_fillerJob : (s.setCore n c).fillerJob = s.fillerJob := rfl
@[simp] theorem State.setCore_pulls : (s.setCore n c).pulls = s.pulls := rfl
@[simp] theorem State.setCore_packageLimit : (s.setCore n c).packageLimit = s.packageLimit := rfl
@[simp] theorem State.setCore_mmioAcks : (s.setCore n c).mmioAcks = s.mmioAcks := rfl
end

/-! State.setLaunch. -/

section
variable (s : State) (l : Nat) (x : Launch)
@[simp] theorem State.setLaunch_time : (s.setLaunch l x).time = s.time := rfl
@[simp] theorem State.setLaunch_agenda : (s.setLaunch l x).agenda = s.agenda := rfl
@[simp] theorem State.setLaunch_issueQ : (s.setLaunch l x).issueQ = s.issueQ := rfl
@[simp] theorem State.setLaunch_taken : (s.setLaunch l x).taken = s.taken := rfl
@[simp] theorem State.setLaunch_cur : (s.setLaunch l x).cur = s.cur := rfl
@[simp] theorem State.setLaunch_nextId : (s.setLaunch l x).nextId = s.nextId := rfl
@[simp] theorem State.setLaunch_free : (s.setLaunch l x).free = s.free := rfl
@[simp] theorem State.setLaunch_dev : (s.setLaunch l x).dev = s.dev := rfl
@[simp] theorem State.setLaunch_mem : (s.setLaunch l x).mem = s.mem := rfl
@[simp] theorem State.setLaunch_poison : (s.setLaunch l x).poison = s.poison := rfl
@[simp] theorem State.setLaunch_lease : (s.setLaunch l x).lease = s.lease := rfl
@[simp] theorem State.setLaunch_seqs : (s.setLaunch l x).seqs = s.seqs := rfl
@[simp] theorem State.setLaunch_pairLocal : (s.setLaunch l x).pairLocal = s.pairLocal := rfl
@[simp] theorem State.setLaunch_net : (s.setLaunch l x).net = s.net := rfl
@[simp] theorem State.setLaunch_home : (s.setLaunch l x).home = s.home := rfl
@[simp] theorem State.setLaunch_back : (s.setLaunch l x).back = s.back := rfl
@[simp] theorem State.setLaunch_l1 : (s.setLaunch l x).l1 = s.l1 := rfl
@[simp] theorem State.setLaunch_icache : (s.setLaunch l x).icache = s.icache := rfl
@[simp] theorem State.setLaunch_tlb : (s.setLaunch l x).tlb = s.tlb := rfl
@[simp] theorem State.setLaunch_walks : (s.setLaunch l x).walks = s.walks := rfl
@[simp] theorem State.setLaunch_engineFaults : (s.setLaunch l x).engineFaults = s.engineFaults := rfl
@[simp] theorem State.setLaunch_crews : (s.setLaunch l x).crews = s.crews := rfl
@[simp] theorem State.setLaunch_cores : (s.setLaunch l x).cores = s.cores := rfl
@[simp] theorem State.setLaunch_ctxs : (s.setLaunch l x).ctxs = s.ctxs := rfl
@[simp] theorem State.setLaunch_ops : (s.setLaunch l x).ops = s.ops := rfl
@[simp] theorem State.setLaunch_results : (s.setLaunch l x).results = s.results := rfl
@[simp] theorem State.setLaunch_signals : (s.setLaunch l x).signals = s.signals := rfl
@[simp] theorem State.setLaunch_colls : (s.setLaunch l x).colls = s.colls := rfl
@[simp] theorem State.setLaunch_collOps : (s.setLaunch l x).collOps = s.collOps := rfl
@[simp] theorem State.setLaunch_collSeq : (s.setLaunch l x).collSeq = s.collSeq := rfl
@[simp] theorem State.setLaunch_weirs : (s.setLaunch l x).weirs = s.weirs := rfl
@[simp] theorem State.setLaunch_sfrq : (s.setLaunch l x).sfrq = s.sfrq := rfl
@[simp] theorem State.setLaunch_launches : (s.setLaunch l x).launches = mset s.launches l x := rfl
@[simp] theorem State.setLaunch_nextLaunch : (s.setLaunch l x).nextLaunch = s.nextLaunch := rfl
@[simp] theorem State.setLaunch_dlq : (s.setLaunch l x).dlq = s.dlq := rfl
@[simp] theorem State.setLaunch_slots : (s.setLaunch l x).slots = s.slots := rfl
@[simp] theorem State.setLaunch_steals : (s.setLaunch l x).steals = s.steals := rfl
@[simp] theorem State.setLaunch_firstBound : (s.setLaunch l x).firstBound = s.firstBound := rfl
@[simp] theorem State.setLaunch_bootstat : (s.setLaunch l x).bootstat = s.bootstat := rfl
@[simp] theorem State.setLaunch_fabcfg : (s.setLaunch l x).fabcfg = s.fabcfg := rfl
@[simp] theorem State.setLaunch_pumpCfg : (s.setLaunch l x).pumpCfg = s.pumpCfg := rfl
@[simp] theorem State.setLaunch_fwcfg : (s.setLaunch l x).fwcfg = s.fwcfg := rfl
@[simp] theorem State.setLaunch_chipctl : (s.setLaunch l x).chipctl = s.chipctl := rfl
@[simp] theorem State.setLaunch_asroot : (s.setLaunch l x).asroot = s.asroot := rfl
@[simp] theorem State.setLaunch_plist : (s.setLaunch l x).plist = s.plist := rfl
@[simp] theorem State.setLaunch_plcnt : (s.setLaunch l x).plcnt = s.plcnt := rfl
@[simp] theorem State.setLaunch_pview : (s.setLaunch l x).pview = s.pview := rfl
@[simp] theorem State.setLaunch_groute : (s.setLaunch l x).groute = s.groute := rfl
@[simp] theorem State.setLaunch_mgroup : (s.setLaunch l x).mgroup = s.mgroup := rfl
@[simp] theorem State.setLaunch_cgroup : (s.setLaunch l x).cgroup = s.cgroup := rfl
@[simp] theorem State.setLaunch_sessTab : (s.setLaunch l x).sessTab = s.sessTab := rfl
@[simp] theorem State.setLaunch_sessions : (s.setLaunch l x).sessions = s.sessions := rfl
@[simp] theorem State.setLaunch_hostq : (s.setLaunch l x).hostq = s.hostq := rfl
@[simp] theorem State.setLaunch_errcnt : (s.setLaunch l x).errcnt = s.errcnt := rfl
@[simp] theorem State.setLaunch_mailbox : (s.setLaunch l x).mailbox = s.mailbox := rfl
@[simp] theorem State.setLaunch_reports : (s.setLaunch l x).reports = s.reports := rfl
@[simp] theorem State.setLaunch_msix : (s.setLaunch l x).msix = s.msix := rfl
@[simp] theorem State.setLaunch_moves : (s.setLaunch l x).moves = s.moves := rfl
@[simp] theorem State.setLaunch_evalAt : (s.setLaunch l x).evalAt = s.evalAt := rfl
@[simp] theorem State.setLaunch_decayAt : (s.setLaunch l x).decayAt = s.decayAt := rfl
@[simp] theorem State.setLaunch_ports : (s.setLaunch l x).ports = s.ports := rfl
@[simp] theorem State.setLaunch_packetsIn : (s.setLaunch l x).packetsIn = s.packetsIn := rfl
@[simp] theorem State.setLaunch_packetsOut : (s.setLaunch l x).packetsOut = s.packetsOut := rfl
@[simp] theorem State.setLaunch_held : (s.setLaunch l x).held = s.held := rfl
@[simp] theorem State.setLaunch_pathCnt : (s.setLaunch l x).pathCnt = s.pathCnt := rfl
@[simp] theorem State.setLaunch_hopsDown : (s.setLaunch l x).hopsDown = s.hopsDown := rfl
@[simp] theorem State.setLaunch_circuits : (s.setLaunch l x).circuits = s.circuits := rfl
@[simp] theorem State.setLaunch_flagAsk : (s.setLaunch l x).flagAsk = s.flagAsk := rfl
@[simp] theorem State.setLaunch_demands : (s.setLaunch l x).demands = s.demands := rfl
@[simp] theorem State.setLaunch_lastServed : (s.setLaunch l x).lastServed = s.lastServed := rfl
@[simp] theorem State.setLaunch_grantWindow : (s.setLaunch l x).grantWindow = s.grantWindow := rfl
@[simp] theorem State.setLaunch_grantsUsed : (s.setLaunch l x).grantsUsed = s.grantsUsed := rfl
@[simp] theorem State.setLaunch_asked : (s.setLaunch l x).asked = s.asked := rfl
@[simp] theorem State.setLaunch_credits : (s.setLaunch l x).credits = s.credits := rfl
@[simp] theorem State.setLaunch_bridgeDown : (s.setLaunch l x).bridgeDown = s.bridgeDown := rfl
@[simp] theorem State.setLaunch_bridgeAt : (s.setLaunch l x).bridgeAt = s.bridgeAt := rfl
@[simp] theorem State.setLaunch_bridgeResent : (s.setLaunch l x).bridgeResent = s.bridgeResent := rfl
@[simp] theorem State.setLaunch_routerDown : (s.setLaunch l x).routerDown = s.routerDown := rfl
@[simp] theorem State.setLaunch_routerUsed : (s.setLaunch l x).routerUsed = s.routerUsed := rfl
@[simp] theorem State.setLaunch_channelAsleep : (s.setLaunch l x).channelAsleep = s.channelAsleep := rfl
@[simp] theorem State.setLaunch_channelUsed : (s.setLaunch l x).channelUsed = s.channelUsed := rfl
@[simp] theorem State.setLaunch_ethDown : (s.setLaunch l x).ethDown = s.ethDown := rfl
@[simp] theorem State.setLaunch_ethLow : (s.setLaunch l x).ethLow = s.ethLow := rfl
@[simp] theorem State.setLaunch_ethUsed : (s.setLaunch l x).ethUsed = s.ethUsed := rfl
@[simp] theorem State.setLaunch_cxlDown : (s.setLaunch l x).cxlDown = s.cxlDown := rfl
@[simp] theorem State.setLaunch_throttled : (s.setLaunch l x).throttled = s.throttled := rfl
@[simp] theorem State.setLaunch_sensors : (s.setLaunch l x).sensors = s.sensors := rfl
@[simp] theorem State.setLaunch_windowAt : (s.setLaunch l x).windowAt = s.windowAt := rfl
@[simp] theorem State.setLaunch_budgets : (s.setLaunch l x).budgets = s.budgets := rfl
@[simp] theorem State.setLaunch_activity : (s.setLaunch l x).activity = s.activity := rfl
@[simp] theorem State.setLaunch_scrubAt : (s.setLaunch l x).scrubAt = s.scrubAt := rfl
@[simp] theorem State.setLaunch_scrubs : (s.setLaunch l x).scrubs = s.scrubs := rfl
@[simp] theorem State.setLaunch_rollbackFuse : (s.setLaunch l x).rollbackFuse = s.rollbackFuse := rfl
@[simp] theorem State.setLaunch_rollbackRaised : (s.setLaunch l x).rollbackRaised = s.rollbackRaised := rfl
@[simp] theorem State.setLaunch_image : (s.setLaunch l x).image = s.image := rfl
@[simp] theorem State.setLaunch_image2 : (s.setLaunch l x).image2 = s.image2 := rfl
@[simp] theorem State.setLaunch_tests : (s.setLaunch l x).tests = s.tests := rfl
@[simp] theorem State.setLaunch_imageUsed : (s.setLaunch l x).imageUsed = s.imageUsed := rfl
@[simp] theorem State.setLaunch_hostIn : (s.setLaunch l x).hostIn = s.hostIn := rfl
@[simp] theorem State.setLaunch_hostOut : (s.setLaunch l x).hostOut = s.hostOut := rfl
@[simp] theorem State.setLaunch_mmioIn : (s.setLaunch l x).mmioIn = s.mmioIn := rfl
@[simp] theorem State.setLaunch_mmioOut : (s.setLaunch l x).mmioOut = s.mmioOut := rfl
@[simp] theorem State.setLaunch_errIn : (s.setLaunch l x).errIn = s.errIn := rfl
@[simp] theorem State.setLaunch_correctable : (s.setLaunch l x).correctable = s.correctable := rfl
@[simp] theorem State.setLaunch_mgmtIrq : (s.setLaunch l x).mgmtIrq = s.mgmtIrq := rfl
@[simp] theorem State.setLaunch_fillerJob : (s.setLaunch l x).fillerJob = s.fillerJob := rfl
@[simp] theorem State.setLaunch_pulls : (s.setLaunch l x).pulls = s.pulls := rfl
@[simp] theorem State.setLaunch_packageLimit : (s.setLaunch l x).packageLimit = s.packageLimit := rfl
@[simp] theorem State.setLaunch_mmioAcks : (s.setLaunch l x).mmioAcks = s.mmioAcks := rfl
end

/-! State.setStrand. -/

section
variable (s : State) (u k : Nat) (st : Strand)
@[simp] theorem State.setStrand_time : (s.setStrand u k st).time = s.time := rfl
@[simp] theorem State.setStrand_agenda : (s.setStrand u k st).agenda = s.agenda := rfl
@[simp] theorem State.setStrand_issueQ : (s.setStrand u k st).issueQ = s.issueQ := rfl
@[simp] theorem State.setStrand_taken : (s.setStrand u k st).taken = s.taken := rfl
@[simp] theorem State.setStrand_cur : (s.setStrand u k st).cur = s.cur := rfl
@[simp] theorem State.setStrand_nextId : (s.setStrand u k st).nextId = s.nextId := rfl
@[simp] theorem State.setStrand_free : (s.setStrand u k st).free = s.free := rfl
@[simp] theorem State.setStrand_dev : (s.setStrand u k st).dev = s.dev := rfl
@[simp] theorem State.setStrand_mem : (s.setStrand u k st).mem = s.mem := rfl
@[simp] theorem State.setStrand_poison : (s.setStrand u k st).poison = s.poison := rfl
@[simp] theorem State.setStrand_lease : (s.setStrand u k st).lease = s.lease := rfl
@[simp] theorem State.setStrand_seqs : (s.setStrand u k st).seqs = s.seqs := rfl
@[simp] theorem State.setStrand_pairLocal : (s.setStrand u k st).pairLocal = s.pairLocal := rfl
@[simp] theorem State.setStrand_net : (s.setStrand u k st).net = s.net := rfl
@[simp] theorem State.setStrand_home : (s.setStrand u k st).home = s.home := rfl
@[simp] theorem State.setStrand_back : (s.setStrand u k st).back = s.back := rfl
@[simp] theorem State.setStrand_l1 : (s.setStrand u k st).l1 = s.l1 := rfl
@[simp] theorem State.setStrand_icache : (s.setStrand u k st).icache = s.icache := rfl
@[simp] theorem State.setStrand_tlb : (s.setStrand u k st).tlb = s.tlb := rfl
@[simp] theorem State.setStrand_walks : (s.setStrand u k st).walks = s.walks := rfl
@[simp] theorem State.setStrand_engineFaults : (s.setStrand u k st).engineFaults = s.engineFaults := rfl
@[simp] theorem State.setStrand_cores : (s.setStrand u k st).cores = s.cores := rfl
@[simp] theorem State.setStrand_ctxs : (s.setStrand u k st).ctxs = s.ctxs := rfl
@[simp] theorem State.setStrand_ops : (s.setStrand u k st).ops = s.ops := rfl
@[simp] theorem State.setStrand_results : (s.setStrand u k st).results = s.results := rfl
@[simp] theorem State.setStrand_signals : (s.setStrand u k st).signals = s.signals := rfl
@[simp] theorem State.setStrand_colls : (s.setStrand u k st).colls = s.colls := rfl
@[simp] theorem State.setStrand_collOps : (s.setStrand u k st).collOps = s.collOps := rfl
@[simp] theorem State.setStrand_collSeq : (s.setStrand u k st).collSeq = s.collSeq := rfl
@[simp] theorem State.setStrand_weirs : (s.setStrand u k st).weirs = s.weirs := rfl
@[simp] theorem State.setStrand_sfrq : (s.setStrand u k st).sfrq = s.sfrq := rfl
@[simp] theorem State.setStrand_launches : (s.setStrand u k st).launches = s.launches := rfl
@[simp] theorem State.setStrand_nextLaunch : (s.setStrand u k st).nextLaunch = s.nextLaunch := rfl
@[simp] theorem State.setStrand_dlq : (s.setStrand u k st).dlq = s.dlq := rfl
@[simp] theorem State.setStrand_slots : (s.setStrand u k st).slots = s.slots := rfl
@[simp] theorem State.setStrand_steals : (s.setStrand u k st).steals = s.steals := rfl
@[simp] theorem State.setStrand_firstBound : (s.setStrand u k st).firstBound = s.firstBound := rfl
@[simp] theorem State.setStrand_bootstat : (s.setStrand u k st).bootstat = s.bootstat := rfl
@[simp] theorem State.setStrand_fabcfg : (s.setStrand u k st).fabcfg = s.fabcfg := rfl
@[simp] theorem State.setStrand_pumpCfg : (s.setStrand u k st).pumpCfg = s.pumpCfg := rfl
@[simp] theorem State.setStrand_fwcfg : (s.setStrand u k st).fwcfg = s.fwcfg := rfl
@[simp] theorem State.setStrand_chipctl : (s.setStrand u k st).chipctl = s.chipctl := rfl
@[simp] theorem State.setStrand_asroot : (s.setStrand u k st).asroot = s.asroot := rfl
@[simp] theorem State.setStrand_plist : (s.setStrand u k st).plist = s.plist := rfl
@[simp] theorem State.setStrand_plcnt : (s.setStrand u k st).plcnt = s.plcnt := rfl
@[simp] theorem State.setStrand_pview : (s.setStrand u k st).pview = s.pview := rfl
@[simp] theorem State.setStrand_groute : (s.setStrand u k st).groute = s.groute := rfl
@[simp] theorem State.setStrand_mgroup : (s.setStrand u k st).mgroup = s.mgroup := rfl
@[simp] theorem State.setStrand_cgroup : (s.setStrand u k st).cgroup = s.cgroup := rfl
@[simp] theorem State.setStrand_sessTab : (s.setStrand u k st).sessTab = s.sessTab := rfl
@[simp] theorem State.setStrand_sessions : (s.setStrand u k st).sessions = s.sessions := rfl
@[simp] theorem State.setStrand_hostq : (s.setStrand u k st).hostq = s.hostq := rfl
@[simp] theorem State.setStrand_errcnt : (s.setStrand u k st).errcnt = s.errcnt := rfl
@[simp] theorem State.setStrand_mailbox : (s.setStrand u k st).mailbox = s.mailbox := rfl
@[simp] theorem State.setStrand_reports : (s.setStrand u k st).reports = s.reports := rfl
@[simp] theorem State.setStrand_msix : (s.setStrand u k st).msix = s.msix := rfl
@[simp] theorem State.setStrand_moves : (s.setStrand u k st).moves = s.moves := rfl
@[simp] theorem State.setStrand_evalAt : (s.setStrand u k st).evalAt = s.evalAt := rfl
@[simp] theorem State.setStrand_decayAt : (s.setStrand u k st).decayAt = s.decayAt := rfl
@[simp] theorem State.setStrand_ports : (s.setStrand u k st).ports = s.ports := rfl
@[simp] theorem State.setStrand_packetsIn : (s.setStrand u k st).packetsIn = s.packetsIn := rfl
@[simp] theorem State.setStrand_packetsOut : (s.setStrand u k st).packetsOut = s.packetsOut := rfl
@[simp] theorem State.setStrand_held : (s.setStrand u k st).held = s.held := rfl
@[simp] theorem State.setStrand_pathCnt : (s.setStrand u k st).pathCnt = s.pathCnt := rfl
@[simp] theorem State.setStrand_hopsDown : (s.setStrand u k st).hopsDown = s.hopsDown := rfl
@[simp] theorem State.setStrand_circuits : (s.setStrand u k st).circuits = s.circuits := rfl
@[simp] theorem State.setStrand_flagAsk : (s.setStrand u k st).flagAsk = s.flagAsk := rfl
@[simp] theorem State.setStrand_demands : (s.setStrand u k st).demands = s.demands := rfl
@[simp] theorem State.setStrand_lastServed : (s.setStrand u k st).lastServed = s.lastServed := rfl
@[simp] theorem State.setStrand_grantWindow : (s.setStrand u k st).grantWindow = s.grantWindow := rfl
@[simp] theorem State.setStrand_grantsUsed : (s.setStrand u k st).grantsUsed = s.grantsUsed := rfl
@[simp] theorem State.setStrand_asked : (s.setStrand u k st).asked = s.asked := rfl
@[simp] theorem State.setStrand_credits : (s.setStrand u k st).credits = s.credits := rfl
@[simp] theorem State.setStrand_bridgeDown : (s.setStrand u k st).bridgeDown = s.bridgeDown := rfl
@[simp] theorem State.setStrand_bridgeAt : (s.setStrand u k st).bridgeAt = s.bridgeAt := rfl
@[simp] theorem State.setStrand_bridgeResent : (s.setStrand u k st).bridgeResent = s.bridgeResent := rfl
@[simp] theorem State.setStrand_routerDown : (s.setStrand u k st).routerDown = s.routerDown := rfl
@[simp] theorem State.setStrand_routerUsed : (s.setStrand u k st).routerUsed = s.routerUsed := rfl
@[simp] theorem State.setStrand_channelAsleep : (s.setStrand u k st).channelAsleep = s.channelAsleep := rfl
@[simp] theorem State.setStrand_channelUsed : (s.setStrand u k st).channelUsed = s.channelUsed := rfl
@[simp] theorem State.setStrand_ethDown : (s.setStrand u k st).ethDown = s.ethDown := rfl
@[simp] theorem State.setStrand_ethLow : (s.setStrand u k st).ethLow = s.ethLow := rfl
@[simp] theorem State.setStrand_ethUsed : (s.setStrand u k st).ethUsed = s.ethUsed := rfl
@[simp] theorem State.setStrand_cxlDown : (s.setStrand u k st).cxlDown = s.cxlDown := rfl
@[simp] theorem State.setStrand_throttled : (s.setStrand u k st).throttled = s.throttled := rfl
@[simp] theorem State.setStrand_sensors : (s.setStrand u k st).sensors = s.sensors := rfl
@[simp] theorem State.setStrand_windowAt : (s.setStrand u k st).windowAt = s.windowAt := rfl
@[simp] theorem State.setStrand_budgets : (s.setStrand u k st).budgets = s.budgets := rfl
@[simp] theorem State.setStrand_activity : (s.setStrand u k st).activity = s.activity := rfl
@[simp] theorem State.setStrand_scrubAt : (s.setStrand u k st).scrubAt = s.scrubAt := rfl
@[simp] theorem State.setStrand_scrubs : (s.setStrand u k st).scrubs = s.scrubs := rfl
@[simp] theorem State.setStrand_rollbackFuse : (s.setStrand u k st).rollbackFuse = s.rollbackFuse := rfl
@[simp] theorem State.setStrand_rollbackRaised : (s.setStrand u k st).rollbackRaised = s.rollbackRaised := rfl
@[simp] theorem State.setStrand_image : (s.setStrand u k st).image = s.image := rfl
@[simp] theorem State.setStrand_image2 : (s.setStrand u k st).image2 = s.image2 := rfl
@[simp] theorem State.setStrand_tests : (s.setStrand u k st).tests = s.tests := rfl
@[simp] theorem State.setStrand_imageUsed : (s.setStrand u k st).imageUsed = s.imageUsed := rfl
@[simp] theorem State.setStrand_hostIn : (s.setStrand u k st).hostIn = s.hostIn := rfl
@[simp] theorem State.setStrand_hostOut : (s.setStrand u k st).hostOut = s.hostOut := rfl
@[simp] theorem State.setStrand_mmioIn : (s.setStrand u k st).mmioIn = s.mmioIn := rfl
@[simp] theorem State.setStrand_mmioOut : (s.setStrand u k st).mmioOut = s.mmioOut := rfl
@[simp] theorem State.setStrand_errIn : (s.setStrand u k st).errIn = s.errIn := rfl
@[simp] theorem State.setStrand_correctable : (s.setStrand u k st).correctable = s.correctable := rfl
@[simp] theorem State.setStrand_mgmtIrq : (s.setStrand u k st).mgmtIrq = s.mgmtIrq := rfl
@[simp] theorem State.setStrand_fillerJob : (s.setStrand u k st).fillerJob = s.fillerJob := rfl
@[simp] theorem State.setStrand_pulls : (s.setStrand u k st).pulls = s.pulls := rfl
@[simp] theorem State.setStrand_packageLimit : (s.setStrand u k st).packageLimit = s.packageLimit := rfl
@[simp] theorem State.setStrand_mmioAcks : (s.setStrand u k st).mmioAcks = s.mmioAcks := rfl
end

/-! Crew.setSt. -/

section
variable (c : Crew) (k : Nat) (st : Strand)
@[simp] theorem Crew.setSt_launch : (c.setSt k st).launch = c.launch := rfl
@[simp] theorem Crew.setSt_stage : (c.setSt k st).stage = c.stage := rfl
@[simp] theorem Crew.setSt_index : (c.setSt k st).index = c.index := rfl
@[simp] theorem Crew.setSt_core : (c.setSt k st).core = c.core := rfl
@[simp] theorem Crew.setSt_resident : (c.setSt k st).resident = c.resident := rfl
@[simp] theorem Crew.setSt_weaves : (c.setSt k st).weaves = c.weaves := rfl
@[simp] theorem Crew.setSt_strands : (c.setSt k st).strands = c.strands := rfl
@[simp] theorem Crew.setSt_vgran : (c.setSt k st).vgran = c.vgran := rfl
@[simp] theorem Crew.setSt_tiles : (c.setSt k st).tiles = c.tiles := rfl
@[simp] theorem Crew.setSt_accs : (c.setSt k st).accs = c.accs := rfl
@[simp] theorem Crew.setSt_ab : (c.setSt k st).ab = c.ab := rfl
@[simp] theorem Crew.setSt_xwin : (c.setSt k st).xwin = c.xwin := rfl
@[simp] theorem Crew.setSt_ctx : (c.setSt k st).ctx = c.ctx := rfl
@[simp] theorem Crew.setSt_slices : (c.setSt k st).slices = c.slices := rfl
@[simp] theorem Crew.setSt_strand : (c.setSt k st).strand = mset c.strand k st := rfl
@[simp] theorem Crew.setSt_abuf : (c.setSt k st).abuf = c.abuf := rfl
@[simp] theorem Crew.setSt_abSeed : (c.setSt k st).abSeed = c.abSeed := rfl
@[simp] theorem Crew.setSt_swapped : (c.setSt k st).swapped = c.swapped := rfl
@[simp] theorem Crew.setSt_tile : (c.setSt k st).tile = c.tile := rfl
@[simp] theorem Crew.setSt_acc : (c.setSt k st).acc = c.acc := rfl
@[simp] theorem Crew.setSt_form : (c.setSt k st).form = c.form := rfl
@[simp] theorem Crew.setSt_ranked : (c.setSt k st).ranked = c.ranked := rfl
@[simp] theorem Crew.setSt_cbar : (c.setSt k st).cbar = c.cbar := rfl
@[simp] theorem Crew.setSt_passed : (c.setSt k st).passed = c.passed := rfl
@[simp] theorem Crew.setSt_xarr : (c.setSt k st).xarr = c.xarr := rfl
@[simp] theorem Crew.setSt_xmax : (c.setSt k st).xmax = c.xmax := rfl
@[simp] theorem Crew.setSt_cx : (c.setSt k st).cx = c.cx := rfl
@[simp] theorem Crew.setSt_tileBusy : (c.setSt k st).tileBusy = c.tileBusy := rfl
@[simp] theorem Crew.setSt_foldBusy : (c.setSt k st).foldBusy = c.foldBusy := rfl
@[simp] theorem Crew.setSt_savebase : (c.setSt k st).savebase = c.savebase := rfl
@[simp] theorem Crew.setSt_preempt : (c.setSt k st).preempt = c.preempt := rfl
@[simp] theorem Crew.setSt_retiring : (c.setSt k st).retiring = c.retiring := rfl
@[simp] theorem Crew.setSt_foldWeave : (c.setSt k st).foldWeave = c.foldWeave := rfl
end

/-! Strand.latchKill. -/

section
variable (st : Strand) 
@[simp] theorem Strand.latchKill_pc : st.latchKill.pc = st.pc := rfl
@[simp] theorem Strand.latchKill_amask : st.latchKill.amask = st.amask := rfl
@[simp] theorem Strand.latchKill_live : st.latchKill.live = st.live := rfl
@[simp] theorem Strand.latchKill_stack : st.latchKill.stack = st.stack := rfl
@[simp] theorem Strand.latchKill_loops : st.latchKill.loops = st.loops := rfl
@[simp] theorem Strand.latchKill_v : st.latchKill.v = st.v := rfl
@[simp] theorem Strand.latchKill_o : st.latchKill.o = st.o := rfl
@[simp] theorem Strand.latchKill_l : st.latchKill.l = st.l := rfl
@[simp] theorem Strand.latchKill_lvalid : st.latchKill.lvalid = 0 := rfl
@[simp] theorem Strand.latchKill_s : st.latchKill.s = st.s := rfl
@[simp] theorem Strand.latchKill_f : st.latchKill.f = st.f := rfl
@[simp] theorem Strand.latchKill_p : st.latchKill.p = st.p := rfl
@[simp] theorem Strand.latchKill_mr : st.latchKill.mr = st.mr := rfl
@[simp] theorem Strand.latchKill_flags : st.latchKill.flags = st.flags := rfl
@[simp] theorem Strand.latchKill_sto : st.latchKill.sto = st.sto := rfl
@[simp] theorem Strand.latchKill_handler : st.latchKill.handler = st.handler := rfl
@[simp] theorem Strand.latchKill_tcause : st.latchKill.tcause = st.tcause := rfl
@[simp] theorem Strand.latchKill_tepc : st.latchKill.tepc = st.tepc := rfl
@[simp] theorem Strand.latchKill_tval : st.latchKill.tval = st.tval := rfl
@[simp] theorem Strand.latchKill_tmask : st.latchKill.tmask = st.tmask := rfl
@[simp] theorem Strand.latchKill_replaying : st.latchKill.replaying = st.replaying := rfl
@[simp] theorem Strand.latchKill_heldAtEntry : st.latchKill.heldAtEntry = st.heldAtEntry := rfl
@[simp] theorem Strand.latchKill_joins : st.latchKill.joins = st.joins := rfl
@[simp] theorem Strand.latchKill_wait : st.latchKill.wait = st.wait := rfl
@[simp] theorem Strand.latchKill_late : st.latchKill.late = st.late := rfl
@[simp] theorem Strand.latchKill_mem : st.latchKill.mem = st.mem := rfl
@[simp] theorem Strand.latchKill_tagWait : st.latchKill.tagWait = st.tagWait := rfl
@[simp] theorem Strand.latchKill_scHold : st.latchKill.scHold = st.scHold := rfl
@[simp] theorem Strand.latchKill_unacked0 : st.latchKill.unacked0 = st.unacked0 := rfl
@[simp] theorem Strand.latchKill_unacked1 : st.latchKill.unacked1 = st.unacked1 := rfl
@[simp] theorem Strand.latchKill_walkFaults : st.latchKill.walkFaults = st.walkFaults := rfl
@[simp] theorem Strand.latchKill_pending : st.latchKill.pending = st.pending := rfl
@[simp] theorem Strand.latchKill_gang : st.latchKill.gang = st.gang := rfl
@[simp] theorem Strand.latchKill_lastIssue : st.latchKill.lastIssue = st.lastIssue := rfl
@[simp] theorem Strand.latchKill_favoured : st.latchKill.favoured = st.favoured := rfl
@[simp] theorem Strand.latchKill_ended : st.latchKill.ended = st.ended := rfl
@[simp] theorem Strand.latchKill_tagSaved : st.latchKill.tagSaved = st.tagSaved := rfl
@[simp] theorem Strand.latchKill_fence : st.latchKill.fence = st.fence := rfl
end

/-! Strand.orFlags. -/

section
variable (st : Strand) (fl : BitVec 4)
@[simp] theorem Strand.orFlags_pc : (st.orFlags fl).pc = st.pc := rfl
@[simp] theorem Strand.orFlags_amask : (st.orFlags fl).amask = st.amask := rfl
@[simp] theorem Strand.orFlags_live : (st.orFlags fl).live = st.live := rfl
@[simp] theorem Strand.orFlags_stack : (st.orFlags fl).stack = st.stack := rfl
@[simp] theorem Strand.orFlags_loops : (st.orFlags fl).loops = st.loops := rfl
@[simp] theorem Strand.orFlags_v : (st.orFlags fl).v = st.v := rfl
@[simp] theorem Strand.orFlags_o : (st.orFlags fl).o = st.o := rfl
@[simp] theorem Strand.orFlags_l : (st.orFlags fl).l = st.l := rfl
@[simp] theorem Strand.orFlags_lvalid : (st.orFlags fl).lvalid = st.lvalid := rfl
@[simp] theorem Strand.orFlags_s : (st.orFlags fl).s = st.s := rfl
@[simp] theorem Strand.orFlags_f : (st.orFlags fl).f = st.f := rfl
@[simp] theorem Strand.orFlags_p : (st.orFlags fl).p = st.p := rfl
@[simp] theorem Strand.orFlags_mr : (st.orFlags fl).mr = st.mr := rfl
@[simp] theorem Strand.orFlags_flags : (st.orFlags fl).flags = st.flags ||| fl := rfl
@[simp] theorem Strand.orFlags_sto : (st.orFlags fl).sto = st.sto := rfl
@[simp] theorem Strand.orFlags_handler : (st.orFlags fl).handler = st.handler := rfl
@[simp] theorem Strand.orFlags_tcause : (st.orFlags fl).tcause = st.tcause := rfl
@[simp] theorem Strand.orFlags_tepc : (st.orFlags fl).tepc = st.tepc := rfl
@[simp] theorem Strand.orFlags_tval : (st.orFlags fl).tval = st.tval := rfl
@[simp] theorem Strand.orFlags_tmask : (st.orFlags fl).tmask = st.tmask := rfl
@[simp] theorem Strand.orFlags_replaying : (st.orFlags fl).replaying = st.replaying := rfl
@[simp] theorem Strand.orFlags_heldAtEntry : (st.orFlags fl).heldAtEntry = st.heldAtEntry := rfl
@[simp] theorem Strand.orFlags_joins : (st.orFlags fl).joins = st.joins := rfl
@[simp] theorem Strand.orFlags_wait : (st.orFlags fl).wait = st.wait := rfl
@[simp] theorem Strand.orFlags_late : (st.orFlags fl).late = st.late := rfl
@[simp] theorem Strand.orFlags_mem : (st.orFlags fl).mem = st.mem := rfl
@[simp] theorem Strand.orFlags_tagWait : (st.orFlags fl).tagWait = st.tagWait := rfl
@[simp] theorem Strand.orFlags_scHold : (st.orFlags fl).scHold = st.scHold := rfl
@[simp] theorem Strand.orFlags_unacked0 : (st.orFlags fl).unacked0 = st.unacked0 := rfl
@[simp] theorem Strand.orFlags_unacked1 : (st.orFlags fl).unacked1 = st.unacked1 := rfl
@[simp] theorem Strand.orFlags_walkFaults : (st.orFlags fl).walkFaults = st.walkFaults := rfl
@[simp] theorem Strand.orFlags_pending : (st.orFlags fl).pending = st.pending := rfl
@[simp] theorem Strand.orFlags_gang : (st.orFlags fl).gang = st.gang := rfl
@[simp] theorem Strand.orFlags_lastIssue : (st.orFlags fl).lastIssue = st.lastIssue := rfl
@[simp] theorem Strand.orFlags_favoured : (st.orFlags fl).favoured = st.favoured := rfl
@[simp] theorem Strand.orFlags_ended : (st.orFlags fl).ended = st.ended := rfl
@[simp] theorem Strand.orFlags_tagSaved : (st.orFlags fl).tagSaved = st.tagSaved := rfl
@[simp] theorem Strand.orFlags_fence : (st.orFlags fl).fence = st.fence := rfl
end

/-! Strand.done. -/

section
variable (st : Strand) 
@[simp] theorem Strand.done_pc : st.done.pc = st.pc := rfl
@[simp] theorem Strand.done_amask : st.done.amask = st.amask := rfl
@[simp] theorem Strand.done_live : st.done.live = st.live := rfl
@[simp] theorem Strand.done_stack : st.done.stack = st.stack := rfl
@[simp] theorem Strand.done_loops : st.done.loops = st.loops := rfl
@[simp] theorem Strand.done_v : st.done.v = st.v := rfl
@[simp] theorem Strand.done_o : st.done.o = st.o := rfl
@[simp] theorem Strand.done_l : st.done.l = st.l := rfl
@[simp] theorem Strand.done_lvalid : st.done.lvalid = st.lvalid := rfl
@[simp] theorem Strand.done_s : st.done.s = st.s := rfl
@[simp] theorem Strand.done_f : st.done.f = st.f := rfl
@[simp] theorem Strand.done_p : st.done.p = st.p := rfl
@[simp] theorem Strand.done_mr : st.done.mr = st.mr := rfl
@[simp] theorem Strand.done_flags : st.done.flags = st.flags := rfl
@[simp] theorem Strand.done_sto : st.done.sto = st.sto := rfl
@[simp] theorem Strand.done_handler : st.done.handler = st.handler := rfl
@[simp] theorem Strand.done_tepc : st.done.tepc = st.tepc := rfl
@[simp] theorem Strand.done_tval : st.done.tval = st.tval := rfl
@[simp] theorem Strand.done_tmask : st.done.tmask = st.tmask := rfl
@[simp] theorem Strand.done_heldAtEntry : st.done.heldAtEntry = st.heldAtEntry := rfl
@[simp] theorem Strand.done_joins : st.done.joins = st.joins := rfl
@[simp] theorem Strand.done_late : st.done.late = st.late := rfl
@[simp] theorem Strand.done_mem : st.done.mem = st.mem := rfl
@[simp] theorem Strand.done_tagWait : st.done.tagWait = st.tagWait := rfl
@[simp] theorem Strand.done_scHold : st.done.scHold = st.scHold := rfl
@[simp] theorem Strand.done_unacked0 : st.done.unacked0 = st.unacked0 := rfl
@[simp] theorem Strand.done_unacked1 : st.done.unacked1 = st.unacked1 := rfl
@[simp] theorem Strand.done_pending : st.done.pending = st.pending := rfl
@[simp] theorem Strand.done_gang : st.done.gang = st.gang := rfl
@[simp] theorem Strand.done_lastIssue : st.done.lastIssue = st.lastIssue := rfl
@[simp] theorem Strand.done_ended : st.done.ended = st.ended := rfl
@[simp] theorem Strand.done_tagSaved : st.done.tagSaved = st.tagSaved := rfl
@[simp] theorem Strand.done_fence : st.done.fence = st.fence := rfl
end

@[simp] theorem Strand.done_wait (st : Strand) : st.done.wait = .ready := rfl
@[simp] theorem Strand.done_walkFaults (st : Strand) : st.done.walkFaults = [] := rfl
@[simp] theorem Strand.done_favoured (st : Strand) : st.done.favoured = false := rfl
@[simp] theorem Strand.done_replaying (st : Strand) : st.done.replaying = false := rfl

/-! Strands, crews and cores after an update. -/

@[simp] theorem State.crew_setCrew (s : State) (u v : Nat) (c : Crew) : (s.setCrew u c).crew v = if v = u then c else s.crew v := by
  simp [State.crew]
@[simp] theorem State.core_setCrew (s : State) (u n : Nat) (c : Crew) : (s.setCrew u c).core n = s.core n := rfl
@[simp] theorem State.launchOf_setCrew (s : State) (u n : Nat) (c : Crew) : (s.setCrew u c).launchOf n = s.launchOf n := rfl
@[simp] theorem State.crew_setCore (s : State) (n v : Nat) (c : Core) : (s.setCore n c).crew v = s.crew v := rfl
@[simp] theorem State.core_setCore (s : State) (n m : Nat) (c : Core) : (s.setCore n c).core m = if m = n then c else s.core m := by
  simp [State.core]
@[simp] theorem State.launchOf_setLaunch (s : State) (l m : Nat) (x : Launch) :
    (s.setLaunch l x).launchOf m = if m = l then x else s.launchOf m := by
  simp [State.launchOf]
@[simp] theorem State.crew_setLaunch (s : State) (l v : Nat) (x : Launch) : (s.setLaunch l x).crew v = s.crew v := rfl
@[simp] theorem Crew.st_setSt (c : Crew) (k j : Nat) (st : Strand) : (c.setSt k st).st j = if j = k then st else c.st j := by
  simp [Crew.st]
@[simp] theorem State.strand_setCrew (s : State) (u v j : Nat) (c : Crew) :
    (s.setCrew u c).strand v j = if v = u then c.st j else s.strand v j := by
  unfold State.strand; rw [State.crew_setCrew]; split <;> rfl
theorem State.crew_setStrand (s : State) (u k v : Nat) (st : Strand) :
    (s.setStrand u k st).crew v = if v = u then (s.crew u).setSt k st else s.crew v := by
  simp [State.setStrand]
@[simp] theorem State.strand_setStrand (s : State) (u k v j : Nat) (st : Strand) :
    (s.setStrand u k st).strand v j = if v = u ∧ j = k then st else s.strand v j := by
  unfold State.strand; rw [State.crew_setStrand]
  by_cases h : v = u
  · subst h; by_cases hj : j = k <;> simp [hj]
  · simp [h]
@[simp] theorem State.core_setStrand (s : State) (u k n : Nat) (st : Strand) : (s.setStrand u k st).core n = s.core n := rfl
@[simp] theorem State.launchOf_setStrand (s : State) (u k n : Nat) (st : Strand) :
    (s.setStrand u k st).launchOf n = s.launchOf n := rfl
/-- A write of one strand leaves everything else of every crew. -/
theorem State.crew_setStrand_rest (s : State) (u k v : Nat) (st : Strand) :
    { (s.setStrand u k st).crew v with strand := [] } = { s.crew v with strand := [] } := by
  rw [State.crew_setStrand]; split
  · subst_vars; rfl
  · rfl

/-! The updates of a strand, as equations. -/

theorem Strand.setS_eq (st : Strand) (n : Nat) (x : Word64) :
    st.setS n x = { st with s := if n = 0 then st.s else mset st.s n x, f := if n = 0 then st.f else st.f &&& ~~~(1#32 <<< n) } := by
  unfold Strand.setS; split <;> rfl
theorem Strand.setFut_eq (st : Strand) (n : Nat) (h : Word64) :
    st.setFut n h = { st with s := if n = 0 then st.s else mset st.s n h, f := if n = 0 then st.f else st.f ||| (1#32 <<< n) } := by
  unfold Strand.setFut; split <;> rfl
theorem Strand.setPred_eq (st : Strand) (n : Nat) (act val : Word) :
    st.setPred n act val = { st with p := if n = 0 then st.p else mset st.p n ((mget st.p n &&& ~~~act) ||| (val &&& act)) } := by
  unfold Strand.setPred; split <;> rfl
/-- An S register after a write: S0 reads as zero, the register written as the value, the others as before (R53). -/
theorem Strand.sreg_setS (st : Strand) (n m : Nat) (x : Word64) :
    (st.setS n x).sreg m = if m = 0 then 0 else if m = n then x else st.sreg m := by
  unfold Strand.setS Strand.sreg
  by_cases h : n = 0
  · subst h; by_cases hm : m = 0 <;> simp [hm]
  · simp only [h, if_false, mget_mset]
    by_cases hm : m = 0 <;> simp [hm]
/-- What a table of 32 threads reads after a write of some of them. -/
theorem mget_writeThreads (m : FMap Word) (base : Nat) (act : Word) (r : Nat → Word) (n j : Nat) :
    mget (writeThreads m base act r n) j =
      if base ≤ j ∧ j < base + n ∧ tbit act (j - base) = true then r (j - base) else mget m j := by
  induction n with
  | zero => simp [writeThreads]; omega
  | succ n ih =>
    unfold writeThreads
    by_cases hj : j = base + n
    · subst hj
      cases h : tbit act n
      · simp [h, ih]
      · simp [h]
    · have e : mget (if tbit act n then mset (writeThreads m base act r n) (base + n) (r n) else writeThreads m base act r n) j
          = mget (writeThreads m base act r n) j := by
        split
        · simp [hj]
        · rfl
      show mget (if tbit act n then _ else _) j = _
      rw [e, ih]
      have : (base ≤ j ∧ j < base + (n + 1) ∧ tbit act (j - base) = true) ↔ (base ≤ j ∧ j < base + n ∧ tbit act (j - base) = true) := by
        constructor
        · rintro ⟨a, b, c⟩; exact ⟨a, by omega, c⟩
        · rintro ⟨a, b, c⟩; exact ⟨a, by omega, c⟩
      simp only [this]

end Sys2Proof.Machine
end

