-- ==== Sys2Proof/Laws/Memory.lean ====
section
/-! SUPPORT. Memory: every operation on it keeps the canonical form; what a read gives after a write of bytes, of a line and of an engine's
range, after a cut and after a page copy; what these leave unchanged. -/

namespace Sys2Proof.Machine

variable {α : Type}

/-! Sub-tables. -/

theorem mwfAbove_filter [Inhabited α] [DecidableEq α] (p : Nat × α → Bool) : ∀ (m : FMap α) (lo : Nat), mwfAbove lo m = true →
    mwfAbove lo (m.filter p) = true
  | [], _, _ => rfl
  | (a, x) :: r, lo, h => by
    simp only [mwfAbove, Bool.and_eq_true, decide_eq_true_eq] at h
    have ih := mwfAbove_filter p r (a + 1) h.2
    by_cases hp : p (a, x) = true
    · simp only [List.filter_cons, hp, if_true, mwfAbove, Bool.and_eq_true, decide_eq_true_eq]
      exact ⟨h.1, ih⟩
    · simp only [List.filter_cons, hp, if_false, Bool.false_eq_true]
      exact mwfAbove_mono ih (by omega)

theorem mwf_filter [Inhabited α] [DecidableEq α] (p : Nat × α → Bool) (m : FMap α) (h : mwf m = true) : mwf (m.filter p) = true :=
  mwfAbove_filter p m 0 h

theorem mwf_mcut [Inhabited α] [DecidableEq α] (m : FMap α) (lo hi : Nat) (h : mwf m = true) : mwf (mcut m lo hi) = true :=
  mwf_filter _ m h

/-- A canonical table from `lo` on reads as the default below `lo`. -/
theorem mget_below [Inhabited α] [DecidableEq α] : ∀ (m : FMap α) (lo k : Nat), mwfAbove lo m = true → k < lo → mget m k = default
  | [], _, _, _, _ => rfl
  | (a, x) :: r, lo, k, h, hk => by
    simp only [mwfAbove, Bool.and_eq_true, decide_eq_true_eq] at h
    simp only [mget, if_pos (show k < a by omega)]

/-- A key of a canonical table that a filter keeps reads as before, and one that it drops as the default. -/
theorem mget_filter [Inhabited α] [DecidableEq α] (p : Nat → Bool) : ∀ (m : FMap α) (lo k : Nat), mwfAbove lo m = true →
    mget (m.filter (fun e => p e.1)) k = if p k then mget m k else default
  | [], _, k, _ => by cases p k <;> rfl
  | (a, x) :: r, lo, k, h => by
    simp only [mwfAbove, Bool.and_eq_true, decide_eq_true_eq] at h
    have ih := mget_filter p r (a + 1) k h.2
    have low : k ≤ a → mget (r.filter (fun e => p e.1)) k = default := fun hk =>
      mget_below _ (a + 1) k (mwfAbove_filter _ r (a + 1) h.2) (by omega)
    by_cases hp : p a = true
    · simp only [List.filter_cons, hp, if_true, mget]
      by_cases h1 : k < a
      · simp [h1]
      · by_cases h2 : k = a
        · subst h2; simp [hp]
        · simp [h1, h2, ih]
    · simp only [List.filter_cons, hp, if_false, Bool.false_eq_true, mget]
      by_cases h1 : k < a
      · rw [low (by omega)]; simp [h1]
      · by_cases h2 : k = a
        · subst h2; rw [low (by omega)]; simp [hp]
        · simp [h1, h2, ih]

theorem mget_mcut [Inhabited α] [DecidableEq α] (m : FMap α) (lo hi k : Nat) (h : mwf m = true) :
    mget (mcut m lo hi) k = if lo ≤ k ∧ k < hi then default else mget m k := by
  have := mget_filter (fun a => decide (a < lo) || decide (hi ≤ a)) m 0 k h
  simp only [mcut]
  rw [this]
  by_cases hk : lo ≤ k ∧ k < hi
  · rw [if_pos hk, if_neg]; simp; omega
  · rw [if_neg hk, if_pos]; simp; omega

/-- The keys of a canonical table from `lo` on are at least `lo`, and no value is the default. -/
theorem mwfAbove_mem [Inhabited α] [DecidableEq α] : ∀ (m : FMap α) (lo : Nat) (e : Nat × α), mwfAbove lo m = true → e ∈ m →
    lo ≤ e.1 ∧ e.2 ≠ default
  | (a, x) :: r, lo, e, h, he => by
    simp only [mwfAbove, Bool.and_eq_true, decide_eq_true_eq] at h
    rcases List.mem_cons.1 he with rfl | he
    · exact h.1
    · have := mwfAbove_mem r (a + 1) e h.2 he
      exact ⟨by omega, this.2⟩

/-- The entry that a canonical table lists is what the key reads as. -/
theorem mget_mem [Inhabited α] [DecidableEq α] : ∀ (m : FMap α) (lo : Nat) (e : Nat × α), mwfAbove lo m = true → e ∈ m → mget m e.1 = e.2
  | (a, x) :: r, lo, e, h, he => by
    simp only [mwfAbove, Bool.and_eq_true, decide_eq_true_eq] at h
    rcases List.mem_cons.1 he with rfl | he
    · simp [mget]
    · have := (mwfAbove_mem r (a + 1) e h.2 he).1
      simp only [mget, if_neg (show ¬ e.1 < a by omega), if_neg (show ¬ e.1 = a by omega)]
      exact mget_mem r (a + 1) e h.2 he

/-- A key that reads as another value than the default is listed. -/
theorem mem_of_mget [Inhabited α] [DecidableEq α] : ∀ (m : FMap α) (k : Nat), mget m k ≠ default → (k, mget m k) ∈ m
  | [], k, h => absurd rfl h
  | (a, x) :: r, k, h => by
    by_cases h1 : k < a
    · simp [mget, h1] at h
    · by_cases h2 : k = a
      · subst h2; simp [mget]
      · simp only [mget, if_neg h1, if_neg h2] at h ⊢
        exact List.mem_cons_of_mem _ (mem_of_mget r k h)

/-- A map that keeps keys and gives no default keeps the canonical form. -/
theorem mwfAbove_map [Inhabited α] [DecidableEq α] (f : Nat × α → α) (hf : ∀ e, e.2 ≠ default → f e ≠ default) :
    ∀ (m : FMap α) (lo : Nat), mwfAbove lo m = true → mwfAbove lo (m.map (fun e => (e.1, f e))) = true
  | [], _, _ => rfl
  | (a, x) :: r, lo, h => by
    simp only [mwfAbove, Bool.and_eq_true, decide_eq_true_eq] at h
    simp only [List.map_cons, mwfAbove, Bool.and_eq_true, decide_eq_true_eq]
    exact ⟨⟨h.1.1, hf _ h.1.2⟩, mwfAbove_map f hf r (a + 1) h.2⟩

/-- A lost crew's requests stay in a canonical table. -/
theorem mwf_dropRequests (dev u : Nat) (m : FMap Req) (h : mwf m = true) : mwf (dropRequests dev u m) = true :=
  mwfAbove_map _ (fun e he => by
    by_cases hc : e.2.dev = dev ∧ e.2.crew = u ∧ e.2.kind ≠ .none
    · simp only [if_pos hc]
      intro hd
      exact hc.2.2 (congrArg Req.kind hd)
    · simpa only [if_neg hc] using he) m 0 h

/-! Tables laid end to end. -/

theorem mwfAbove_append [Inhabited α] [DecidableEq α] : ∀ (m n : FMap α) (lo hi : Nat), mwfAbove lo m = true → mwfAbove hi n = true →
    lo ≤ hi → (∀ e ∈ m, e.1 < hi) → mwfAbove lo (m ++ n) = true
  | [], n, lo, hi, _, hn, hl, _ => mwfAbove_mono hn hl
  | (a, x) :: r, n, lo, hi, h, hn, hl, hb => by
    simp only [mwfAbove, Bool.and_eq_true, decide_eq_true_eq] at h
    have := hb (a, x) (List.mem_cons_self ..)
    simp only [List.cons_append, mwfAbove, Bool.and_eq_true, decide_eq_true_eq]
    exact ⟨h.1, mwfAbove_append r n (a + 1) hi h.2 hn this (fun e he => hb e (List.mem_cons_of_mem _ he))⟩

/-- A canonical table whose keys from `hi` on are kept is canonical from `hi` on. -/
theorem mwfAbove_from [Inhabited α] [DecidableEq α] : ∀ (m : FMap α) (lo hi : Nat), mwfAbove lo m = true → (∀ e ∈ m, hi ≤ e.1) →
    mwfAbove hi m = true
  | [], _, _, _, _ => rfl
  | (a, x) :: r, lo, hi, h, hb => by
    have := hb (a, x) (List.mem_cons_self ..)
    simp only [mwfAbove, Bool.and_eq_true, decide_eq_true_eq] at h ⊢
    exact ⟨⟨this, h.1.2⟩, h.2⟩

/-! Memory of the machine. -/

/-- Memory after reset is in its canonical form. -/
theorem memory_wf_reset : Memory.wf State.reset.mem = true := rfl

/-- Writing bytes keeps the canonical form. -/
theorem memory_wf_wrBytes (s : State) (pa : Nat) (l : List Byte) (h : Memory.wf s.mem = true) : Memory.wf (s.wrBytes pa l).mem = true :=
  mwf_msetList l s.mem pa h

/-- So does the write of a line or a part of one. -/
theorem memory_wf_wrSpan (s : State) (x : Nat × List Byte) (h : Memory.wf s.mem = true) : Memory.wf (s.wrSpan x).mem = true := by
  have : (s.wrSpan x).mem = msetList s.mem x.1 x.2 := by unfold State.wrSpan; split <;> rfl
  rw [this]; exact mwf_msetList _ _ _ h

/-- So does an engine's write. -/
theorem memory_wf_wrEngine (s : State) (pa : Nat) (l : List Byte) (h : Memory.wf s.mem = true) :
    Memory.wf (s.wrEngine pa l).mem = true := by
  have : ∀ (xs : List (Nat × List Byte)) (s : State), Memory.wf s.mem = true → Memory.wf (xs.foldl State.wrSpan s).mem = true := by
    intro xs
    induction xs with
    | nil => exact fun _ h => h
    | cons x r ih => exact fun s h => ih _ (memory_wf_wrSpan s x h)
  exact this _ _ h

/-- So do the scrub of the near tier and a pair-mode write's zeros. -/
theorem memory_wf_scrubNear (s : State) (h : Memory.wf s.mem = true) : Memory.wf s.scrubNear.mem = true := mwf_mcut _ _ _ h

/-- Waking pseudo-channels leaves memory. -/
@[simp] theorem wakeChannels_mem (s : State) (l : List Nat) : (s.wakeChannels l).mem = s.mem := by
  have g : ∀ (cs : List Nat) (t : State), (cs.foldl (fun (s : State) ch => if mget s.channelAsleep ch
      then { s with channelAsleep := mset s.channelAsleep ch false, channelUsed := mset s.channelUsed ch (s.time + 512) } else s) t).mem = t.mem := by
    intro cs
    induction cs with
    | nil => intro t; rfl
    | cons c r ih => intro t; rw [List.foldl_cons, ih]; split <;> rfl
  exact g (s.channels l) s

/-- Using them leaves memory. -/
@[simp] theorem useChannels_mem (s : State) (l : List Nat) : (s.useChannels l).mem = s.mem := rfl

/-- What the copy of a line of a page that moves leaves of memory. -/
theorem moveLine_mem (s : State) (k : Nat) (m : PageMove) (pa : Nat) :
    (s.moveLine k m pa).mem = s.mem ∨
      (s.moveLine k m pa).mem = (s.wrBytes (m.frame + 128 * m.copied) (s.rdBytes (pa + 128 * m.copied) 128)).mem := by
  unfold State.moveLine
  generalize 128 * m.copied = o
  by_cases h1 : (s.home.any (fun e => decide (e.2.kind ≠ .none) && decide (e.2.kind ≠ .load) && decide (e.2.pa = pa + o))
    || !s.leaseFree (m.frame + o)) = true
  · left; simp only [h1, if_true]
  · by_cases h2 : (!s.channelsReady [pa + o, m.frame + o]) = true
    · left; simp only [h1, h2, if_true, if_false, wakeChannels_mem, Bool.false_eq_true]
    · right; simp only [h1, h2, if_false, useChannels_mem, State.wrBytes, Bool.false_eq_true]

/-- It keeps the canonical form. -/
theorem memory_wf_moveLine (s : State) (k : Nat) (m : PageMove) (pa : Nat) (h : Memory.wf s.mem = true) :
    Memory.wf (s.moveLine k m pa).mem = true := by
  rcases moveLine_mem s k m pa with e | e <;> rw [e]
  · exact h
  · exact memory_wf_wrBytes _ _ _ h

/-- The byte at an address after a write of bytes. -/
theorem mget_wrBytes (s : State) (pa : Nat) (l : List Byte) (a : Nat) :
    mget (s.wrBytes pa l).mem a = if h : pa ≤ a ∧ a < pa + l.length then l[a - pa]'(by omega) else mget s.mem a := by
  by_cases h : pa ≤ a ∧ a < pa + l.length
  · rw [dif_pos h]
    obtain ⟨i, rfl⟩ := Nat.exists_eq_add_of_le h.1
    have := mget_msetList_in l s.mem pa i (by omega)
    simp only [State.wrBytes, this, Nat.add_sub_cancel_left]
  · rw [dif_neg h]
    exact mget_msetList_out l s.mem pa a (by omega)

/-- A write of bytes changes memory only. -/
theorem wrBytes_frame (s : State) (pa : Nat) (l : List Byte) : { s.wrBytes pa l with mem := [] } = { s with mem := [] } := rfl

/-- A write of a line changes memory, sequence numbers and poison only. -/
theorem wrSpan_frame (s : State) (x : Nat × List Byte) :
    { s.wrSpan x with mem := [], seqs := [], poison := [] } = { s with mem := [], seqs := [], poison := [] } := by
  unfold State.wrSpan; split <;> rfl

@[simp] theorem wrSpan_mem (s : State) (x : Nat × List Byte) : (s.wrSpan x).mem = msetList s.mem x.1 x.2 := by
  unfold State.wrSpan; split <;> rfl

/-- An engine's write changes memory, sequence numbers and poison only. -/
theorem wrEngine_frame (s : State) (pa : Nat) (l : List Byte) :
    { s.wrEngine pa l with mem := [], seqs := [], poison := [] } = { s with mem := [], seqs := [], poison := [] } := by
  have : ∀ (xs : List (Nat × List Byte)) (s : State),
      { xs.foldl State.wrSpan s with mem := [], seqs := [], poison := [] } = { s with mem := [], seqs := [], poison := [] } := by
    intro xs
    induction xs with
    | nil => exact fun _ => rfl
    | cons x r ih => intro s; rw [List.foldl_cons, ih, wrSpan_frame]
  exact this _ _

/-- Any field but those three is as before. -/
theorem wrEngine_field (s : State) (pa : Nat) (l : List Byte) {β : Sort _} (f : State → β) (hf : ∀ s : State, f s = f { s with mem := [], seqs := [], poison := [] }) :
    f (s.wrEngine pa l) = f s := by
  rw [hf (s.wrEngine pa l), hf s, wrEngine_frame]

/-- The lines of a range, one after the other, write the bytes of the range in order. -/
theorem msetList_append (l r : List Byte) : ∀ (m : FMap Byte) (k : Nat), msetList m k (l ++ r) = msetList (msetList m k l) (k + l.length) r := by
  induction l with
  | nil => exact fun _ _ => rfl
  | cons v l ih =>
    intro m k
    simp only [List.cons_append, msetList, ih, List.length_cons]
    rw [show k + 1 + l.length = k + (l.length + 1) by omega]

theorem foldl_wrSpan_mem (xs : List (Nat × List Byte)) : ∀ (s : State),
    (xs.foldl State.wrSpan s).mem = xs.foldl (fun m x => msetList m x.1 x.2) s.mem := by
  induction xs with
  | nil => exact fun _ => rfl
  | cons x r ih => intro s; simp only [List.foldl_cons, ih, wrSpan_mem]

theorem lines_mem (rest : List Byte) (p : Nat) : ∀ (n : Nat) (m : FMap Byte),
    ((List.range n).map (fun i => (p + 128 * i, (rest.drop (128 * i)).take 128))).foldl (fun m x => msetList m x.1 x.2) m
      = msetList m p (rest.take (128 * n)) := by
  intro n
  induction n with
  | zero => intro m; simp [msetList]
  | succ n ih =>
    intro m
    rw [List.range_succ, List.map_append, List.foldl_append, ih]
    simp only [List.map_cons, List.map_nil, List.foldl_cons, List.foldl_nil]
    by_cases h : 128 * n ≤ rest.length
    · have e : rest.take (128 * (n + 1)) = rest.take (128 * n) ++ (rest.drop (128 * n)).take 128 := by
        rw [show 128 * (n + 1) = 128 * n + 128 by omega, List.take_add]
      rw [e, msetList_append, List.length_take, Nat.min_eq_left h]
    · have a : rest.take (128 * n) = rest := List.take_of_length_le (by omega)
      have b : rest.take (128 * (n + 1)) = rest := List.take_of_length_le (by omega)
      rw [List.drop_eq_nil_of_le (by omega), List.take_nil, a, b]; rfl

/-- An engine's write puts its bytes at its addresses and nothing elsewhere. -/
theorem wrEngine_mem (s : State) (pa : Nat) (l : List Byte) : (s.wrEngine pa l).mem = msetList s.mem pa l := by
  unfold State.wrEngine
  rw [foldl_wrSpan_mem]
  unfold lineSpans
  by_cases h : l.isEmpty = true
  · have : l = [] := by simpa using h
    subst this
    simp [msetList]
  · have hne : l ≠ [] := by simpa using h
    simp only [h, if_false, Bool.false_eq_true, List.cons_append, List.nil_append, List.foldl_cons]
    rw [lines_mem]
    by_cases hl : l.length ≤ 128 - pa % 128
    · rw [List.drop_eq_nil_of_le hl]; simp [msetList, List.take_of_length_le hl]
    · have e : (l.drop (128 - pa % 128)).take (128 * (((l.drop (128 - pa % 128)).length + 127) / 128)) = l.drop (128 - pa % 128) :=
        List.take_of_length_le (by omega)
      rw [e]
      have := msetList_append (l.take (128 - pa % 128)) (l.drop (128 - pa % 128)) s.mem pa
      rw [List.take_append_drop, List.length_take, Nat.min_eq_left (by omega)] at this
      exact this.symm

/-- The byte at an address after an engine's write. -/
theorem mget_wrEngine (s : State) (pa : Nat) (l : List Byte) (a : Nat) :
    mget (s.wrEngine pa l).mem a = if h : pa ≤ a ∧ a < pa + l.length then l[a - pa]'(by omega) else mget s.mem a := by
  rw [wrEngine_mem]; exact mget_wrBytes s pa l a

/-- The bytes read back after they are written. -/
theorem rdBytes_wrBytes (s : State) (pa : Nat) (l : List Byte) : (s.wrBytes pa l).rdBytes pa l.length = l := by
  apply List.ext_getElem
  · simp [State.rdBytes, mgetList]
  · intro i h1 h2
    simp only [State.rdBytes, mgetList, List.getElem_map, List.getElem_range]
    rw [mget_wrBytes, dif_pos (by omega)]
    congr 1; omega

/-! Numbers as bytes. -/

@[simp] theorem leBytes_length : ∀ n v, (leBytes n v).length = n
  | 0, _ => rfl
  | n + 1, v => by simp [leBytes, leBytes_length n]

theorem leBytes_getElem : ∀ (n v i : Nat) (h : i < (leBytes n v).length), (leBytes n v)[i] = BitVec.ofNat 8 (v / 256 ^ i)
  | 0, _, i, h => by simp at h
  | n + 1, v, 0, _ => by simp [leBytes]
  | n + 1, v, i + 1, h => by
    simp only [leBytes, List.getElem_cons_succ]
    rw [leBytes_getElem n (v / 256) i (by simpa [leBytes] using h), Nat.div_div_eq_div_mul, Nat.pow_succ, Nat.mul_comm]

/-- A number comes back from its bytes. -/
theorem leNat_leBytes : ∀ n v, leNat (leBytes n v) = v % 256 ^ n
  | 0, v => by simp [leBytes, leNat, Nat.mod_one]
  | n + 1, v => by
    simp only [leBytes, leNat, leNat_leBytes n, BitVec.toNat_ofNat]
    rw [show 2 ^ 8 = 256 from rfl, Nat.pow_succ, Nat.mul_comm (256 ^ n) 256, Nat.mod_mul]

theorem leNat_lt : ∀ l : List Byte, leNat l < 256 ^ l.length
  | [] => by simp [leNat]
  | b :: r => by
    have := leNat_lt r
    have := b.isLt
    simp only [leNat, List.length_cons, Nat.pow_succ]
    omega

end Sys2Proof.Machine
end

