-- ==== Sys2Proof/Laws/Run.lean ====
section
/-! SUPPORT. What running an instruction does: the spec lemmas of the shared runner, of an effect in each strand, and of the two shapes of instruction (`strandOp`, `vecOp`) that most instructions have. -/

namespace Sys2Proof.Machine

/-! States that differ in strands alone. -/

/-- The states agree but in the strands of their crews and in the counter of free values. -/
def Alike (s t : State) : Prop :=
  (∀ v, { t.crew v with strand := [] } = { s.crew v with strand := [] }) ∧
  { t with crews := [], free := [] } = { s with crews := [], free := [] }

/-- The states agree but in the strands of their crews. -/
def Same (s t : State) : Prop :=
  (∀ v, { t.crew v with strand := [] } = { s.crew v with strand := [] }) ∧ { t with crews := [] } = { s with crews := [] }

theorem Alike.refl (s : State) : Alike s s := ⟨fun _ => rfl, rfl⟩
theorem Alike.trans {s t r : State} (h : Alike s t) (g : Alike t r) : Alike s r :=
  ⟨fun v => (g.1 v).trans (h.1 v), g.2.trans h.2⟩
theorem Same.refl (s : State) : Same s s := ⟨fun _ => rfl, rfl⟩
theorem Same.trans {s t r : State} (h : Same s t) (g : Same t r) : Same s r :=
  ⟨fun v => (g.1 v).trans (h.1 v), g.2.trans h.2⟩
theorem Same.alike {s t : State} (h : Same s t) : Alike s t :=
  ⟨h.1, by have := congrArg (fun x : State => { x with free := [] }) h.2; exact this⟩

theorem same_setStrand (s : State) (u k : Nat) (st : Strand) : Same s (s.setStrand u k st) :=
  ⟨fun v => State.crew_setStrand_rest s u k v st, rfl⟩

/-- Any field but `crews` and `free` of two alike states. -/
theorem Alike.field {s t : State} (h : Alike s t) {α : Sort _} (f : State → α) :
    f { t with crews := [], free := [] } = f { s with crews := [], free := [] } := by rw [h.2]
/-- Any field but the strands of a crew in two alike states. -/
theorem Alike.crewField {s t : State} (h : Alike s t) (v : Nat) {α : Sort _} (f : Crew → α) :
    f { t.crew v with strand := [] } = f { s.crew v with strand := [] } := by rw [h.1 v]

/-! Futures. -/

/-- What a future gives depends on the results and the strand's joins alone. -/
theorem futureValue_congr {s t : State} (h : t.results = s.results) (st : Strand) (x : Word64) :
    t.futureValue st x = s.futureValue st x := by
  have e : t.srcValue = s.srcValue := by funext j; cases j <;> simp [State.srcValue, h]
  unfold State.futureValue; rw [e, h]

/-- The delivery of futures depends on the results alone. -/
theorem deliver_congr {s t : State} (h : t.results = s.results) : ∀ (l : List Nat) (st : Strand), t.deliver st l = s.deliver st l
  | [], _ => rfl
  | n :: r, st => by
    unfold State.deliver
    rw [futureValue_congr h]
    split
    · split
      · exact deliver_congr h r _
      · rfl
    · exact deliver_congr h r st

theorem Alike.results {s t : State} (h : Alike s t) : t.results = s.results := h.field State.results

/-! An effect in each strand of a list. -/

/-- A fold over strands, each of which changes its own strand only: what each ends as, and that nothing else changes. -/
theorem fold_strands (E : State → State → Prop) (refl : ∀ s, E s s) (trans : ∀ {a b c}, E a b → E b c → E a c)
    (h : State → Nat → State) (R : Nat → Strand → Prop) (u : Nat) :
    ∀ (ks : List Nat) (s : State), ks.Nodup →
      (∀ s' k, E s s' → k ∈ ks → s'.strand u k = s.strand u k →
        R k ((h s' k).strand u k) ∧ (∀ v j, ¬(v = u ∧ j = k) → (h s' k).strand v j = s'.strand v j) ∧ E s' (h s' k)) →
      (∀ k ∈ ks, R k ((ks.foldl h s).strand u k)) ∧
      (∀ v j, ¬(v = u ∧ j ∈ ks) → (ks.foldl h s).strand v j = s.strand v j) ∧ E s (ks.foldl h s)
  | [], s, _, _ => ⟨by simp, by simp, refl s⟩
  | k :: ks, s, nd, H => by
    obtain ⟨hk, nd'⟩ := List.nodup_cons.mp nd
    obtain ⟨r1, o1, e1⟩ := H s k (refl s) (by simp) rfl
    obtain ⟨r2, o2, e2⟩ := fold_strands E refl trans h R u ks (h s k) nd' (by
      intro s' j he hj hs
      have hne : j ≠ k := fun x => hk (x ▸ hj)
      exact H s' j (trans e1 he) (by simp [hj]) (hs.trans (o1 u j (by simp [hne]))))
    refine ⟨?_, ?_, trans e1 e2⟩
    · intro j hj
      rw [List.foldl_cons]
      rcases List.mem_cons.mp hj with rfl | hj'
      · rw [o2 u j (by simp [hk])]; exact r1
      · exact r2 j hj'
    · intro v j hn
      rw [List.foldl_cons, o2 v j (by rintro ⟨a, b⟩; exact hn ⟨a, by simp [b]⟩)]
      exact o1 v j (by rintro ⟨a, b⟩; exact hn ⟨a, by simp [b]⟩)

/-- A site whose futures have resolved. -/
theorem site_some {s : State} {u k : Nat} {l : List Nat} (h : (s.deliver (s.strand u k) l).isSome = true) :
    s.site u k l = some ⟨s, u, k, s.crew u, (s.deliver (s.strand u k) l).getD (s.strand u k)⟩ := by
  obtain ⟨x, hx⟩ := Option.isSome_iff_exists.mp h
  have hx' : s.deliver ((s.crew u).st k) l = some x := hx
  simp [State.site, hx, hx']

/-- An effect on each strand alone. -/
theorem onStrand_spec (x : Use) (f : Site → Strand) (s : State) (u : Nat) (ks : List Nat) (g : Nat → Strand) (nd : ks.Nodup)
    (hd : ∀ k ∈ ks, (s.deliver (s.strand u k) x.reads).isSome = true)
    (hf : ∀ s' k, Alike s s' → k ∈ ks → s'.strand u k = s.strand u k →
      f ⟨s', u, k, s'.crew u, (s.deliver (s.strand u k) x.reads).getD (s.strand u k)⟩ = g k) :
    (∀ k ∈ ks, (onStrand x f s u ks).strand u k = g k) ∧
    (∀ v j, ¬(v = u ∧ j ∈ ks) → (onStrand x f s u ks).strand v j = s.strand v j) ∧ Same s (onStrand x f s u ks) := by
  unfold onStrand eachStrand
  refine fold_strands Same Same.refl Same.trans _ (fun k st => st = g k) u ks s nd ?_
  intro s' k he hk hs
  have hr := he.alike.results
  have hd' : (s'.deliver (s'.strand u k) x.reads).isSome = true := by rw [hs, deliver_congr hr]; exact hd k hk
  have e := hf s' k he.alike hk hs
  rw [site_some hd']
  rw [hs, deliver_congr hr]
  dsimp only
  rw [e]
  exact ⟨by simp, fun v j hn => by simp [hn], same_setStrand _ _ _ _⟩

/-- An effect on each strand that uses a free value. -/
theorem eachFree_spec (x : Use) (f : Site → Strand) (s : State) (u : Nat) (ks : List Nat) (R : Nat → Strand → Prop) (nd : ks.Nodup)
    (hd : ∀ k ∈ ks, (s.deliver (s.strand u k) x.reads).isSome = true)
    (hf : ∀ s' k, Alike s s' → k ∈ ks → s'.strand u k = s.strand u k →
      R k (f ⟨s', u, k, s'.crew u, (s.deliver (s.strand u k) x.reads).getD (s.strand u k)⟩)) :
    let t := eachStrand x (fun a => (a.s.setStrand a.u a.k (f a)).freeUp (a.s.crewLaunch a.c).part) s u ks
    (∀ k ∈ ks, R k (t.strand u k)) ∧ (∀ v j, ¬(v = u ∧ j ∈ ks) → t.strand v j = s.strand v j) ∧ Alike s t := by
  intro t
  refine fold_strands Alike Alike.refl Alike.trans _ R u ks s nd ?_
  intro s' k he hk hs
  have hr := he.results
  have hd' : (s'.deliver (s'.strand u k) x.reads).isSome = true := by rw [hs, deliver_congr hr]; exact hd k hk
  have e := hf s' k he hk hs
  rw [site_some hd']
  rw [hs, deliver_congr hr]
  dsimp only
  have hst : ∀ v j st n, ((s'.setStrand u k st).freeUp n).strand v j = (s'.setStrand u k st).strand v j := fun _ _ _ _ => rfl
  refine ⟨?_, ?_, ?_, ?_⟩
  · rw [hst]; simpa using e
  · intro v j hn; rw [hst]; simp [hn]
  · intro v; exact State.crew_setStrand_rest _ _ _ _ _
  · rfl

/-! The runner. -/

/-- An instruction of which no strand traps and none waits takes its effect in every strand. -/
theorem runInstr_clear (i : Instr) (m : Meaning) (s : State) (hn : s.cur.strands ≠ [])
    (ht : ∀ k ∈ s.cur.strands, m.trapOf i s s.cur.crew s.cur.strands k = none)
    (hw : ∀ k ∈ s.cur.strands, m.waitOf s s.cur.crew k = none) :
    runInstr i m s = m.act s s.cur.crew s.cur.strands := by
  have e : s.cur.strands.filterMap (fun k => (m.trapOf i s s.cur.crew s.cur.strands k).map (fun t => (k, t))) = [] := by
    rw [List.filterMap_eq_nil_iff]; intro k hk; simp [ht k hk]
  have w : m.waits s s.cur.crew s.cur.strands = [] := by
    have w0 : s.cur.strands.filterMap (fun k => (m.waitOf s s.cur.crew k).map (fun x => (k, x))) = [] := by
      rw [List.filterMap_eq_nil_iff]; intro k hk; simp [hw k hk]
    simp [Meaning.waits, w0]
  unfold runInstr
  simp [e, w, State.takeTraps, hn]

/-- An empty sub-gang does nothing. -/
theorem runInstr_empty (i : Instr) (m : Meaning) (s : State) (hn : s.cur.strands = []) : runInstr i m s = s := by
  unfold runInstr
  simp [hn, State.takeTraps, Meaning.waits]

/-- An instruction that is no posted store meets no full queue (R246). -/
theorem full_of_posted {m : Meaning} (h : m.posted = false) (s : State) (u : Nat) : m.full s u = false := by simp [Meaning.full, h]

/-- In a clear state an instruction that is no posted store traps and waits only for reasons of its own. -/
theorem clear_trapOf {s : State} {m : Meaning} (h : s.clear m.use) (hp : m.posted = false) (i : Instr) {k : Nat} (hk : k ∈ s.cur.strands) :
    m.trapOf i s s.cur.crew s.cur.strands k =
      m.trap ⟨s, s.cur.crew, k, s.crew s.cur.crew, s.reading m.use k⟩ := by
  obtain ⟨h1, h2, h3⟩ := h.2 k hk
  have h1' : m.use.cause (s.crew s.cur.crew) ((s.crew s.cur.crew).st k) (fun n => s.slotOf (s.crew s.cur.crew) n)
      (converged (s.crew s.cur.crew) s.cur.strands) = 0 := h1
  have h2' : m.use.unavailable s.period ((s.crew s.cur.crew).st k) = false := h2
  have h4 : s.cur.strands.any (fun j => m.use.unavailable s.period ((s.crew s.cur.crew).st j) || (s.site s.cur.crew j m.use.reads).isNone) = false := by
    rw [List.any_eq_false]
    intro j hj
    obtain ⟨_, g2, g3⟩ := h.2 j hj
    have g2' : m.use.unavailable s.period ((s.crew s.cur.crew).st j) = false := g2
    simp [g2', site_some g3]
  unfold Meaning.trapOf
  simp only [h1', h2', h4, site_some h3, full_of_posted hp]
  simp [State.reading]

theorem clear_waitOf {s : State} {m : Meaning} (h : s.clear m.use) (hp : m.posted = false) {k : Nat} (hk : k ∈ s.cur.strands) :
    m.waitOf s s.cur.crew k = m.hold ⟨s, s.cur.crew, k, s.crew s.cur.crew, s.reading m.use k⟩ := by
  obtain ⟨_, h2, h3⟩ := h.2 k hk
  unfold Meaning.waitOf
  simp only [h2, site_some h3, full_of_posted hp]
  simp [State.reading]

/-- An instruction that acts on strands alone, whatever its traps and waits, completes where it neither traps nor waits. -/
theorem completes_onStrand (i : Instr) (m : Meaning) (f : Site → Strand) (s : State) (g : Nat → Strand)
    (hm : m.act = onStrand m.use f) (hp : m.posted = false) (hc : s.clear m.use)
    (ht : ∀ k ∈ s.cur.strands, m.trap ⟨s, s.cur.crew, k, s.crew s.cur.crew, s.reading m.use k⟩ = none)
    (hw : ∀ k ∈ s.cur.strands, m.hold ⟨s, s.cur.crew, k, s.crew s.cur.crew, s.reading m.use k⟩ = none)
    (hf : ∀ s' k, Alike s s' → k ∈ s.cur.strands → s'.strand s.cur.crew k = s.strand s.cur.crew k →
      f ⟨s', s.cur.crew, k, s'.crew s.cur.crew, s.reading m.use k⟩ = g k) :
    Completes s (.next (runInstr i m s)) g := by
  by_cases hn : s.cur.strands = []
  · rw [runInstr_empty i m s hn]
    exact ⟨s, rfl, by simp [hn], ⟨fun _ _ _ => rfl, fun _ => rfl⟩, rfl⟩
  refine ⟨_, rfl, ?_⟩
  rw [runInstr_clear i m s hn (fun k hk => (clear_trapOf hc hp i hk).trans (ht k hk)) (fun k hk => (clear_waitOf hc hp hk).trans (hw k hk)), hm]
  obtain ⟨a1, a2, a3⟩ := onStrand_spec m.use f s s.cur.crew s.cur.strands g hc.1 (fun k hk => (hc.2 k hk).2.2) hf
  exact ⟨a1, ⟨a2, a3.1⟩, a3.2⟩

/-- A vector instruction completes in a clear state. -/
theorem produces_vecOp (i : Instr) (x : Use) (n : Bool) (d : Opnd) (r : Site → Nat → Word) (fx : Site → Strand → Strand)
    (s : State) (r' : Strand → Nat → Word) (fx' : Strand → Strand → Strand) (hc : s.clear x)
    (hr : ∀ s' k, Alike s s' → k ∈ s.cur.strands → s'.strand s.cur.crew k = s.strand s.cur.crew k →
      r ⟨s', s.cur.crew, k, s'.crew s.cur.crew, s.reading x k⟩ = r' (s.reading x k) ∧
      fx ⟨s', s.cur.crew, k, s'.crew s.cur.crew, s.reading x k⟩ = fx' (s.reading x k)) :
    Produces s x (.next (runInstr i (vecOp x n d r fx) s)) n d r' fx' := by
  by_cases hn : s.cur.strands = []
  · rw [runInstr_empty i _ s hn]
    exact ⟨s, rfl, by simp [hn], ⟨fun _ _ _ => rfl, fun _ => rfl⟩, rfl⟩
  refine ⟨_, rfl, ?_⟩
  rw [runInstr_clear i (vecOp x n d r fx) s hn (fun k hk => clear_trapOf (m := vecOp x n d r fx) hc rfl i hk)
    (fun k hk => clear_waitOf (m := vecOp x n d r fx) hc rfl hk)]
  have key := eachFree_spec x
    (fun a => (fx a (a.st.result n d a.st.active (r a) (a.s.freeAt (a.s.crewLaunch a.c).part))).seq) s s.cur.crew s.cur.strands
    (fun k st' => ∃ q, st' = (fx' (s.reading x k) ((s.reading x k).result n d (s.reading x k).active (r' (s.reading x k)) q)).seq)
    hc.1 (fun k hk => (hc.2 k hk).2.2) (by
      intro s' k he hk hs
      obtain ⟨e1, e2⟩ := hr s' k he hk hs
      refine ⟨s'.freeAt (s'.crewLaunch (s'.crew s.cur.crew)).part, ?_⟩
      have e1' : r ⟨s', s.cur.crew, k, s'.crew s.cur.crew,
        (s.deliver (s.strand s.cur.crew k) x.reads).getD (s.strand s.cur.crew k)⟩ = r' (s.reading x k) := e1
      have e2' : fx ⟨s', s.cur.crew, k, s'.crew s.cur.crew,
        (s.deliver (s.strand s.cur.crew k) x.reads).getD (s.strand s.cur.crew k)⟩ = fx' (s.reading x k) := e2
      dsimp only
      rw [e1', e2']; rfl)
  obtain ⟨a1, a2, a3⟩ := key
  exact ⟨a1, ⟨a2, a3.1⟩, a3.2⟩

end Sys2Proof.Machine
end

