-- ==== Sys2Proof/Tests/Slice0.lean ====
section
/-! SUPPORT. Tests: words of the spec's examples and encodings, ill-formed terms, one step on small states, and for every statement with
hypotheses states and operands that meet them. Expected values are the spec's words or computed by hand from its rules. -/

open Sys2Proof Sys2Proof.Machine

set_option maxRecDepth 100000
set_option Elab.async false

namespace Sys2Proof.Tests

/-- The translation of the first GiB as it stands, in the TLB with number `owner`, with the leaf's permissions `perms`. -/
def page0 (owner perms : Nat) : TlbEntry := { owner := owner, part := 0, space := 0, page := 0, pageBits := 30, leaf := BitVec.ofNat 64 perms }
/-- A crew of one strand at 0x1000, which issues; its core and the two domains translate the first GiB. -/
def alone : State := { State.reset.placeWord 0 with cur := ⟨1, 0, [0]⟩, tlb := [page0 2 0x1F, page0 0 0x1F, page0 1 0x1F] }
/-- The same with its strand changed. -/
def having (f : Strand → Strand) : State := alone.setStrand 1 0 (f (alone.strand 1 0))
/-- The same with an S register and MR. -/
def withS (n : Nat) (v : Word64) (mr : Word := 0) : State := having (fun st => { st.setS n v with mr := mr })
/-- With MR. -/
def withMr (mr : Word) : State := having (fun st => { st with mr := mr })
/-- The same with its crew changed. -/
def crewed (f : Crew → Crew) : State := alone.setCrew 1 (f (alone.crew 1))
/-- The same with its launch's record changed. -/
def recorded (f : LaunchRec → LaunchRec) : State := alone.setLaunch 1 { alone.launchOf 1 with record := f (alone.launchOf 1).record }
/-- The strand at level 1. -/
def handling : State := having (fun st => { st with handler := true })

/-! Witnesses: states and operands that meet the hypotheses of each statement, clause by clause. -/

theorem witness_IntegerArithmetic :
    alone.clear (intUse3 ⟨false, .v 63, .v 0, .s 31⟩) ∧ alone.clear (intUse3 ⟨true, .v 0, .o 7, .v 1⟩) ∧
    (withMr 0x50).clear (intUse2 ⟨false, .o 0, .v 63⟩) ∧ alone.clear (intUseA ⟨.v 0, .v 1, .v 63⟩) := by decide

theorem witness_DivisionDotProductsAndShifts :
    alone.clear (intUse3 ⟨false, .v 0, .v 63, .o 7⟩) ∧ alone.clear (intUseA ⟨.v 63, .v 0, .v 1⟩) ∧
    (withMr 0x50).clear (intUse3 ⟨false, .v 1, .v 2, .v 3⟩) ∧ alone.clear (intUseI false (.v 0) (.v 63)) := by decide

theorem witness_BitwiseLogicAndFields :
    (withMr 0xF0).clear (use3 ⟨false, .v 63, .v 0, .s 0⟩) ∧ (withMr 0xF0).clear (use2 ⟨true, .v 0, .o 7⟩) ∧
    alone.clear (useA ⟨.o 0, .v 0, .v 1⟩) := by decide

theorem witness_ImmediatesAndMoves :
    alone.clear (intUseI true (.v 0) (.v 63)) ∧ alone.clear (useI false (.o 0) (.v 1)) ∧
    (isS (.v 63) = false ∧ alone.clear { out := [.v 63] } ∧ alone.clear { out := [] }) ∧
    (isS (.o 7) = false ∧ (1 : Fin 4).val < 2 ∧ alone.clear { out := [.o 7] }) ∧
    alone.clear (use2 ⟨false, .v 0, .s 31⟩) ∧ alone.clear (use3 ⟨false, .v 63, .v 0, .v 1⟩) ∧
    alone.clear { src := [.v 0, .v 1], out := [.v 63] } := by decide

theorem witness_UniformArithmetic :
    alone.clear { sr := [31, 0], sw := [0] } ∧ alone.clear { sin := [.s 31], sout := [.s 31] } ∧ alone.clear { sout := [.s 0] } := by decide

theorem witness_FloatArithmetic :
    (withMr 0x60).clear { use3 ⟨false, .v 63, .v 0, .v 1⟩ with mode := fmode true } ∧
    (withMr 0x780).clear { use3 ⟨true, .v 0, .v 0, .v 1⟩ with mode := fmode false } ∧
    (withMr 0x570).clear { useA ⟨.v 0, .v 63, .s 31⟩ with mode := fmode true } ∧
    (withMr 0x80).clear { use2 ⟨false, .o 7, .v 0⟩ with mode := fmode false } := by decide

theorem witness_FloatLateResults :
    (withMr 0x60).clear { use3 ⟨false, .v 63, .v 0, .v 1⟩ with mode := fmode true } ∧
    (withMr 0x580).clear { use2 ⟨false, .v 0, .v 63⟩ with mode := fmode true } ∧
    (withMr 0x770).clear { use2 ⟨true, .v 0, .o 0⟩ with mode := fmode false } := by decide

theorem witness_FloatComparison : (withMr 0x60).clear { src := [.v 0, .s 31], mode := fmode false } := by decide

/-- F32 in MR; a slot of kind 3, scaled and signed, and one of kind 4 with 8 planes. -/
theorem witness_ConversionsAndQuantisation :
    (withMr 0x60).clear (cvtUse ⟨false, .v 63, .v 0, 8⟩) ∧ (withMr 0x60).clear (packUse ⟨false, .v 1, .v 60, 5⟩) ∧
    (withMr 0x60).clear (packUse ⟨false, .v 1, .s 31, 7⟩) ∧ (withMr 0x50).clear (unpkUse ⟨false, .v 60, .v 0, 6⟩) ∧
    (recorded (fun r => { r with slot := [(7, 0x603)] })).clear (qntUse ⟨false, .v 0, .v 63, 7⟩) ∧
    (recorded (fun r => { r with slot := [(0, 0xFF0603)] })).clear (dqntUse ⟨true, .v 0, .v 1, 0⟩) ∧
    (recorded (fun r => { r with slot := [(1, 0x84)] })).clear (nestUse ⟨false, .v 0, .v 1, 1⟩) := by decide

/-- I32 and a float type; two strands for the votes. -/
theorem witness_ReductionsScansAndVotes :
    alone.clear { use2 ⟨false, .v 63, .v 0⟩ with mode := redBad } ∧ (withMr 0x760).clear { use2 ⟨false, .v 0, .v 1⟩ with mode := redBadEt } ∧
    (withMr 0x60).clear { use2 ⟨false, .v 0, .v 63⟩ with mode := redBad } ∧ etInt (mrET (0x60 : Word)) = false ∧
    etInt (mrET (0x760 : Word)) = false ∧
    (withMr 0x60).clear { src := [.v 0], sout := [.s 31], mode := fun _ => redBad ((withMr 0x60).strand 1 0).mr } ∧
    etInt (mrET (alone.strand 1 0).mr) = true ∧ (alone.strand 1 0).active ≠ 0 ∧ alone.clear { sout := [.s 31] } ∧
    alone.clear { src := [.v 63], sout := [.s 0], mode := fun _ => redBad (alone.strand alone.cur.crew (alone.cur.strands.headD 0)).mr } := by decide

theorem witness_ComparisonAndPredicateLogic :
    alone.clear { src := [.v 0, .v 63], mode := etBad etInt } ∧ (withMr 0xF0).clear { src := [.o 7, .s 31] } ∧ alone.clear {} ∧
    alone.clear { sout := [.s 31] } ∧ alone.clear { sin := [.s 31] } := by decide

theorem witness_SystemRegisters :
    alone.clear {} ∧
    (alone.clear { sr := [31] } ∧ ∀ k ∈ alone.cur.strands, nbits ((alone.reading { sr := [31] } k).sreg 31).toNat 22 10 = 0) ∧
    (isS (.v 63) = false ∧ alone.clear { out := [.v 63], bad := fun _ _ => decide (24 ≤ 23) }) ∧
    alone.clear { sout := [.s 31], bad := fun _ _ => decide (24 ≤ 1 ∨ 1 = 0) } ∧ alone.clear { src := [.v 0] } ∧
    (alone.clear { sout := [.s 0] } ∧ ∀ k ∈ alone.cur.strands,
      (∀ e ∈ (alone.strand alone.cur.crew k).late, e.2 ≤ alone.period) ∧ (alone.crew alone.cur.crew).runningLocks (weaveOf k) = []) := by decide

theorem witness_BranchesJumpsAndCalls :
    alone.clear (brUse true 7) ∧ alone.clear (brUse false 0) ∧ alone.clear { sr := [31], branch := true } ∧
    alone.clear { branch := true } ∧ alone.clear { branch := true, sw := [31] } ∧
    (let s := withS 31 0x1FFFFFFFFFFFFFC
     let x : Use := { sr := [31], branch := true }
     s.clear x ∧ ∀ k ∈ s.cur.strands, goodTarget (s.reading x k) 31) ∧
    (let x : Use := { sin := [.s 0], branch := true }
     alone.clear x ∧ ∀ k ∈ alone.cur.strands, goodTarget (alone.reading x k) 0) ∧
    (let s := withS 31 0x1000
     let x : Use := { sin := [.s 31], branch := true, sw := [31] }
     s.clear x ∧ ∀ k ∈ s.cur.strands, goodTarget (s.reading x k) 31) := by unfold goodTarget; decide

/-- Targets that register transfers cannot take: one that is misaligned, and the first beyond the address space; a fetch from a page that gives no
permission to execute. -/
theorem witness_BranchesJumpsAndCalls_traps :
    (let x : Use := { sr := [31], branch := true }
     ((withS 31 2).clear x ∧ ∀ k ∈ (withS 31 2).cur.strands, (((withS 31 2).reading x k).sreg 31).toNat % 4 ≠ 0) ∧
     ((withS 31 0x200000000000000).clear x ∧ ∀ k ∈ (withS 31 0x200000000000000).cur.strands,
       (((withS 31 0x200000000000000).reading x k).sreg 31).toNat % 4 = 0 ∧ 2 ^ 57 ≤ (((withS 31 0x200000000000000).reading x k).sreg 31).toNat)) ∧
    (∀ x ∈ [({ sin := [.s 1], branch := true } : Use), { sin := [.s 1], branch := true, sw := [31] }],
     ((withS 1 1).clear x ∧ ∀ k ∈ (withS 1 1).cur.strands, (((withS 1 1).reading x k).sreg 1).toNat % 4 ≠ 0) ∧
     ((withS 1 0x200000000000000).clear x ∧ ∀ k ∈ (withS 1 0x200000000000000).cur.strands,
       (((withS 1 0x200000000000000).reading x k).sreg 1).toNat % 4 = 0 ∧ 2 ^ 57 ≤ (((withS 1 0x200000000000000).reading x k).sreg 1).toNat)) ∧
    (let s : State := { alone with tlb := [page0 2 3] }
     s.bootstat.getLsbD 8 = false ∧ s.agenda = [] ∧ s.nextIssue = some (⟨1, 0, [0]⟩, []) ∧ (s.strand 1 0).walkFaults = [] ∧
     s.xlate (s.crew 1).core (domOf (s.crew 1).core) 0 0 (s.strand 1 0).pc.toNat permX = .fault cProtection) :=
  ⟨by decide, by decide, by decide⟩

/-- Three active loops that end beyond the new one; four; a stack with an entry and an empty one. -/
theorem witness_LoopsAndJoins :
    (let l : LoopState := ⟨0x1000, 0x2000, 5⟩
     let s := having (fun st => { st with loops := [l, l, l] })
     let x : Use := { sin := [.s 31], branch := true }
     s.clear x ∧ ∀ k ∈ s.cur.strands, (s.reading x k).loops.length < 4 ∧
       ∀ l ∈ (s.reading x k).loops, ((s.reading x k).pc + 4 + BitVec.ofNat 57 (4 * 255)).toNat ≤ l.fin.toNat) ∧
    (let l : LoopState := ⟨0x1000, 0x2000, 5⟩
     let s := having (fun st => { st with loops := [l, l, l, l] })
     let x : Use := { sin := [.s 0], branch := true }
     s.clear x ∧ ∀ k ∈ s.cur.strands, 4 ≤ (s.reading x k).loops.length) ∧
    (let s := having (fun st => { st with loops := [⟨0x1000, 0x1004, 1⟩] })
     s.clear {} ∧ ∀ k ∈ s.cur.strands, (s.reading {} k).loops ≠ []) ∧
    (alone.clear {} ∧ ∀ k ∈ alone.cur.strands, (alone.reading {} k).loops = []) ∧
    (having (fun st => { st with stack := [⟨true, 1, 0x1000⟩] })).clear { branch := true, stack := fun st => st.stack.isEmpty } ∧
    (∀ k ∈ alone.cur.strands, alone.checked { branch := true, stack := fun st => st.stack.isEmpty } k = cDivstack) := by decide

/-- No flag raised, and one raised that is enabled; nothing, a write and a record outstanding; a count of 0 and one of 5. -/
theorem witness_WaitsOfStrands :
    alone.clear {} ∧ alone.ops = [] ∧
    (∀ k ∈ alone.cur.strands, (alone.strand alone.cur.crew k).flags.toNat.land (mrTE (alone.strand alone.cur.crew k).mr) = 0) ∧
    (let s := having (fun st => { st with flags := 1, mr := 0x10000 })
     s.clear {} ∧ ∀ k ∈ s.cur.strands, (s.strand s.cur.crew k).flags.toNat.land (mrTE (s.strand s.cur.crew k).mr) ≠ 0) ∧
    (∀ k ∈ alone.cur.strands, (alone.strand alone.cur.crew k).unacked ≤ alone.waitingFailures alone.cur.crew k ∧
      alone.oldestRecord alone.cur.crew k = none) ∧
    (let s := having (fun st => { st with unacked1 := 1 })
     s.clear {} ∧ ∀ k ∈ s.cur.strands, s.waitingFailures s.cur.crew k < (s.strand s.cur.crew k).unacked) ∧
    (let e : SfRecord := { (default : SfRecord) with crew := 1, strand := 0, launch := 1, cause := 2, va := 8 }
     let s : State := { alone with sfrq := [(3, e)] }
     s.clear {} ∧ ∀ k ∈ s.cur.strands, (s.strand s.cur.crew k).unacked ≤ s.waitingFailures s.cur.crew k ∧
       s.oldestRecord s.cur.crew k = some (3, e)) ∧
    alone.clear { src := [.v 0] } ∧ (withS 3 5).clear { src := [.s 3] } := by decide

/-- An MMA of strand 0 has not retired. -/
theorem witness_WaitsOfStrands_mma :
    let s : State := { alone with ops := [(5, { (default : Op) with kind := .mma ⟨0, 7, 2, 1, 2, 31, true, false, true⟩, crew := 1 })] }
    s.clear {} ∧ ∀ k ∈ s.cur.strands, ∃ o ∈ s.ops, o.2.crew = s.cur.crew ∧ o.2.weave = weaveOf k ∧ ∃ f, o.2.kind = .mma f :=
  ⟨by decide, fun k hk => by
    have e : k = 0 := by simpa [alone] using hk
    exact ⟨_, List.mem_singleton.2 rfl, rfl, by rw [e]; rfl, _, rfl⟩⟩

/-- A crew of two strands of one weave, of which strand 0 issues, and strand 1 is `f` of it. -/
def two (f : Strand → Strand) : State :=
  crewed (fun c => { c.setSt 1 { f (c.st 0) with gang := 1 } with strands := 2 })

/-- The hypotheses of WCONV: the strands of the weave that are live. -/
abbrev weaveOne (s : State) : List Nat := (s.crew s.cur.crew).weaveLive s.cur.weave

/-- The hypotheses of EXIT: strand `k` is left without a thread, the last live strands all end here, and nothing is outstanding. -/
abbrev exitEnds (s : State) (k : Nat) : Prop := (s.strand 1 k).live &&& ~~~(s.strand 1 k).umask = 0
abbrev exitLast (s : State) : Prop := ∀ j ∈ (s.crew 1).keys, (s.strand 1 j).live = 0 ∨ (j ∈ s.cur.strands ∧ exitEnds s j)
abbrev exitDrained (s : State) : Prop := (∀ j ∈ (s.crew 1).keys, (s.strand 1 j).unacked ≤ s.waitingFailures 1 j) ∧ s.ops = []

/-- One sub-gang; the other not yet there; both there, with unequal and with equal keys. EXIT with another strand left; as the last with a
write outstanding; as the last with nothing, and with a record. -/
theorem witness_WconvAndExit :
    ((∀ k ∈ weaveOne alone, k ∈ alone.cur.strands) ∧ alone.clear {}) ∧
    (let s := two id
     (∃ k ∈ weaveOne s, k ∉ s.cur.strands ∧ (s.strand 1 k).wait ≠ .wconv) ∧ s.cur.strands.Nodup) ∧
    (let s := two (fun st => { st with wait := .wconv, pc := 0x2000 })
     (∃ k ∈ weaveOne s, k ∉ s.cur.strands) ∧ (∀ k ∈ weaveOne s, k ∉ s.cur.strands → (s.strand 1 k).wait = .wconv) ∧
       ∃ k ∈ weaveOne s, (s.strand 1 k).key ≠ (s.strand 1 0).key) ∧
    (let s := two (fun st => { st with wait := .wconv })
     (∃ k ∈ weaveOne s, k ∉ s.cur.strands) ∧ (∀ k ∈ weaveOne s, k ∉ s.cur.strands → (s.strand 1 k).wait = .wconv) ∧
       ∀ k ∈ weaveOne s, (s.strand 1 k).key = (s.strand 1 0).key) ∧
    (let failed : State := { alone with sfrq := [(3, { (default : SfRecord) with crew := 1, strand := 0, launch := 1, cause := 2, va := 8 })] }
     ((two id).clear {} ∧ ¬ exitLast (two id)) ∧
     (exitLast alone ∧ exitDrained alone ∧ alone.crewRecord 1 = none ∧ alone.cur.strands ≠ [] ∧ ∀ k ∈ alone.cur.strands, k ∈ (alone.crew 1).keys) ∧
     ((having (fun st => { st with unacked0 := 1 })).clear {} ∧ exitLast (having (fun st => { st with unacked0 := 1 })) ∧
       ¬ exitDrained (having (fun st => { st with unacked0 := 1 }))) ∧
     (failed.clear {} ∧ exitLast failed ∧ exitDrained failed ∧ (failed.crewRecord 1).isSome = true ∧ failed.cur.strands = [0])) :=
  ⟨by decide, by decide, by decide, by decide, by decide, by decide, by decide, by decide⟩

/-- The last thread of the last registers, a strand that replays, and the guard that is never open. -/
theorem witness_RegisterRules :
    (31 < 32 ∧ (0xFFFFFFFF : Word).getLsbD 31 = true ∧ ∃ h : 63 < 64, Opnd.v 63 = .v ⟨63, h⟩) ∧ (∃ h : 7 < 8, Opnd.o 7 = .o ⟨7, h⟩) ∧
    (let st := alone.strand 1 0
     st.replaying = false ∧ mrGP (8 : Word) = 0 ∧ mrGS (8 : Word) = true) ∧
    ((having (fun st => { st with replaying := true, tmask := 3 })).strand 1 0).replaying = true :=
  ⟨⟨by decide, by decide, by decide, rfl⟩, ⟨by decide, rfl⟩, by decide, by decide⟩

/-- A loop that ends at the address with 2 and with 1 iterations left, and one that ends elsewhere; no loop that ends at the next word. -/
theorem witness_TransfersAndBackEdges :
    (let a : VAddr := 0x1008
     ((⟨0x1000, 0x1008, 2⟩ : LoopState).fin = a ∧ 1 < (⟨0x1000, 0x1008, 2⟩ : LoopState).remaining) ∧
     ((⟨0x1000, 0x1008, 1⟩ : LoopState).fin = a ∧ (⟨0x1000, 0x1008, 1⟩ : LoopState).remaining ≤ 1) ∧
     (⟨0x1000, 0x100C, 1⟩ : LoopState).fin ≠ a) ∧
    ∀ l ∈ ((having (fun st => { st with loops := [⟨0x1000, 0x1008, 2⟩] })).strand 1 0).loops, l.fin ≠ (alone.strand 1 0).pc + 4 := by decide

/-- A strand at level 1; one whose frame lies in no page; ERET to 0x1000 with an all-zero frame; a launch that has not ended. -/
theorem witness_TrapReturnAndDoubleTrap :
    (handling.strand 1 0).handler = true ∧ (alone.strand 1 0).handler = false ∧
    (let s := crewed (fun c => { c with savebase := 0x40000000 })
     s.xlateSave 1 (frameAddr (s.crew 1) 0) permW = .fault cTranslation) ∧
    0 ∈ (alone.crew 1).keys ∧ (alone.launchOf (alone.crew 1).launch).ending = 0 ∧
    (let s := having (fun st => { st with handler := true, tepc := 0x1000 })
     let l := s.crewLaunch (s.crew 1)
     s.cur.strands = [0] ∧ s.clear { priv := true } ∧ (s.strand 1 0).tepc.toNat % 4 = 0 ∧
     s.xlateSave 1 (frameAddr (s.crew 1) 0) permR = .ok 0x200400 ∧ nbits (leNat (((s.rdBytes 0x200400 48).drop 32).take 4)) 22 10 = 0 ∧
     s.xlateNow (s.crew 1).core l.part l.space (s.strand 1 0).tepc.toNat permX = .ok 0x1000 ∧ s.poisoned 0x1000 = false ∧
     s.inView l.part (devOf 0x1000) = true ∧ ∀ l ∈ (s.strand 1 0).loops, l.fin ≠ (s.strand 1 0).tepc.setWidth 57) := by decide

theorem witness_TrapsTaken :
    (alone.strand 1 0).handler = false ∧ alone.xlateSave 1 (frameAddr (alone.crew 1) 0) permW = .ok 0x200400 ∧
    alone.rangeFree 0x200400 48 = true ∧ alone.clear {} := by decide

theorem witness_PrivilegedAtUserLevel : ∀ k ∈ alone.cur.strands, (alone.strand alone.cur.crew k).handler = false := by decide

/-- The word in the last doubleword of the page; every size code at its least alignment; an acquire and a release. -/
theorem witness_LoadAndStoreIssues :
    (let f : FM := ⟨.v 60, 2, .v 0, 4, 3, 3⟩
     let s := withS 2 0x3FFFFFF0
     s.clear (ldUse f) ∧
     s.accessReady (ldUse f) f.z.val permR (fun a => tlbDom a.st a.c) (fun st => threadAddr st f.b.val f.i) (decide (f.o.val = 3))) ∧
    (let f : FM := ⟨.v 63, 2, .v 0, 0, 2, 0⟩
     let s := withS 2 0x3FFFFFFF
     s.clear (stUse f) ∧ ∀ k ∈ s.cur.strands, let a := s.at (stUse f) k; let v := threadAddr a.st f.b.val f.i
       misaligned a.st.active (zBytes f.z.val) v = none ∧ needsWalk a (domOf a.c.core) v = false ∧
       storeHold a f.o.val (okAddrs a (domOf a.c.core) permW v) = none) ∧
    (let f : FM := ⟨.s 5, 2, .v 0, 3, 0, 3⟩
     let s := withS 2 0x2000
     s.clear (stpUse f) ∧ s.sfrqCount (s.crew s.cur.crew).core < 64 ∧ ∀ k ∈ s.cur.strands, let a := s.at (stpUse f) k; let v := threadAddr a.st f.b.val f.i
       misaligned a.st.active (zBytes f.z.val) v = none ∧ postHold a f.o.val permW v = none) := by
  refine ⟨⟨by decide, ?_⟩, by decide, by decide⟩
  unfold State.accessReady; decide

theorem witness_AtomicsIssue :
    (let f : FMA := ⟨.v 63, 2, .v 0, 3, true⟩
     (withS 2 0x2004).atomReady f (atomUse f false) 2) ∧
    (let f : FMA := ⟨.v 62, 2, .v 0, 0, false⟩
     (withS 2 0x2004).atomReady f (atomUse f true) 2) ∧
    (let f : FMA := ⟨.v 62, 2, .v 0, 1, true⟩
     (withS 2 0x2008).atomReady f (atomwUse f 2) 3) ∧
    (let f : FMA := ⟨.v 60, 2, .v 0, 2, false⟩
     (withS 2 0x2008).atomReady f (atomwUse f 4) 3) ∧
    (let f : FMA := ⟨.v 56, 2, .v 0, 0, false⟩
     (withS 2 0x2010).atomReady f (atomwUse f 8) 4) := by
  refine ⟨?_, ?_, ?_, ?_, ?_⟩ <;> (unfold State.atomReady State.accessReady; refine ⟨by decide, by decide, by decide⟩)

/-- Thread `th` is the lowest active one whose address is no multiple of `n`. -/
abbrev lowestBad (s : State) (x : Use) (n th : Nat) (v : Strand → Nat → Word64) : Prop :=
  s.clear x ∧ ∀ k ∈ s.cur.strands,
    th < 32 ∧ (s.reading x k).active.getLsbD th = true ∧ (v (s.reading x k) th).toNat % n ≠ 0 ∧
    ∀ j < th, (s.reading x k).active.getLsbD j = true → (v (s.reading x k) j).toNat % n = 0

/-- Thread 31, the only active one, misaligned by 1; and thread 0, for the wider forms by half their size. -/
theorem witness_MisalignedAccessTraps :
    (let s := having (fun st => { st.setS 2 0x2001 with amask := 0x80000000 })
     let f : FM := ⟨.v 0, 2, .v 0, 1, 0, 0⟩
     let v := fun (st : Strand) => threadAddr st 2 (.v 0)
     lowestBad s (ldUse f) 2 31 v ∧ lowestBad s (stUse f) 2 31 v ∧ s.sfrqCount (s.crew 1).core < 64 ∧ lowestBad s (stpUse f) 2 31 v) ∧
    (let s := withS 2 0x2002
     let v := fun (st : Strand) => threadAddr st 2 (.v 1)
     lowestBad s (atomUse ⟨.v 0, 2, .v 1, 0, false⟩ false) 4 0 v ∧ lowestBad s (atomUse ⟨.v 2, 2, .v 1, 0, false⟩ true) 4 0 v ∧
     lowestBad s (atomwUse ⟨.v 2, 2, .v 1, 0, false⟩ 2) 8 0 v ∧ lowestBad s (atomwUse ⟨.v 4, 2, .v 1, 0, false⟩ 4) 8 0 v ∧
     lowestBad s (atomwUse ⟨.v 8, 2, .v 1, 0, false⟩ 8) 16 0 v) ∧
    (let s := withS 2 0x2001
     let f : FMz := ⟨.v 0, 2, .v 1, 4, 0⟩
     let v := fun (st : Strand) => threadAddr st 2 (.v 1)
     lowestBad s (ldaUse f) 16 0 v ∧ lowestBad s (staUse f) 16 0 v ∧ lowestBad s (fmzUse f) 16 0 v ∧
     lowestBad s (fmzUse f) 16 0 (fun st t => BitVec.ofInt 64 (stxOffset st 2 (.v 1) t)) ∧
     lowestBad s (atomaUse ⟨.v 0, 2, .v 1, 0⟩ false) 4 0 v ∧ lowestBad s (atomaUse ⟨.v 2, 2, .v 1, 0⟩ true) 4 0 v) ∧
    (let s := having (fun st => { st with o := [(0, 1)] })
     lowestBad s (fmzUse ⟨.v 0, 2, .o 0, 2, 0⟩) 4 0 (fun st t => BitVec.ofNat 64 (putOffset st (.o 0) t))) :=
  ⟨by decide, ⟨by decide, by decide, by decide, by decide, by decide⟩, ⟨by decide, by decide, by decide, by decide, by decide, by decide⟩, by decide⟩

/-- A write of strand 1 of the crew that has not performed at its home here. -/
def mateWrites (s : State) : State := { s with net := [(2, { (default : Req) with kind := .store, crew := 1, strand := 1, pa := 0x3000 })], nextId := 9 }

/-- Nothing outstanding at the widest scope; a write of the other strand not yet performed; a remote write before a narrow fence; a write outstanding; a
hint whose leaf can be read. -/
theorem witness_FencesAndHints :
    (alone.clear {} ∧ (∀ k ∈ alone.cur.strands, ordered alone alone.cur.crew k (6 : Fin 8).val = true) ∧ ∀ k ∈ alone.cur.strands, alone.crewClear {} k) ∧
    (let s := mateWrites (two id)
     s.clear {} ∧ (∀ k ∈ s.cur.strands, ordered s s.cur.crew k (3 : Fin 8).val = true) ∧ ∀ k ∈ s.cur.strands, ¬ s.crewClear {} k) ∧
    (let s : State := { alone with net := [(2, { (default : Req) with kind := .store, crew := 1, pa := 2 ^ 44 })] }
     s.clear {} ∧ ∀ k ∈ s.cur.strands, ordered s s.cur.crew k (2 : Fin 8).val = false) ∧
    (∀ k ∈ alone.cur.strands, (alone.strand alone.cur.crew k).unacked = 0) ∧
    (let s := having (fun st => { st with unacked0 := 1 })
     s.clear {} ∧ 3 ≤ (3 : Fin 8).val ∧ ∀ k ∈ s.cur.strands, (s.strand s.cur.crew k).unacked ≠ 0) ∧
    alone.clear { src := [.v 63], sr := [31] } ∧ alone.walked { src := [.v 63], sr := [31] } (fun st => threadAddr st 31 (.v 63)) ∧
    alone.clear { src := [.v 0, .v 63], sr := [31] } ∧
    (∀ k ∈ alone.cur.strands, let a := alone.at { src := [.v 0, .v 63], sr := [31] } k
      ∀ th < 32, a.st.active.getLsbD th = true → hintWalk a (threadAddr a.st 31 (.v 63) th) ≠ .busy) := by
  unfold State.walked State.crewClear
  exact ⟨by decide, by decide, by decide, by decide, by decide, by decide, by decide, by decide, by decide⟩

/-- A strand with an unacknowledged write behind a wide FENCE.REL, and its store, posted store, atomics, exchange store, put and multicast; a store to the
buffer after a narrow one with a remote write on its way. -/
theorem witness_FencesAndHints_fenced :
    (let s := having (fun st => { st.setS 2 0x2000 with unacked0 := 1, fence := 2 })
     let v := fun (st : Strand) => threadAddr st 2 (.v 0)
     (let f : FM := ⟨.v 63, 2, .v 0, 2, 0, 0⟩
      s.fencedAccess (stUse f) 4 v ∧ s.walked (stUse f) v ∧ s.fencedAccess (stpUse f) 4 v ∧ s.walked (stpUse f) v) ∧
     (s.sfrqCount (s.crew s.cur.crew).core < 64 ∧
      s.fencedAccess (atomUse ⟨.v 0, 2, .v 0, 3, false⟩ false) 4 v ∧ s.fencedAccess (atomUse ⟨.v 0, 2, .v 0, 3, false⟩ true) 4 v ∧
      s.fencedAccess (atomwUse ⟨.v 0, 2, .v 0, 3, false⟩ 8) 16 v ∧ s.walked (atomUse ⟨.v 0, 2, .v 0, 3, false⟩ false) v) ∧
     (let f : FMz := ⟨.v 63, 2, .v 0, 2, 0⟩
      s.fencedAccess (fmzUse f) 4 (fun st t => BitVec.ofInt 64 (stxOffset st 2 (.v 0) t)) ∧
      s.fencedAccess (fmzUse f) 4 (fun st t => BitVec.ofNat 64 (putOffset st (.v 0) t)) ∧ s.walked (fmzUse f) (fun st _ => st.sreg 2) ∧
      s.fencedAccess (fmzUse f) 4 v ∧ ∀ k ∈ s.cur.strands, ∀ t < 32, mstXl (s.at (fmzUse f) k) (threadAddr (s.reading (fmzUse f) k) 2 (.v 0) t) ≠ .miss)) ∧
    (let s : State := { having (fun st => { st.setS 2 0x20 with fence := 1 }) with net := [(2, { (default : Req) with kind := .store, crew := 1, pa := 2 ^ 44 })] }
     let f : FMz := ⟨.v 63, 2, .v 0, 2, 1⟩
     s.clear (staUse f) ∧ f.o.val < 2 ∧ ∀ k ∈ s.cur.strands, let st := s.reading (staUse f) k
       st.fence % 2 = 1 ∧ st.scHold = false ∧ ordered s s.cur.crew k 2 = false ∧
       misaligned st.active (zBytes f.z.val) (threadAddr st f.b.val f.i) = none) := by
  unfold State.walked State.fencedAccess
  exact ⟨⟨by decide, by decide, by decide⟩, by decide⟩

/-- The last word of the buffer, and the last 16 bytes; a byte range at the end of the view. -/
theorem witness_BufferAccessesAndAtomics :
    (let f : FMo := ⟨.v 63, 2, .v 0, 3⟩
     let s := withS 2 0xFFFC
     s.cur.strands = [0] ∧ s.bufferReady (atomaUse f false) 4 (fun st => threadAddr st f.b.val f.i) (decide (2 ≤ f.o.val)) true) ∧
    (let f : FMo := ⟨.v 62, 2, .v 0, 0⟩
     (withS 2 0).bufferReady (atomaUse f true) 4 (fun st => threadAddr st f.b.val f.i) (decide (2 ≤ f.o.val)) true) ∧
    (let f : FMz := ⟨.v 60, 2, .v 0, 4, 3⟩
     (withS 2 0xFFF0).bufferReady (ldaUse f) (zBytes f.z.val) (fun st => threadAddr st f.b.val f.i) (decide (f.o.val = 3)) false) ∧
    (let f : FMz := ⟨.s 31, 2, .v 0, 2, 2⟩
     (withS 2 0xFFFC).bufferReady (staUse f) (zBytes f.z.val) (fun st => threadAddr st f.b.val f.i) (decide (2 ≤ f.o.val)) true) ∧
    (let c := { alone.crew 1 with xwin := 0x1000 }
     0x10FFE + [1#8, 2#8].length ≤ c.view ∧ c.ab ≤ 0x10FFF ∧ 0x10FFF < c.view) := by
  unfold State.bufferReady; decide

/-- STX to rank 0 at the last byte of the window; PUTA; MST to group 127, whose one member is this device. -/
theorem witness_PostedStores :
    (let f : FMz := ⟨.v 63, 2, .v 0, 0, 2⟩
     let s := (recorded (fun r => { r with flags := 4, xwin := 0x1000 })).setStrand 1 0 ((alone.strand 1 0).setS 2 0xFFF)
     s.clear (fmzUse f) ∧ s.sfrqCount (s.crew s.cur.crew).core < 64 ∧ ∀ k ∈ s.cur.strands, let a := s.at (fmzUse f) k
       misaligned a.st.active (zBytes f.z.val) (fun t => BitVec.ofInt 64 (stxOffset a.st f.b.val f.i t)) = none ∧ putHold a f.o.val = none ∧
       a.st.active.getLsbD 31 = true ∧
       stxCause (s.crewLaunch a.c) (nbits (a.st.sreg f.b.val).toNat 48 16) (stxOffset a.st f.b.val f.i 31) (zBytes f.z.val) = 0) ∧
    (let f : FMz := ⟨.v 0, 2, .v 0, 4, 0⟩
     let s := withS 2 0x2000
     s.clear (fmzUse f) ∧ ∀ k ∈ s.cur.strands, let a := s.at (fmzUse f) k
       misaligned a.st.active (zBytes f.z.val) (fun t => BitVec.ofNat 64 (putOffset a.st f.i t)) = none ∧ putHold a f.o.val = none ∧
       postXl a permR (a.st.sreg f.b.val) = .ok 0x2000 ∧ devOf 0x2000 = s.dev) := by decide

theorem witness_PostedStores_multicast :
    (let f : FMz := ⟨.v 0, 2, .v 0, 3, 0⟩
     let s : State := { withS 2 0xFE00000000002000 with mgroup := [(mgroupKey 0 127 0, true)] }
     s.clear (fmzUse f) ∧ ∀ k ∈ s.cur.strands, let a := s.at (fmzUse f) k; let v := threadAddr a.st f.b.val f.i
       misaligned a.st.active (zBytes f.z.val) v = none ∧ putHold a f.o.val = none ∧
       mstXl a (v 31) ≠ .busy ∧ mstXl a (v 31) ≠ .miss ∧ mstXl a (v 31) = .ok 0x2000 ∧ s.members (s.crewLaunch a.c).part (mstGroup (v 31)) = [0]) := by decide
/-- A resident weir 5 of the placed crew's group with an expectation of one arrival. -/
def weired (w : Weir) (st : Strand → Strand := fun st => st.setS 2 5) : State :=
  { having st with weirs := [(weirKey 0 0x800000 5, w)] }
/-- A resident entry that expects one arrival, at phase 0. -/
def aWeir : Weir := { (default : Weir) with state := 1, ea := 1 }

/-- Both expectations, and one; an entry that is there; a phase that has passed and one that has not. -/
theorem witness_Weirs :
    (({ aWeir with eb := 1 } : Weir).ea ≠ 0 ∨ ({ aWeir with eb := 1 } : Weir).eb ≠ 0) ∧
    (let s := weired aWeir (fun st => (st.setS 2 5).setS 3 1)
     s.cur.strands = [0] ∧ s.clear { sr := [2, 3, 4] } ∧ (((s.reading { sr := [2, 3, 4] } 0).sreg 3).setWidth 32 ≠ (0 : Word)) ∧
     s.clear { sr := [2, 3], sw := [31] } ∧ s.released { sr := [2, 3], sw := [31] } 0 ∧ s.clear { sr := [2, 3] } ∧ s.clear { sr := [2] } ∧
     s.weirThere (s.reading { sr := [2, 3] } 0) 2 ∧ s.weirMade (s.reading { sr := [2, 3, 4] } 0) 2 ∧ nbits ((s.reading { sr := [2, 3, 4] } 0).sreg 2).toNat 0 16 ≠ 0 ∧
     (mget s.weirs (s.crewWeir (s.crew 1) (nbits ((s.reading { sr := [2, 3, 4] } 0).sreg 2).toNat 0 16))).state = 1) ∧
    (let s := weired { aWeir with ph := 1 }
     phasePassed (mget s.weirs (s.crewWeir (s.crew 1) 5)).ph ((((s.reading { sr := [2, 3] } 0).sreg 3).setWidth 32)) = true) ∧
    (let s := weired aWeir
     phasePassed (mget s.weirs (s.crewWeir (s.crew 1) 5)).ph ((((s.reading { sr := [2, 3] } 0).sreg 3).setWidth 32)) = false) := by
  unfold State.weirThere State.weirMade State.released State.crewClear; decide

/-- The ids 0, one that is spilled and one that is absent, for which WINIT has room. -/
theorem witness_Weirs_traps :
    nbits (((withS 2 0x70000).strand 1 0).sreg 2).toNat 0 16 = 0 ∧
    (let s := weired { aWeir with state := 2 }
     nbits ((s.strand 1 0).sreg 2).toNat 0 16 ≠ 0 ∧ (mget s.weirs (s.weirOf (s.strand 1 0) 2)).state = 2) ∧
    (let s := withS 2 5
     nbits ((s.strand 1 0).sreg 2).toNat 0 16 ≠ 0 ∧ (mget s.weirs (s.weirOf (s.strand 1 0) 2)).state = 0 ∧ s.weirMade (s.strand 1 0) 2) := by
  unfold State.weirMade; decide

/-- The same id in a table of 4,096 entries of other groups. -/
theorem witness_Weirs_full :
    let s : State := { withS 2 5 with weirs := (List.range 4096).map (fun i => (weirKey 0 (0x800001 + i) 5, aWeir)) }
    (mget s.weirs (s.weirOf (s.strand 1 0) 2)).state = 0 ∧ 4096 ≤ (s.weirsOf (weirDom 5)).length := by decide +kernel

/-- The last of two strands, and the first; XSWAP with the bytes counted, and one byte short of them. -/
theorem witness_Barriers :
    (let s := (two id).setCrew 1 { (two id).crew 1 with cbar := [(1, true)] }
     s.cur.strands = [0] ∧ s.clear {} ∧ ordered s 1 0 2 = true ∧ mget (s.crew 1).passed 0 = false ∧
     ∀ j ∈ (s.crew 1).keys, j ≠ 0 → ((s.crew 1).st j).live ≠ 0 → mget (s.crew 1).cbar j = true) ∧
    (let s := two id
     ∃ j ∈ (s.crew 1).keys, j ≠ 0 ∧ ((s.crew 1).st j).live ≠ 0 ∧ mget (s.crew 1).cbar j = false) ∧
    (let s := ((recorded (fun r => { r with flags := 4 })).setCrew 1 { (withS 2 7).crew 1 with cx := 7 })
     let st := s.reading { sr := [2] } 0
     s.clear { sr := [2] } ∧ nbit (s.crewLaunch (s.crew 1)).record.flags 2 = true ∧
     (∀ j ∈ (s.crew 1).keys, j ≠ 0 → ((s.crew 1).st j).live ≠ 0 → mget (s.crew 1).xarr j = true) ∧
     (s.crew 1).xgreatest (mset (s.crew 1).xmax 0 (nbits (st.sreg 2).toNat 0 48)) ≤ (s.crew 1).cx) ∧
    (let s := ((recorded (fun r => { r with flags := 4 })).setCrew 1 { (withS 2 7).crew 1 with cx := 6 })
     (s.crew 1).cx < (s.crew 1).xgreatest (mset (s.crew 1).xmax 0 (nbits ((s.reading { sr := [2] } 0).sreg 2).toNat 0 48))) := by decide

/-- A value and a live future; the last signal counter as a selector, reached and not reached; the first join. -/
theorem witness_FutureInstructions :
    alone.clear { sr := [31], sw := [0] } ∧ ((31 : Fin 32) ≠ 0 ∧
      (having (fun st => st.setFut 31 (mkHandle 1 0 1))).clear { sw := [0, 31] }) ∧
    (let s := withS 2 0x3FC5
     s.clear { sw := [31], nm := [2] } ∧ (∀ k ∈ s.cur.strands, selectorOk ((s.strand s.cur.crew k).sreg 2) true = true) ∧ s.clear { nm := [2, 3] } ∧
     (∀ k ∈ s.cur.strands, ((s.strand s.cur.crew k).sreg 3).toNat ≤ s.timelineOf (s.crew s.cur.crew).core ((s.strand s.cur.crew k).sreg 2))) ∧
    (let s := having (fun st => (st.setS 2 0x3F05).setS 3 1)
     ∀ k ∈ s.cur.strands, selectorOk ((s.strand s.cur.crew k).sreg 2) false = true ∧ (s.strand s.cur.crew k).isFut 3 = false ∧
       s.timelineOf (s.crew s.cur.crew).core ((s.strand s.cur.crew k).sreg 2) < ((s.strand s.cur.crew k).sreg 3).toNat) ∧
    (alone.clear { sw := [31], nm := [0, 1] } ∧ alone.clear { nm := [31] } ∧
      ∀ k ∈ alone.cur.strands, freeJoin (alone.strand alone.cur.crew k) 31 = some 0) := by decide

/-- An engine operation at an aligned and a misaligned address; a launch record in the last bytes of the page, one that is misaligned, and the same with
the queue's last entry free. -/
theorem witness_ListsAndLaunches :
    alone.cur.strands = [0] ∧
    (let us : Use := { sr := [2, 3], sw := [31] }
     (withS 2 0x2020).engineReady us 0 3 0 ∧ (((withS 2 0x2020).reading us 0).sreg 2).toNat % 32 = 0 ∧
     (withS 2 0x2021).engineReady us 0 3 0 ∧ (((withS 2 0x2021).reading us 0).sreg 2).toNat % 32 ≠ 0) ∧
    (alone.clear { sr := [31, 0] } ∧ alone.released { sr := [31, 0] } 0) ∧
    (let s := withS 2 0x3FFFFF00
     let us : Use := { sr := [2], sw := [31] }
     s.engineReady us 0 4 0 ∧ s.dlqCount 0 < 256 ∧ ((s.reading us 0).sreg 2).toNat % 64 = 0 ∧ launchPages 2 (s.at us 0) = []) ∧
    (let us : Use := { sr := [2], sw := [31] }
     (withS 2 0x3FFFFF01).engineReady us 0 4 0 ∧ (((withS 2 0x3FFFFF01).reading us 0).sreg 2).toNat % 64 ≠ 0) ∧
    alone.clear { sw := [0] } := by
  unfold State.engineReady State.released State.crewClear
  exact ⟨by decide, ⟨by decide, by decide, by decide, by decide⟩, by decide, by decide, by decide, by decide⟩

/-- A launch record of 256 zero bytes at 0x2000, as LAUNCH reads it; one in a page that may not be read. -/
theorem witness_ListsAndLaunches_record :
    alone.rdVirt 0 0 0 0x2000 256 = .ok (List.replicate 256 0) ∧
    (let s : State := { withS 2 0x2000 with tlb := [page0 2 2, page0 0 2] }
     let us : Use := { sr := [2], sw := [31] }
     s.engineReady us 0 4 0 ∧ launchPages 2 (s.at us 0) = [] ∧ s.rdVirt 0 0 0 0x2000 256 = .fault cProtection 0) := by
  unfold State.engineReady State.released State.crewClear
  exact ⟨by decide +kernel, by decide, by decide, by decide +kernel⟩

/-- The last tile of the allocation, and operands at the end of the view. -/
theorem witness_TileInstructions :
    alone.weaveReady (tileUse 7) [.tile 7, .tileRead 7] ∧
    (withS 2 0x0000FE000000E000).weaveReady (tileAbUse 7 2) [.tile 7, .tileRead 7, .bytes 0xE000 8192, .bytes 0xFE00 512] ∧
    alone.weaveReady (tmovUse ⟨.v 63, 0, true, 31, 15⟩) [.tile 0, .tileRead 0] ∧
    alone.weaveReady (tmovwUse ⟨.v 60, 0, false, 31, 15⟩) [.tile 0, .tileRead 0] ∧
    alone.weaveReady { src := [.v 0], bad := tileBad 7, weave := true, sr := [31] } [.tile 7, .tileRead 7] := by
  unfold State.weaveReady; decide

/-- Operands of TLD and TST at the end of the view. -/
theorem witness_TileInstructions_bounds :
    (let s := withS 2 0x0000FE000000E000
     let x := tileAbUse 7 2
     let d := nbits ((s.lead x).sreg 2).toNat 0 21
     let e := nbits ((s.lead x).sreg 2).toNat 32 21
     d % 64 = 0 ∧ e % 64 = 0 ∧ d + 8192 ≤ (s.crew s.cur.crew).ab + (s.crew s.cur.crew).xwin ∧
     e + 512 ≤ (s.crew s.cur.crew).ab + (s.crew s.cur.crew).xwin) := by decide

/-- Two accumulators, of which the second is ranked. -/
def ranked : State := crewed (fun c => { c with accs := 4, form := [(3, ⟨true, 16, 0⟩)] })

theorem witness_AccumulatorInstructions :
    ranked.weaveReady (accUse 3) [.acc 3 true] ∧
    (let x : Use := { bad := accBad 3, weave := true, sr := [31] }
     let s := ranked.setStrand 1 0 ((ranked.strand 1 0).setS 31 0xFFFFFFFF00000120)
     s.weaveReady x [.acc 3 true] ∧ arankFields ((s.lead x).sreg 31) ((s.crew 1).accForm 3).ranked = some (0xFFFFFFFF, true, 32)) ∧
    ((0 : Fin 4) ≠ 3 ∧ ((ranked.crew 1).accForm 3).ranked = true ∧ ((ranked.crew 1).accForm 0).ranked = false) ∧
    ranked.weaveReady { out := [.v 63], sr := [31], bad := accBad 0, weave := true } [.acc 0 true] ∧
    ranked.weaveReady { grp := [(.v 60, 4)], sr := [31], bad := accBad 0, weave := true } [.acc 0 true] ∧
    ranked.weaveReady { out := [.v 63], bad := accBad 3, weave := true } [.acc 3 false] ∧
    ranked.weaveReady { grp := [(.v 62, 2)], sr := [31], bad := accBad 3, weave := true } [.acc 3 false] := by
  unfold State.weaveReady
  refine ⟨by decide, by decide, by decide, by decide, by decide, by decide, by decide⟩

theorem witness_CopyAndMatrixIssues :
    (alone.cur.strands = [0] ∧ alone.engineReady { sr := [2, 3, 4], sw := [31] } 0 1 (alone.crew alone.cur.crew).core) ∧
    (let f : FX := ⟨0, 7, 2, 1, 2, 31, true, false, true⟩
     let s := recorded (fun r => { r with cistern := 8, slot := [(1, 1), (2, 2)] })
     s.matrixReady (mmaUse f) [.tile 7] ∧
     nbits ((s.lead (mmaUse f)).sreg 2).toNat 0 32 + (if f.w then 8 else 4) ≤ (s.crewLaunch (s.crew s.cur.crew)).record.cistern) ∧
    (let f : FX := ⟨0, 7, 2, 1, 2, 31, true, false, true⟩
     let s := recorded (fun r => { r with cistern := 7, slot := [(1, 1), (2, 2)] })
     s.clear (mmaUse f) ∧ s.cur.strands ≠ [] ∧
     (s.crewLaunch (s.crew s.cur.crew)).record.cistern < nbits ((s.lead (mmaUse f)).sreg 2).toNat 0 32 + (if f.w then 8 else 4)) ∧
    alone.matrixReady (commitUse (.s 31) 0 2) [.fold 0] := by
  unfold State.engineReady State.matrixReady State.weaveReady State.released State.crewClear
  refine ⟨by decide, ⟨by decide, by decide⟩, by decide, by decide⟩

/-- Level 1; weir 5 resident with room, with a full table of spilled ids, and absent; its record at a good and at a misaligned address; WFILL of a
zero record whose id is not spilled, and of one that is. -/
def spilling (w : Weir) (rec : Word64) : State :=
  { weired w (fun st => { (st.setS 2 0x8000000005).setS 3 rec with handler := true }) with cur := ⟨1, 0, [0]⟩ }

theorem witness_PrivilegedInstructions :
    handling.clear { priv := true, sin := [.s 0], bad := fun _ _ => decide (12 < 12) } ∧
    handling.clear { priv := true, sout := [.s 31], bad := fun _ _ => decide (12 < 12) } ∧ handling.cur.strands = [0] ∧
    handling.clear { priv := true } ∧ (∀ j ∈ (handling.crew 1).keys, j ∈ termKeys (handling.crew 1) 0 2) ∧
    (handling.crewLaunch (handling.crew 1)).ending = 0 ∧
    (let us : Use := { priv := true, sin := [.s 2, .s 3] }
     handling.clear us ∧ (handling.strand 1 0).unacked = 0 ∧ ((handling.reading us 0).sreg 3).toNat ≤ 1) ∧
    ((30 : Fin 32).val % 2 = 0 ∧ (30 : Fin 32).val ≠ 0 ∧
     handling.clear { priv := true, sout := [.s 30], sw := [31], bad := fun _ _ => decide (30 % 2 = 1) || decide (30 = 0) } ∧
     handling.oldestRecord 1 0 = none) ∧
    (let e : SfRecord := { (default : SfRecord) with crew := 1, strand := 0, launch := 1, cause := 2, va := 8 }
     ({ handling with sfrq := [(3, e)] } : State).oldestRecord 1 0 = some (3, e)) := by
  refine ⟨by decide, by decide, by decide, by decide, by decide, by decide, by decide, by decide, by decide⟩

/-- The write has been made. -/
def wrote : WrRes → Bool
  | .ok _ => true
  | _ => false

theorem wrote_ok {x : WrRes} (h : wrote x = true) : ∃ s, x = .ok s := by
  cases x <;> first | exact ⟨_, rfl⟩ | cases h

theorem witness_PrivilegedInstructions_spill :
    (let us : Use := { priv := true, sout := [.s 31], sin := [.s 2, .s 3] }
     let s := spilling aWeir 0x2020
     s.clear us ∧ (mget s.weirs (weirKey 0 (nbits ((s.reading us 0).sreg 2).toNat 16 24) (nbits ((s.reading us 0).sreg 2).toNat 0 16))).state = 1 ∧
     s.spilledOf (weirDom 5) < 1024 ∧ ((s.reading us 0).sreg 3).toNat % 32 = 0) ∧
    (∃ s1, (spilling aWeir 0x2020).wrVirt 0 0 0 0x2020 (spillBytes aWeir 0x800000 5) = .ok s1) ∧
    (mget (spilling default 0).weirs (weirKey 0 0x800000 5)).state ≠ 1 ∧
    (((spilling aWeir 0x2021).reading { priv := true, sout := [.s 31], sin := [.s 2, .s 3] } 0).sreg 3).toNat % 32 ≠ 0 := by
  refine ⟨by decide, wrote_ok (by decide +kernel), by decide, by decide⟩

theorem witness_PrivilegedInstructions_fill :
    (let us : Use := { priv := true, sout := [.s 31], sin := [.s 3] }
     let s := spilling { (default : Weir) with state := 2 } 0x2020
     s.clear us ∧ ((s.reading us 0).sreg 3).toNat % 32 = 0 ∧ (mget s.weirs (weirKey 0 0x800000 5)).state = 2 ∧
     (s.weirsOf (weirDom 5)).length < 4096) ∧
    (alone.rdVirt 0 0 0 0x2020 32 = .ok (List.replicate 32 0)) ∧
    spillFields (List.replicate 32 0xFF) = none ∧
    spillFields (spillBytes aWeir 0x800000 5) = some (5, 0x800000, { aWeir with changed := 0 }) := by
  refine ⟨by decide, by decide +kernel, by decide, by decide⟩

theorem alone_tidy : alone.Tidy := by unfold State.Tidy; decide

/-- No strand of the two has a YIELD or WAIT that is over. -/
theorem two_unripe : ∀ i, ¬ (two id).ripe 1 i := by
  rintro i ⟨_, _, hk, h⟩
  have e : ((two id).crew 1).liveKeys = [0, 1] := by decide
  rw [e] at hk
  have w : ∀ j ∈ [0, 1], ((two id).strand 1 j).wait = .ready := by decide
  rw [w i hk] at h
  rcases h with ⟨p, h, _⟩ | ⟨p, h, _⟩ <;> cases h

/-- Two strands of one weave with equal keys that regang; a YIELD and a WAIT that are over at the next period, and before it; a strand at level 1;
a pending trap; a TLD and an ARFOLD that are over. -/
theorem witness_PeriodsAndStrandSteps :
    (alone.Tidy ∧ alone.quiet) ∧
    (let s := two id
     0 < (s.crew 1).weaves ∧ weaveOf 0 = 0 ∧ weaveOf 1 = 0 ∧ s.merges 1 0 ∧ s.merges 1 1 ∧ (s.strand 1 0).key = (s.strand 1 1).key) ∧
    (let s := { having (fun st => { st with wait := .yielded 3 }) with time := 48 }
     (s.crew 1).resident = true ∧ (s.crew 1).preempt = 0 ∧ 0 ∈ (s.crew 1).liveKeys ∧ (s.strand 1 0).wait = .yielded 3 ∧ 3 ≤ s.time / 16 ∧
     3 ≤ s.time / 16 + 1) ∧
    (let s := { having (fun st => { st with wait := .yielded 3 }) with time := 47 }
     (s.strand 1 0).wait = .yielded 3 ∧ s.time / 16 < 3) ∧
    (let s := { having (fun st => { st with wait := .deadline 3 }) with time := 24 }
     (s.crew 1).resident = true ∧ 0 ∈ (s.crew 1).liveKeys ∧ (s.strand 1 0).wait = .deadline 3 ∧ 3 ≤ s.time / 8 ∧ 3 ≤ (s.time + 16) / 8) ∧
    (let s := { having (fun st => { st with wait := .deadline 3 }) with time := 23 }
     (s.strand 1 0).wait = .deadline 3 ∧ s.time / 8 < 3) ∧
    ((handling.crew 1).resident = true ∧ 0 ∈ (handling.crew 1).liveKeys ∧ weaveOf 0 < (handling.crew 1).weaves ∧ (handling.strand 1 0).handler = true) ∧
    ((having (fun st => { st with pending := some (default : Trap) })).strand 1 0).pending = some default ∧
    (let s := crewed (fun c => { c with tileBusy := [(7, { (default : TileUse) with kind := 1 })] })
     (mget (s.crew 1).tileBusy 7).kind ≠ 0 ∧ (mget (s.crew 1).tileBusy 7).due ≤ s.time) ∧
    (let s := { crewed (fun c => { c with foldBusy := [(0, 16)] }) with time := 16 }
     mget (s.crew 1).foldBusy 0 ≠ 0 ∧ mget (s.crew 1).foldBusy 0 ≤ s.time) := by
  unfold State.merges State.quiet
  refine ⟨⟨alone_tidy, by decide⟩, by decide, by decide, by decide, by decide, by decide, by decide, by decide, by decide, by decide⟩

/-- A request of the placed strand for the first bytes of the line at 0x2000, one line of this device. -/
def aReq (k : ReqKind) (size : Nat) : Req :=
  { (default : Req) with
    kind := k, crew := 1, pa := 0x2000, left := true
    accs := [{ (default : Access) with size := size, data := 0x1234 }] }
/-- An access of 16 bytes, which performs half by half. -/
def wide (k : ReqKind) (half : Bool) : Req := { aReq k 16 with z := 4, half := half, vals := [(0, 5)] }
/-- With that request on its way to its home. -/
def sent (r : Req) : State := { alone with net := [(5, r)] }

theorem witness_HomeSteps :
    ((aReq .load 4).kind = .load ∧ (sent (aReq .load 4)).homeFree 5 (aReq .load 4) ∧ (sent (aReq .load 4)).writeWaits 0x2000 = false ∧
      (aReq .load 4).splits = false) ∧
    ((sent (wide .load false)).homeFree 5 (wide .load false) ∧ (wide .load false).splits = true ∧ (wide .load false).half = false) ∧
    ((sent (wide .load true)).homeFree 5 (wide .load true) ∧ (wide .load true).half = true) ∧
    ((sent (wide .store false)).homeFree 5 (wide .store false) ∧ (sent (wide .store false)).leaseFree 0x2000 = true) ∧
    ((sent (wide .store true)).homeFree 5 (wide .store true)) ∧
    (let s : State := { sent (aReq (.atomic 0) 4) with lease := [(0x2000, 1)] }
     s.homeFree 5 (aReq (.atomic 0) 4) ∧ s.leaseFree 0x2000 = false ∧ atomFn 0 (leNat (mgetList s.mem 0x2000 4)) 0x1234 0 ≠ leNat (mgetList s.mem 0x2000 4)) ∧
    ({ sent (aReq .load 4) with poison := [(0x2000, true)] } : State).poisoned 0x2000 = true ∧
    ((sent (aReq .store 16)).homeFree 5 (aReq .store 16) ∧ (sent (aReq .store 16)).leaseFree 0x2000 = true) ∧
    ({ sent (aReq .store 16) with lease := [(0x2000, 1)] } : State).leaseFree 0x2000 = false ∧
    (sent (aReq (.atomic 0) 4)).homeFree 5 (aReq (.atomic 0) 4) ∧ (sent (aReq (.atomicW 5) 16)).homeFree 5 (aReq (.atomicW 5) 16) ∧
    (let s : State := { alone with home := [(5, aReq .store 4)], lease := [(0x2000, 1)], time := 8 }
     s.Tidy ∧ s.leaseFree 0x2000 = true ∧ s.waitingAt (lineOf 0x2000) = [(5, aReq .store 4)] ∧ s.poisoned (lineOf 0x2000) = false ∧
     (aReq .store 4).splits = false) := by
  unfold State.homeFree State.Tidy
  refine ⟨by decide, by decide, by decide, by decide, by decide, by decide, by decide, by decide, by decide, by decide, by decide, by decide⟩

/-- The last reply, one of two, a last one that failed; an acknowledgement, a failed one, one whose sender has gone, one of an MST of which another copy
is on its way. -/
theorem witness_Replies :
    (let r := aReq .load 4
     let s := { having (fun st => { st with wait := .reply, mem := { (default : MemOp) with live := true, left := 1, z := 2 } }) with back := [(5, r)] }
     r.readyAt ≤ s.time ∧ r.dropped = false ∧ (s.strand 1 0).mem.live = true ∧ (s.strand 1 0).mem.left = 1 ∧ (s.strand 1 0).mem.faults = 0 ∧
     r.fail = 0 ∧ mget s.back 5 = r ∧ ({ r with fail := 3 } : Req).fail ≠ 0 ∧ (0 : Nat) < 32) ∧
    (let s := having (fun st => { st with wait := .reply, mem := { (default : MemOp) with live := true, left := 2 } })
     1 < (s.strand 1 0).mem.left) ∧
    (let r := aReq .store 4
     r.kind = .store ∧ devOf r.pa = alone.dev ∧ r.dropped = false ∧ r.tag = false ∧ r.tags = [] ∧ r.fail = 0 ∧ alone.replyHeld r = false ∧
     (alone.strand 1 0).ended = false ∧ ((having (fun st => { st with ended := true })).strand 1 0).ended = true ∧ alone.sfrqCount r.core < 64 ∧ ({ r with dropped := true } : Req).dropped = true) ∧
    (let r := { aReq .store 4 with mst := 4 }
     let s : State := { alone with back := [(5, r)], net := [(6, r)] }
     (mget s.back 5).mst ≠ 0 ∧ (mget s.back 5).noted = false ∧ s.replyHeld r = false ∧ ∃ e ∈ s.net, e.2.mst = r.mst ∧ e.2.dev = s.dev) := by
  decide

/-- The tables of space 0 of partition 0: a 1 GiB page of this device at address 0. -/
def paged : State :=
  { alone with
    asroot := [(0, 0x3F010001)]
    mem := msetList (msetList (msetList alone.mem 0x3F010000 (leBytes 8 0x3F011001)) 0x3F011000 (leBytes 8 0x3F012001)) 0x3F012000
      (leBytes 8 0x1F) }

/-- Its tables with a descriptor at 0x20000: rows of 16 bytes at 0x40000, CAP `cap`, one token whose map entry is `e`. -/
def putState (cap e : Nat) (once : Bool := false) : State :=
  { paged with
    mem := msetList (msetList paged.mem 0x20000 (leBytes 8 0x40000 ++ leBytes 8 0x30000 ++ leBytes 4 cap ++ leBytes 4 1 ++ leBytes 2 16))
      0x30000 (leBytes 4 e)
    net := [(5, { aReq (.put once) 16 with pa := 0x20000, hint := 1 })] }
/-- That descriptor. -/
def aDesc (cap : Nat) : PutDesc := { base := 0x40000, map := 0x30000, cap := cap, ntok := 1, row := 16, weir := 0, part := 0, space := 0,
                                     count := 0, refused := 0, dups := 0, group := 0 }
/-- The put of that state, and its one access. -/
def aPut (once : Bool := false) : Req := { aReq (.put once) 16 with pa := 0x20000, hint := 1 }
def putBytes : Access := { (default : Access) with size := 16, data := 0x1234 }

theorem putReady (cap e : Nat) (once : Bool) (h : (cap, e, once) ∈ [(1, 0xFFFFFFFF, false), (0, 0xFFFFFFFF, false), (1, 0xFFFFFFFE, false), (1, 0, false), (1, 0, true)]) :
    PutReady (putState cap e once) 5 once (aPut once) putBytes (aDesc cap) 0x30000 ∧ (putState cap e once).rdNat 0x30000 4 = e := by
  simp only [List.mem_cons, Prod.mk.injEq, List.not_mem_nil, or_false] at h
  rcases h with ⟨rfl, rfl, rfl⟩ | ⟨rfl, rfl, rfl⟩ | ⟨rfl, rfl, rfl⟩ | ⟨rfl, rfl, rfl⟩ | ⟨rfl, rfl, rfl⟩ <;>
  exact ⟨{ request := by decide, first := by decide, here := .inr (by decide +kernel)
           desc := ⟨by decide +kernel, ⟨0x40000, by decide +kernel⟩, ⟨0x30000, by decide +kernel⟩, by decide +kernel⟩
           mine := by decide, bounds := by decide, entry := by decide +kernel }, by decide +kernel⟩

/-- The row of a put to an entry that names it. -/
theorem putRow_named : RowReady ((putState 1 0).unqueue (putToken_ 5) (fun _ => true)) 5 aPut putBytes (aDesc 1) 0 0x40000 :=
  { desc := ⟨by decide +kernel, ⟨0x40000, by decide +kernel⟩, ⟨0x30000, by decide +kernel⟩, by decide +kernel⟩
    place := by decide +kernel, free := by decide +kernel }

/-- The row of a first put, once it is claimed. -/
theorem putRow_claimed :
    RowReady ((putState 1 0xFFFFFFFF).rowClaimed 5 aPut (aDesc 1) 0x30000) 5 aPut putBytes { aDesc 1 with count := 0 + 1 } 0 0x40000 :=
  { desc := ⟨by decide +kernel, ⟨0x40000, by decide +kernel⟩, ⟨0x30000, by decide +kernel⟩, by decide +kernel⟩
    place := by decide +kernel, free := by decide +kernel }

/-- A put that takes the last row, one that finds none, one that is refused again, one to its row and one that is made once; an exchange store to a
crew, to a lost crew and to one that is still to come. -/
theorem witness_PutsAndExchangeStores :
    PutReady (putState 1 0xFFFFFFFF) 5 false aPut putBytes (aDesc 1) 0x30000 ∧ (aDesc 1).count < (aDesc 1).cap ∧ (aDesc 1).weir = 0 ∧
    (putState 1 0xFFFFFFFF).mayWriteBy (putToken_ 5) (lineOf aPut.pa :: linesOf 0x30000 4) = true ∧
    RowReady ((putState 1 0xFFFFFFFF).rowClaimed 5 aPut (aDesc 1) 0x30000) 5 aPut putBytes { aDesc 1 with count := 0 + 1 } 0 0x40000 ∧
    PutReady (putState 0 0xFFFFFFFF) 5 false aPut putBytes (aDesc 0) 0x30000 ∧ (aDesc 0).cap ≤ (aDesc 0).count ∧
    (PutReady (putState 1 0xFFFFFFFE) 5 false aPut putBytes (aDesc 1) 0x30000 ∧ (putState 1 0xFFFFFFFE).rdNat 0x30000 4 = 0xFFFFFFFE) ∧
    (PutReady (putState 1 0) 5 false aPut putBytes (aDesc 1) 0x30000 ∧ (putState 1 0).rdNat 0x30000 4 < (aDesc 1).cap ∧
      RowReady ((putState 1 0).unqueue (putToken_ 5) (fun _ => true)) 5 aPut putBytes (aDesc 1) 0 0x40000) ∧
    (PutReady (putState 1 0 true) 5 true (aPut true) putBytes (aDesc 1) 0x30000 ∧
      (putState 1 0 true).mayWriteBy (putToken_ 5) [lineOf (aPut true).pa] = true) ∧
    (let s := { recorded (fun r => { r with flags := 4 }) with net := [(5, { aReq (.stx 0) 4 with x := 1 })] }
     s.bridgeDown = false ∧ (∀ e ∈ s.net, e.1 < 5 → ¬(e.2.crew = 1 ∧ e.2.strand = 0 ∧ e.2.kind = .stx 0)) ∧ s.crewOfRank 1 0 = some 1 ∧
     s.crewOfRank 1 1 = none ∧ s.rankComes 1 1 = true ∧ s.crewOfRank 2 0 = none ∧ s.rankComes 2 0 = false) :=
  ⟨(putReady 1 _ false (by decide)).1, by decide, by decide, by decide +kernel, putRow_claimed, (putReady 0 0xFFFFFFFF false (by decide)).1, by decide,
   putReady 1 _ false (by decide), ⟨(putReady 1 0 false (by decide)).1, by decide +kernel, putRow_named⟩,
   ⟨(putReady 1 0 true (by decide)).1, by decide +kernel⟩, by decide +kernel⟩

/-- A copy of the placed crew with a handle of its core's context. -/
def aCopy (a b c : Word64) (started : Bool) : Op :=
  { (default : Op) with kind := .copy 0, crew := 1, launchId := 1, a := a, b := b, c := c, started := started }
/-- The state with an operation, in a period whose weaves have tried to issue. -/
def withOp (op : Op) (s : State := alone) : State := { s with ops := [(2 ^ 60 + 1, op)], issueQ := [] }

/-- A shape record (R258). -/
def aShape (addr aux rows rowb gstride : Nat) : List Byte :=
  leBytes 8 addr ++ leBytes 8 aux ++ leBytes 4 rows ++ leBytes 4 rowb ++ leBytes 4 gstride ++ leBytes 4 0
/-- A copy of function `fn` that has started, of `n` bytes with a shape, its first `u` units done. -/
def shaped (fn n u : Nat) (b : Word64) (l : List Byte) : Op :=
  { aCopy 0x8000 b (BitVec.ofNat 64 (2 ^ 48 + n)) true with kind := .copy fn, shape := l, units := (List.range u).map (fun v => (v, true)) }

/-- A copy not yet started with a bad word, a misaligned address, no bytes, and 4 bytes; with a shape record that can and one that cannot be read. -/
theorem witness_CopySteps :
    2 ^ 60 + 1 < 2 ^ 64 ∧ (alone.crew 1).resident = true ∧ (alone.crew 1).suspends = false ∧
    (∀ e ∈ (withOp (aCopy 0 0 4 false)).earlierOps (2 ^ 60 + 1), e.2.started = true) ∧
    copyWordBad 0 (aCopy 0 0 0x2000000000004 false) = true ∧
    (copyWordBad 0 (aCopy 2 0 4 false) = false ∧ copyShaped 4 = false ∧ alone.copyWeirBad (aCopy 2 0 4 false) = false ∧
      (aCopy 2 0 4 false).a.toNat % 4 ≠ 0) ∧
    ((flatShape 0 (aCopy 0x2000 0xFFFC 4 false)).bad false 4 (alone.crew 1).view 0 = false ∧ copyBytes 0 = 0 ∧ 0 < copyBytes 4) ∧
    (let op := aCopy 0x8000 0xFFFC 0x1000000000004 false
     let s := withOp op
     copyWordBad 0 op = false ∧ copyShaped op.c = true ∧ s.pagesWalked (2 ^ 60 + 1) op [(op.a.toNat, 32)] ∧
     s.wayOpen op.core (s.virtLines op.core op.part op.space op.a.toNat 32 permR) = true ∧
     s.rdVirt op.core op.part op.space op.a.toNat 32 = .ok (List.replicate 32 0)) ∧
    (let op := aCopy 0x8000 0xFFFC 0x1000000000004 false
     let s : State := { withOp op with tlb := [page0 0 2] }
     s.pagesWalked (2 ^ 60 + 1) op [(op.a.toNat, 32)] ∧ s.rdVirt op.core op.part op.space op.a.toNat 32 = .fault cProtection 0) := by
  unfold State.pagesWalked
  refine ⟨by decide, by decide, by decide, by decide, by decide, by decide, by decide, by decide +kernel, by decide +kernel⟩

theorem unitReady (s : State) (fn u : Nat) (op : Op) (x : CopyShape)
    (h : decide (op.kind = .copy fn ∧ op.started = true ∧ op.copyShape fn = x ∧ op.cancel = false ∧ op.orphan = false ∧ op.away = 0) &&
      (decide ((s.crew op.crew).resident = true ∧ (s.crew op.crew).suspends = false) &&
      (decide (u < x.units ∧ mget op.units u = false ∧ 0 < (x.unit u).2.2 ∧ ∀ v < u, op.unitDone x v = true) &&
      (decide (usesAb fn = true → s.abRoom op.core (x.unit u).2.2 = true) &&
      (decide (op.core < coreCount ∧ s.pagesMissed (opToken (2 ^ 60 + 1)) op.core op.part op.space (s.copyRanges op x u) = []) &&
      (s.copyAwake op x u && (s.copyTarget op x u).isNone))))) = true) :
    UnitReady s (2 ^ 60 + 1) fn op x u := by
  simp only [Bool.and_eq_true, decide_eq_true_eq, Option.isNone_iff_eq_none] at h
  exact ⟨h.1, h.2.1, h.2.2.1, h.2.2.2.1, h.2.2.2.2.1, h.2.2.2.2.2.1, h.2.2.2.2.2.2⟩

/-- Flat copies of 4 bytes: G2A, whose one unit ends it, from a page that can and one that cannot be read; A2G; TCPY; and a G2A of two units. -/
theorem witness_CopySteps_flat :
    (let op := aCopy 0x2000 0xFFFC 4 true
     let x := flatShape 0 op
     UnitReady (withOp op) (2 ^ 60 + 1) 0 op x 0 ∧ UnitSure (withOp op) (2 ^ 60 + 1) x 0 ∧ ¬ unitsLeft op x 0 ∧
     (withOp op).rdVirt 0 0 0 (x.rowAddr 0 + (x.unit 0).2.1) (x.unit 0).2.2 = .ok [0, 0, 0, 0]) ∧
    (let op := aCopy 0x2000 0xFFFC 4 true
     let x := flatShape 0 op
     let s : State := { withOp op with tlb := [page0 0 2] }
     UnitReady s (2 ^ 60 + 1) 0 op x 0 ∧ s.rdVirt 0 0 0 (x.rowAddr 0 + (x.unit 0).2.1) (x.unit 0).2.2 = .fault cProtection 0 ∧
     x.offset 0 % 4096 + 0 < 4096) ∧
    (let op := { aCopy 0x2000 0xFFFC 4 true with kind := .copy 1 }
     let x := flatShape 1 op
     UnitReady (withOp op) (2 ^ 60 + 1) 1 op x 0 ∧ UnitSure (withOp op) (2 ^ 60 + 1) x 0 ∧
     UnitPlace (withOp op) (2 ^ 60 + 1) op (x.rowAddr 0 + (x.unit 0).2.1) (x.unit 0).2.2 0x2000) ∧
    (let op := { aCopy 0x2000 0x3000 4 true with kind := .copy 3 }
     let x := flatShape 3 op
     UnitReady (withOp op) (2 ^ 60 + 1) 3 op x 0 ∧ UnitSure (withOp op) (2 ^ 60 + 1) x 0 ∧
     (withOp op).rdVirt 0 0 0 (x.rowAddr 0 + (x.unit 0).2.1) (x.unit 0).2.2 = .ok [0, 0, 0, 0] ∧
     UnitPlace (withOp op) (2 ^ 60 + 1) op (x.auxAddr 0 + (x.unit 0).2.1) (x.unit 0).2.2 0x3000 ∧
     ∀ i < (x.unit 0).2.2, x.hits (x.rowAddr 0 + (x.unit 0).2.1 + i) = false) ∧
    (let op := aCopy 0x2000 0xFF00 132 true
     UnitReady (withOp op) (2 ^ 60 + 1) 0 op (flatShape 0 op) 0 ∧ unitsLeft op (flatShape 0 op) 0) := by
  unfold UnitPlace UnitSure unitsLeft
  refine ⟨⟨unitReady _ _ _ _ _ (by decide +kernel), by decide +kernel⟩, ⟨unitReady _ _ _ _ _ (by decide +kernel), by decide +kernel⟩,
    ⟨unitReady _ _ _ _ _ (by decide +kernel), by decide +kernel⟩, ⟨unitReady _ _ _ _ _ (by decide +kernel), by decide +kernel⟩,
    ⟨unitReady _ _ _ _ _ (by decide +kernel), 1, by decide +kernel⟩⟩

/-- Copies with a shape: GATH with index 0 and with all ones; C2G's first weight line and its first scale line; G2C of one block with and without
scales. -/
theorem witness_CopySteps_shaped :
    (let op := shaped 4 4 0 0xFFFC (aShape 0x2000 0x30000 1 4 16)
     let x := op.copyShape 4
     UnitReady (withOp op) (2 ^ 60 + 1) 4 op x 0 ∧ UnitSure (withOp op) (2 ^ 60 + 1) x 0 ∧
     (withOp op).rdVirt 0 0 0 (x.aux + 4 * 0) 4 = .ok [0, 0, 0, 0] ∧
     (withOp op).rdVirt 0 0 0 (addr64 ((x.addr : Int) + (0 : Nat) * x.gstride) + (x.unit 0).2.1) (x.unit 0).2.2 = .ok [0, 0, 0, 0]) ∧
    (let op := shaped 4 4 0 0xFFFC (aShape 0x2000 0x30000 1 4 16)
     let x := op.copyShape 4
     let s : State := withOp op { alone with mem := msetList alone.mem 0x30000 (leBytes 4 0xFFFFFFFF) }
     UnitReady s (2 ^ 60 + 1) 4 op x 0 ∧ UnitSure s (2 ^ 60 + 1) x 0 ∧ s.rdVirt 0 0 0 (x.aux + 4 * 0) 4 = .ok [0xFF, 0xFF, 0xFF, 0xFF]) ∧
    (∀ u ∈ [0, 64],
      let op := shaped 5 4096 u 0 (aShape 0x30000 0x40000 16 256 256)
      let x := op.copyShape 5
      UnitReady (withOp op) (2 ^ 60 + 1) 5 op x u ∧ UnitSure (withOp op) (2 ^ 60 + 1) x u ∧ x.rowb = 256 ∧
      UnitPlace (withOp op) (2 ^ 60 + 1) op (x.dest (x.unit u).1 + (x.unit u).2.1) (x.unit u).2.2 (if u = 0 then 0x30000 else 0x40000)) ∧
    (∀ aux ∈ [0, 0x40000],
      let op := shaped 2 4096 0 0 (aShape 0x30000 aux 16 256 256)
      let x := op.copyShape 2
      UnitReady (withOp op) (2 ^ 60 + 1) 2 op x 0 ∧
      (∀ i < 16, (withOp op).rdVirt 0 0 0 (x.rowAddr (16 * 0 + i)) x.rowb = .ok (List.replicate 256 0)) ∧
      (aux ≠ 0 → (withOp op).rdVirt 0 0 0 (x.auxAddr 0) 256 = .ok (List.replicate 256 0))) := by
  unfold UnitPlace UnitSure
  refine ⟨⟨unitReady _ _ _ _ _ (by decide +kernel), by decide +kernel⟩, ⟨unitReady _ _ _ _ _ (by decide +kernel), by decide +kernel⟩,
    fun u hu => ?_, fun aux ha => ?_⟩
  · simp only [List.mem_cons, List.not_mem_nil, or_false] at hu
    rcases hu with rfl | rfl <;> exact ⟨unitReady _ _ _ _ _ (by decide +kernel), by decide +kernel⟩
  · simp only [List.mem_cons, List.not_mem_nil, or_false] at ha
    rcases ha with rfl | rfl <;> exact ⟨unitReady _ _ _ _ _ (by decide +kernel), by decide +kernel⟩

/-- The read has been made. -/
def wasRead : RdRes → Bool
  | .ok _ => true
  | _ => false

/-- An operation on the matrix context. -/
def aMatrix (k : OpKind) (a : Word64) (b : Word64 := 0) : Op := { (default : Op) with kind := k, crew := 1, launchId := 1, a := a, b := b }
/-- A commit that has been read out, whose segments up to `n` are there. -/
def aCommit (n : Nat) (applied : Nat := 0) : Op :=
  { aMatrix (.acommit 0) 0x20000 with
    readOut := true, frames := [0x20000, 0x30000], units := (List.range n).map (fun i => (i, true)), applied := (List.range applied).map (fun i => (i, true)) }

/-- An MMA whose bound is below every threshold, and ones that have no bound and whose cycles are over, to a plain and to a ranked accumulator. -/
theorem witness_ArraySteps_mma :
    (let f : FX := ⟨0, 7, 2, 1, 2, 31, true, true, false⟩
     let s := withOp (aMatrix (.mma f) 0xFF80000000000000) (crewed (fun c => { c with
       form := [(0, ⟨true, 1, 0⟩)], ranked := (List.range 128).map (fun i => (i, [(0, 0)])) }))
     s.arrayTurn (2 ^ 60 + 1) = true ∧ mmaSkips f (s.crew 1) (BitVec.ofNat 32 (nbits 0xFF80000000000000 32 32)) = true) ∧
    (let f : FX := ⟨0, 7, 2, 1, 2, 31, true, false, false⟩
     let s := { withOp (aMatrix (.mma f) 0) with time := 256 }
     mmaSkips f (s.crew 1) (BitVec.ofNat 32 (nbits 0 32 32)) = false ∧ ((s.crew 1).accForm 0).ranked = false ∧
     s.mmaEnd (aMatrix (.mma f) 0) (mmaCycles false (slotPlanes (s.slotOf (s.crew 1) 2))) ≤ s.time) ∧
    (let f : FX := ⟨0, 7, 2, 1, 2, 31, true, false, false⟩
     let s := { withOp (aMatrix (.mma f) 0) (crewed (fun c => { c with form := [(0, ⟨true, 1, 0⟩)] })) with time := 512 }
     s.arrayTurn (2 ^ 60 + 1) = true ∧ mmaSkips f (s.crew 1) (BitVec.ofNat 32 (nbits 0 32 32)) = false ∧ ((s.crew 1).accForm 0).ranked = true ∧
     s.mmaEnd (aMatrix (.mma f) 0) 256 ≤ s.time) ∧
    mwf (alone.crew 1).acc = true := by
  refine ⟨by decide +kernel, by decide +kernel, by decide +kernel, by decide⟩

/-- A misaligned tile, and one that can be read out; a segment with another missing, and the last one; the same with a poisoned line; a segment
that can be applied; a commit with every segment applied. -/
theorem witness_ArraySteps_commit :
    homeAddr 0x20002 % tileBytesOf false ≠ 0 ∧
    (let op := aMatrix (.acommit 0) 0x20000
     let s := { withOp op with time := 512 }
     op.readOut = false ∧ s.arrayTurn (2 ^ 60 + 1) = true ∧ homeAddr op.a % tileBytesOf ((s.crew 1).accForm 0).ranked = 0 ∧
     s.tileXl op false (permR + permW) = (.ok 0, [0x20000, 0x30000]) ∧
     op.core < coreCount ∧ s.pagesMissed (opToken (2 ^ 60 + 1)) op.core op.part op.space [(homeAddr op.a, tileBytesOf false)] = [] ∧ s.arrayEnd op 256 ≤ s.time ∧ s.bufferedSegs op.core + tileSegs false ≤ 64) ∧
    ((aCommit 0).readOut = true ∧ 31 < tileSegs (aCommit 0).form.ranked ∧ ∃ g < tileSegs (aCommit 0).form.ranked, g ≠ 31 ∧ mget (aCommit 0).units g = false) ∧
    ((∀ g < tileSegs (aCommit 31).form.ranked, g ≠ 31 → mget (aCommit 31).units g = true) ∧ mget (aCommit 31).units 31 = false ∧
      (aCommit 31).orphan = false ∧ alone.bridgeDown = false ∧ alone.routerReady ((aCommit 31).core / 12) = true) ∧
    (let op := { aCommit 31 with orphan := true, lostAt := 1 }
     op.readOut = true ∧ op.orphan = true ∧ op.lostAt ≠ 7 + 1 ∧ mget op.units 31 = false) ∧
    (let op := { aCommit 8 with form := ⟨true, 32, 0⟩ }
     op.form.ranked = true ∧ op.form.len ≤ 32 ∧ 7 < tileSegs op.form.ranked ∧ mget op.applied 7 = false ∧
     (withOp op).mayWriteBy (opToken (2 ^ 60 + 1)) (op.segmentDest 7) = true ∧ (withOp op).channelsReady (op.segmentDest 7) = true) ∧
    ((withOp (aCommit 32)).commitPoisoned (aCommit 32) = false ∧
      (∀ g < tileSegs (aCommit 32).form.ranked, (withOp (aCommit 32)).mayWriteBy (opToken (2 ^ 60 + 1)) ((aCommit 32).segmentDest g) = true)) ∧
    (let s : State := { withOp (aCommit 32) with lease := [(0x20000, 1)] }
     ∃ g < tileSegs (aCommit 32).form.ranked, s.mayWriteBy (opToken (2 ^ 60 + 1)) ((aCommit 32).segmentDest g) = false) ∧
    ({ withOp (aCommit 32) with poison := [(0x20000, true)] } : State).commitPoisoned (aCommit 32) = true ∧
    ((aCommit 32).segmentPa 31 = 0x3F000 ∧ mget (aCommit 32).applied 31 = false ∧
      (withOp (aCommit 32)).mayWriteBy (opToken (2 ^ 60 + 1)) ((aCommit 32).segmentDest 31) = true ∧
      (withOp (aCommit 32)).channelsReady ((aCommit 32).segmentDest 31) = true) ∧
    (∀ g < tileSegs (aCommit 32 32).form.ranked, mget (aCommit 32 32).applied g = true) := by
  refine ⟨by decide, by decide +kernel, ⟨by decide, by decide, 0, by decide⟩, by decide +kernel, by decide +kernel, by decide +kernel,
    by decide +kernel, ⟨0, by decide +kernel⟩,
    by decide +kernel, by decide +kernel, by decide +kernel⟩

/-- ALOAD from a misaligned, an unmapped and a readable tile, into a plain and a ranked accumulator. -/
theorem witness_ArraySteps_load :
    (0x20001 : Word64).toNat % tileBytesOf false ≠ 0 ∧ (withOp (aMatrix (.aload 0) 0x20000)).arrayTurn (2 ^ 60 + 1) = true ∧
    (0x20000 : Word64).toNat % tileBytesOf ((alone.crew 1).accForm 0).ranked = 0 ∧
    (let s : State := { alone with tlb := [page0 0 2] }
     s.pagesMissed (opToken (2 ^ 60 + 1)) 0 0 0 [(0x20000, tileBytesOf false)] = [] ∧ s.rdVirt 0 0 0 0x20000 (tileBytesOf false) = .fault cProtection 0) ∧
    (∀ ranked : Bool,
      alone.pagesMissed (opToken (2 ^ 60 + 1)) 0 0 0 [(0x20000, tileBytesOf ranked)] = [] ∧
      wasRead (alone.rdVirt 0 0 0 0x20000 (tileBytesOf ranked)) = true ∧
      alone.wayOpen 0 (alone.virtLines 0 0 0 0x20000 (tileBytesOf ranked) permR) = true) ∧
    alone.arrayEnd (aMatrix (.aload 0) 0x20000) 0 ≤ alone.time ∧
    ((crewed (fun c => { c with form := [(0, ⟨true, 1, 0⟩)] })).crew 1 |>.accForm 0).ranked = true :=
  ⟨by decide, by decide, by decide, by decide +kernel, by decide +kernel, by decide, by decide⟩

/-- A record with one crew of one strand (R318). -/
def aRecord : List Byte :=
  List.replicate 16 0 ++ leBytes 4 1 ++ leBytes 4 1 ++ leBytes 4 1 ++ [1, 1, 1, 0, 0, 1, 0, 0] ++ List.replicate 12 0 ++ [1] ++ List.replicate 207 0

/-- A crew that is being retired. -/
def retiring : State := crewed (fun c => { c.setSt 0 { c.st 0 with live := 0 } with retiring := true })

/-- A crew that is being retired, with another of its launch; an acceptable record; a device queue that holds it, and one that holds a bad one. -/
theorem witness_LaunchesAndRetirement :
    alone.Tidy ∧
    (let s := retiring.setCrew 2 (alone.crew 1)
     (s.crew 1).retiring = true ∧ crewDrained s 1 = true ∧ (∀ e ∈ s.sfrq, e.2.crew ≠ 1) ∧ (s.launchOf 1).state = 1 ∧ (s.crew 2).launch = (s.crew 1).launch) ∧
    (aRecord.length = 256 ∧ paged.recordBad 0 aRecord = false ∧ (mget paged.asroot 0).getLsbD 0 = true ∧ paged.noFit 0 (launchRec aRecord) = false ∧
      (launchRec aRecord).wgroup = 0 ∧ 1 ≤ paged.nextLaunch ∧ paged.launches.length < 2 ^ 32 - 1) ∧
    (let e : DlqEntry := { dom := 1, bytes := aRecord, part := 0, space := 0, handle := mkHandle 4 1 1, cancelled := false }
     let s : State := { paged with dlq := [(3, e)] }
     s.dlq.find? (fun e => decide (e.2.dom = 1)) = some (3, e) ∧ (∀ d ∈ s.dlq, d.2.dom = 1 → d.2.cancelled = false) ∧
     (s.acceptRecord 0 0 aRecord e.handle 0).isSome = true ∧ s.recordBad 0 (List.replicate 256 0) = true ∧
     (launchRec (List.replicate 256 0)).compl = 0 ∧ e.handle ≠ 0) := by
  refine ⟨alone_tidy, by decide, by decide +kernel, by decide +kernel⟩

/-- The last crew of its launch. -/
theorem witness_LaunchesAndRetirement_last :
    ((retiring.crew 1).retiring = true ∧ crewDrained retiring 1 = true ∧ (∀ e ∈ retiring.sfrq, e.2.crew ≠ 1) ∧
      (retiring.launchOf 1).state = 1 ∧ (retiring.launchOf 1).cut = false ∧
      (retiring.launchOf 1).record.crewCount ≤ (retiring.launchOf 1).retired + 1 ∧ (retiring.launchOf 1).restarts = [] ∧
      (retiring.launchOf 1).record.compl = 0) ∧
    ∀ v, v ≠ 1 → (retiring.crew v).launch ≠ (retiring.crew 1).launch := by
  refine ⟨by decide, fun v h => ?_⟩
  have e : retiring.crews = [(1, retiring.crew 1)] := by decide +kernel
  have l : (retiring.crew 1).launch = 1 := by decide +kernel
  rw [l]
  have d : mget [(1, retiring.crew 1)] v = default := by simp [mget, h]
  show (mget retiring.crews v).launch ≠ 1
  rw [e, d]
  exact Nat.zero_ne_one

/-- Queue 0 of partition 0 at 0x20000 with one record of a capacity of 1. -/
def queued : State :=
  { paged with
    bootstat := 8, hostq := [(0, 0x20000)]
    mem := msetList (msetList paged.mem 0x20000 (leBytes 4 1 ++ leBytes 4 0 ++ leBytes 4 1)) 0x20040 aRecord }

theorem witness_LaunchesAndRetirement_queue :
    (mget queued.hostq 0).toNat ≠ 0 ∧ mget queued.cxlDown 0 = false ∧ queued.bootstat.toNat % 16 = 8 ∧
    queued.rdVirt noCore 0 0 0x20000 12 = .ok (leBytes 4 1 ++ leBytes 4 0 ++ leBytes 4 1) ∧
    queued.rdVirt noCore 0 0 (0x20000 + 64 + 256 * (0 % 1)) 256 = .ok aRecord ∧
    (∃ s1, queued.acceptRecord 0 0 aRecord 0 1 = some s1 ∧ wrote (s1.wrVirt noCore 0 0 0x20004 (leBytes 4 1)) = true) := by
  refine ⟨by decide, by decide, by decide, by decide +kernel, by decide +kernel, ?_⟩
  exact ⟨_, rfl, by decide +kernel⟩

/-- Slot 7 of core 1 bound to the placed launch, which supplies the second of two crews. -/
def bound : State :=
  { recorded (fun r => { r with gdx := 2, dmask := 1, vgran := 1, tiles := 0, accs := 0 }) with
    slots := [(15, { (default : Slot) with launch := 1, maxc := 1, valid := true, quota := 1 })] }

theorem witness_CrewPlacement :
    1 < 768 ∧ bound.fenced (1 / 12) = false ∧ (List.range 8).find? (bound.slotPlaces 1) = some 7 ∧ bound.supply 1 1 = some (0, 0, some 0) ∧
    bound.resuming 1 1 = none ∧ (bound.fits 1 1).isSome = true ∧ ((bound.firstBind 1).claim 1 1 false).isSome = true ∧
    (match (bound.firstBind 1).claim 1 1 false, bound.fits 1 1 with
      | some s1, some ctxs => (s1.placed 1 7 (mget bound.slots 15) 0 0 (some 0) ctxs).allBound 1
      | _, _ => false) = true ∧
    ((0 : Nat) < (bound.launchOf 1).record.weaves ∧ 0 < (bound.launchOf 1).record.strands) := by decide +kernel

/-- A crew asked to leave, without strands, tiles and buffer, so that the save is short; the management cores find its save area at 2 MiB. -/
def saving : State :=
  { crewed (fun c => { c with preempt := 1, weaves := 0, tiles := 0, accs := 0, ab := 0 }) with
    tlb := [{ owner := noCore, part := 0, space := 0, page := 0, pageBits := 44, leaf := 0x1F }] }

/-- Management cores that find the first 2^44 bytes of space 0 of partition 0 at their own addresses, with nothing in the way of a write. -/
def Plain (s : State) : Prop := s.tlb = saving.tlb ∧ s.dev = 0 ∧ s.poison = [] ∧ s.lease = [] ∧ s.home = []

theorem plain_xl {s : State} (h : Plain s) {va : Nat} (hv : va < 2 ^ 44) : s.engineXl noCore 0 0 va permW = .ok va := by
  have e : va % 2 ^ 64 = va := Nat.mod_eq_of_lt (by omega)
  have p : (0 : Nat) = va / 2 ^ 44 := by omega
  have n : ¬ 2 ^ 57 ≤ va := by omega
  have q : va % 2 ^ 44 = va := Nat.mod_eq_of_lt hv
  have x : s.xlate noCore (engDom noCore) 0 0 va permW = .ok va := by
    simp only [State.xlate, State.tlbFind, h.1, saving, n, if_false]
    simp only [List.find?, ← p, show engDom noCore = noCore from rfl, decide_true, Bool.or_true, Bool.and_true]
    simp only [leafXl, q]
    rw [if_pos (by decide), show nbits (BitVec.toNat (31 : Word64)) 16 38 = 0 from by decide, Nat.zero_mul, Nat.zero_add]
  have d : devOf va = 0 := by unfold devOf; omega
  simp only [State.engineXl, e, x, d, State.inView, h.2.1, decide_true, Bool.true_or, if_true]

theorem plain_span {s : State} (h : Plain s) (x : Nat × List Byte) : Plain (s.wrSpan x) := by
  unfold State.wrSpan
  refine ⟨?_, ?_, ?_, ?_, ?_⟩ <;> (split; all_goals simp only [State.wrBytes, State.bumpSeq, h.1, h.2.1, h.2.2.1, h.2.2.2.1, h.2.2.2.2]; try rfl)

theorem plain_write {s : State} (h : Plain s) {pa : Nat} {l : List Byte} : Plain (s.wrEngine pa l) := by
  unfold State.wrEngine
  generalize lineSpans pa l = ps
  induction ps generalizing s with
  | nil => exact h
  | cons p ps ih => exact ih (plain_span h p)

theorem plain_virt {s : State} (h : Plain s) {va : Nat} {l : List Byte} (hv : va + l.length ≤ 2 ^ 44) :
    ∃ t, s.wrVirt noCore 0 0 va l = .ok t ∧ Plain t := by
  unfold State.wrVirt State.wrVirtBy
  have hp : ∀ p ∈ pageSpans va l.length, p.2.1 < 2 ^ 44 := by
    intro p hp
    simp only [pageSpans, List.mem_map, List.mem_range] at hp
    obtain ⟨i, hi, rfl⟩ := hp
    dsimp only
    split
    · subst i; omega
    · omega
  generalize pageSpans va l.length = ps at hp
  induction ps generalizing s with
  | nil => exact ⟨s, rfl, h⟩
  | cons p ps ih =>
    have hb : ∀ d : List Byte, s.poisonBlocks p.2.1 d = none := fun d => by
      simp [State.poisonBlocks, List.findSome?_eq_none_iff, State.poisoned, h.2.2.1, mget]
    have hm : ∀ d : List Nat, s.mayWriteBy 3 d = true := fun d => by
      simp [State.mayWriteBy, State.leaseFree, State.waitingAt, h.2.2.2.1, h.2.2.2.2, mget]
    simp only [List.foldl_cons, plain_xl h (hp p (List.mem_cons_self ..)), hb, hm, if_true]
    exact ih (plain_write h) (fun q hq => hp q (List.mem_cons_of_mem _ hq))

theorem plain_noise {s : State} (h : Plain s) : Plain (s.saveNoise 0 0 0x200000) := by
  unfold State.saveNoise
  have h0 : Plain (s.freeUp 0) := h
  have hl : ∀ e ∈ (Config.saveNoise (s.freeAt 0)).filter (fun e => decide (e.1 < 0x400) || (decide (0x1000 ≤ e.1) && decide (e.1 < 0x380000))),
      e.1 < 0x380000 := by
    intro e he
    have := (List.mem_filter.1 he).2
    simp only [Bool.or_eq_true, Bool.and_eq_true, decide_eq_true_eq] at this
    omega
  generalize s.freeUp 0 = s0 at h0
  generalize (Config.saveNoise (s.freeAt 0)).filter _ = l at hl
  induction l generalizing s0 with
  | nil => exact h0
  | cons e l ih =>
    have he := hl e (List.mem_cons_self ..)
    obtain ⟨t, ht, pt⟩ := plain_virt h0 (va := 0x200000 + e.1) (l := [e.2]) (by simp only [List.length_singleton]; omega)
    simp only [List.foldl_cons, ht]
    exact ih _ pt (fun q hq => hl q (List.mem_cons_of_mem _ hq))

theorem plain_parts {s : State} (h : Plain s) {l : List (Nat × List Byte)} (hl : ∀ p ∈ l, 0x200000 + p.1 + p.2.length ≤ 2 ^ 44) :
    ∃ t, s.writeParts 0 0 0x200000 l = .ok t := by
  unfold State.writeParts
  induction l generalizing s with
  | nil => exact ⟨s, rfl⟩
  | cons p l ih =>
    obtain ⟨t, ht, pt⟩ := plain_virt h (va := 0x200000 + p.1) (l := p.2) (hl p (List.mem_cons_self ..))
    simp only [List.foldl_cons, ht]
    exact ih pt (fun q hq => hl q (List.mem_cons_of_mem _ hq))

/-- The state from which the save of `saving` writes. -/
def savingFrom : State := saving.setCrew 1 (saving.crew 1).splitLatches

/-- With its save area all zero, and slot 7 of core 0 bound to its launch. -/
def saved : State :=
  { paged with slots := [(7, { (default : Slot) with launch := 1, maxc := 1, valid := true, quota := 1 })]
               crews := (crewed (fun c => { c with preempt := 2, resident := false, tiles := 0, accs := 0, ab := 0 })).crews
               launches := (recorded (fun r => { r with dmask := 1, tiles := 0, accs := 0, ab := 0, vgran := 1 })).launches }

theorem witness_Preemption :
    ((alone.crew 1).resident = true ∧ (alone.crew 1).launch ≠ 0 ∧ (alone.crewLaunch (alone.crew 1)).record.whole = false) ∧
    ((saving.crew 1).resident = true ∧ (saving.crew 1).preempt = 1 ∧ (saving.crew 1).retiring = false ∧ (saving.crew 1).passed = [] ∧
      savingFrom.stable 1 = true ∧ (saving.crew 1).savebase.toNat = 0x200000 ∧
      ∃ s1, (savingFrom.saveNoise 0 0 0x200000).writeParts 0 0 0x200000 (savingFrom.saveParts 1) = .ok s1) ∧
    (0 < 768 ∧ (saved.crew 1).preempt = 2 ∧
      (saved.crew 1).retiring = false ∧ (List.range 8).find? (saved.slotPlaces 0) = some 7 ∧ (mget saved.slots 7).launch = (saved.crew 1).launch ∧
      saved.stageCore 0 (saved.crewLaunch (saved.crew 1)).record 0 0 = true ∧ (saved.fits 1 0).isSome = true ∧
      ((saved.firstBind 1).claim 1 0 true).isSome = true ∧ (saved.readSave 1).isSome = true) := by
  refine ⟨by decide, ⟨by decide, by decide, by decide, by decide, by decide, by decide, ?_⟩, by decide +kernel⟩
  exact plain_parts (plain_noise ⟨rfl, rfl, rfl, rfl, rfl⟩) (by decide +kernel)

/-- Domain 1 with no chunk left and room on core 384 asks; a request that finds a chunk, one that finds none, and an answer. -/
theorem witness_ChipletResetAndSteals :
    (alone.Tidy ∧ 63 < 64 ∧ alone.resetting 63 = false ∧ ({ alone with chipctl := [(63, 8)] } : State).resetting 63 = true) ∧
    (let s : State := { recorded (fun r => { r with dmask := 3, vgran := 1, tiles := 0, accs := 0 }) with
                        fwcfg := 4, chipctl := [(0, 2), (32, 2)], slots := [(8 * 384, { (default : Slot) with launch := 1, maxc := 1, valid := true, quota := 1 })] }
     let x := s.launchOf 1
     s.fwcfg.getLsbD 2 = true ∧ x.state = 1 ∧ 0 < x.record.stages ∧ x.cut = false ∧ mget x.noneSeen 16 = false ∧ s.steals = [] ∧ x.nextChunk 1 0 = none ∧
     (∀ e ∈ x.restarts, e.1 ≠ 0) ∧ (∀ e ∈ s.crews, ¬(e.2.launch = 1 ∧ e.2.stage = 0 ∧ e.2.preempt = 2)) ∧ s.roomIn 1 1 0 = true) ∧
    (let m : StealMsg := { live := true, answer := false, dom := 1, launch := 1, stage := 0, chunk := none }
     let s : State := { recorded (fun r => { r with dmask := 3 }) with steals := [(3, m)] }
     let x := s.launchOf 1
     s.bridgeDown = false ∧ 0 < x.record.chunks ∧ x.ownerOf 0 0 = 1 - 1 ∧ mget x.supplied (chunkKey 0 0) = 0 ∧ ¬ (1 < x.record.chunks) ∧
     mget (x.supplied ++ [(chunkKey 0 0, 1)]) (chunkKey 0 0) ≠ 0 ∧ ({ m with answer := true } : StealMsg).answer = true) := by
  refine ⟨⟨alone_tidy, by decide, by decide, by decide⟩, by decide +kernel, by decide +kernel⟩

/-- An MMIO access to the register at an offset. -/
def mmio (o : Nat) (write host : Bool) (data : Word64 := 0) : State :=
  { alone with mmioIn := [(3, { (default : MmioAccess) with live := true, host := host, write := write, addr := (if host then 0 else 0xF0000000000) + o, size := 8,
                                                            data := data })] }

/-- Registers at the ends of their tables: TVEC of core 767, ASROOT 15 of partition 7, CHIPCTL of chiplet 63, ERRCNT 623; a pair and a host access
to the last bytes of the near tier. -/
theorem witness_RegistersAndHostAccesses :
    (mmio 0x12FF40 false true).mmioAccess 3 (.tvec 767) ∧
    ((mmio 0 true true).mmioAccess 3 .bootstat ∧ (mget (mmio 0 true true).mmioIn 3).write = true ∧ (mget (mmio 0 true true).mmioIn 3).host = true) ∧
    (mmio 0x12FF40 true false).mmioAccess 3 (.tvec 767) ∧ (mmio 0x27078 true false).mmioAccess 3 (.asroot 7 15) ∧
    (mmio 8 true false).mmioAccess 3 .fabcfg ∧ (mmio 0x20 true false).mmioAccess 3 .fwcfg ∧
    ((mmio 0x101F8 true false 2).mmioAccess 3 (.chip 63) ∧ 63 < 64 ∧ (mget (mmio 0x101F8 true false 2).mmioIn 3).data.getLsbD 1 = true ∧
      (mmio 0x101F8 true false).fenced 63 = true ∧ (mmio 0x10000 true false).fenced 0 = false ∧ (mmio 0x101F8 true false).resetting 63 = false ∧
      ({ mmio 0x101F8 true false with chipctl := [(63, 8)] } : State).resetting 63 = true ∧
      (mget (mmio 0x101F8 true false).mmioIn 3).data.getLsbD 1 = false ∧ mget (mmio 0x101F8 true false).tests.chips 63 = false ∧
      mget ({ mmio 0x101F8 true false with tests := { (default : SelfTests) with chips := [(63, true)] } } : State).tests.chips 63 = true) ∧
    (mmio 0x301378 true false).mmioAccess 3 (.errcnt 623) := by
  unfold State.mmioAccess; decide +kernel

theorem witness_RegistersAndHostAccesses_host :
    (({ alone with bootstat := 8 } : State).bootstat.toNat % 16 = 8 ∧ 511 < 512) ∧
    (let a : HostAccess := { live := true, die := 0, write := true, addr := 2 ^ 40 - 1, bytes := [7] }
     let s : State := { alone with hostIn := [(3, a)] }
     (mget s.hostIn 3).live = true ∧ mget s.cxlDown a.die = false ∧ a.addr + a.bytes.length ≤ 2 ^ 44 ∧ s.inTiers (s.dev * 2 ^ 44 + a.addr) = true ∧
     s.inTiers (s.dev * 2 ^ 44 + a.addr + a.bytes.length - 1) = true ∧ s.rangePoisoned (s.dev * 2 ^ 44 + a.addr) 1 = false ∧
     s.bridgeStops a.die (linesOf (s.dev * 2 ^ 44 + a.addr) 1) = false ∧
     ({ s with bridgeDown := true } : State).bridgeStops (1 - s.homeSlice (2 ^ 40 - 128) / 256) (linesOf (s.dev * 2 ^ 44 + a.addr) 1) = true ∧
     s.channelsReady (linesOf (s.dev * 2 ^ 44 + a.addr) 1) = true ∧
     ({ s with channelAsleep := [(s.homeSlice (2 ^ 40 - 128), true)] } : State).channelsReady (linesOf (s.dev * 2 ^ 44 + a.addr) 1) = false ∧
     s.mayWriteBy (hostToken 3) (linesOf (s.dev * 2 ^ 44 + a.addr) 1) = true ∧ (∀ e ∈ s.home, e.1 < s.nextId) ∧
     ({ s with lease := [(2 ^ 40 - 128, 1)] } : State).mayWriteBy (hostToken 3) (linesOf (s.dev * 2 ^ 44 + a.addr) 1) = false) := by decide +kernel

/-- A walk of strand 0 of crew 1. -/
def walking (va : Nat) : State :=
  { paged with walks := [(3, { live := true, dom := 0, part := 0, space := 0, va := va, waiters := [(1, 0)], core := 0, engines := [7] })] }

/-- A walk that finds a leaf, for a core in service and for one of a fenced chiplet; one that faults; one that meets a busy leaf. Ticks of an
evaluation and of a halving. -/
theorem witness_WalksAndTierPumps :
    ((walking 0x2000).walkRuns 3 (mget (walking 0x2000).walks 3) = true ∧ (walking 0x2000).walk 0 0 0x2000 = .leaf 0x3F012000 0x1F 30 ∧
      (walking 0x2000).fenced (0 / 12) = false ∧ (walking 0x2000).fenced (12 / 12) = true) ∧
    ((walking 0x40000000).walk 0 0 0x40000000 = .fault cTranslation ∧ ((walking 0).crew 1).launch ≠ 0) ∧
    ({ walking 0 with mem := msetList (walking 0).mem 0x3F012000 [0x9F] } : State).walk 0 0 0 = .busy ∧
    (walking 0).channelsReady ((walking 0).walkLines 0 0 0) = true ∧
    ({ walking 0 with channelAsleep := (List.range 512).map (fun i => (i, true)) } : State).channelsReady ((walking 0).walkLines 0 0 0) = false ∧
    (let s : State := { alone with time := 8 * 4097, decayAt := 2 ^ 20, evalAt := 4096 }
     s.evalAt ≤ s.ltime ∧ s.decayDue = false ∧ s.halving = false ∧ ∀ d < 2, (mget s.pumpCfg d).getLsbD 0 = false) ∧
    alone.decayDue = true := by decide +kernel

/-- Partition 0's list at 0x60000: the page whose leaf lies at 0x70000, on die 0 with RE 3, and a free near frame at 2 MiB. -/
def pumping : State :=
  { alone with
    plist := [(0, 0x60000)], plcnt := [(0, 2)]
    mem := msetList (msetList (msetList (msetList (msetList alone.mem 0x60000 (leBytes 8 0x70000)) 0x60008 (leBytes 4 1))
      0x60010 (leBytes 8 0x200000)) 0x60018 (leBytes 4 2)) 0x70000 (leBytes 8 (2 ^ 40 + 0x35F)) }

theorem witness_WalksAndTierPumps_choice :
    pumping.moves.any (fun m => m.2.live && decide (m.2.pump = 0) && decide (m.2.part = 0)) = false ∧
    firstMax (pumpCost (mget pumping.pumpCfg 0) 0) (pumping.pagesOn (pumping.pumpList 0) 1) = some (0x70000, 3) ∧
    pumping.freeOn (pumping.pumpList 0) 0 = some ⟨0x60010, 0x200000, 2, 0⟩ ∧ 0 < 3 := by decide +kernel

/-- The page's move, so many lines copied. -/
def aMove (copied : Nat) (promote : Option Nat := none) : PageMove :=
  { live := true, pump := 0, part := 0, leaf := 0x70000, frame := 0x200000, entry := 0x60010, promote := promote, begun := true,
    before := if copied = 16385 then [2 ^ 40] else [], copied := copied }

/-- A move that has not begun; one before its first and its last line, and with a request to the page in flight; one whose lines are copied; one whose
leaf has been written, which ends and which goes on as a swap. -/
theorem witness_WalksAndTierPumps_move :
    (let m := { aMove 0 with begun := false }
     (mget ({ pumping with moves := [(3, m)] } : State).moves 3).live = true ∧ pumping.channelsReady [lineOf m.leaf] = true ∧ pumping.mayWrite m.leaf 8 = true) ∧
    (∀ n ∈ [0, 16383],
      let s : State := { pumping with moves := [(3, aMove n)] }
      let pa := leafPa (s.rdNat 0x70000 8)
      s.moveReady (aMove n) pa = true ∧ s.leaseFree (0x200000 + 128 * n) = true ∧ s.channelsReady [pa + 128 * n, 0x200000 + 128 * n] = true ∧
      ∀ e ∈ s.home, e.2.kind = .none ∨ e.2.kind = .load ∨ e.2.pa ≠ pa + 128 * n) ∧
    (let m := { aMove 0 with before := [5] }
     ({ pumping with net := [(5, aReq .load 4)] } : State).moveReady m (2 ^ 40) = false) ∧
    (pumping.mayWrite 0x70000 8 = true ∧ (aMove 16384).frame % 2 ^ 16 = 0 ∧ (aMove 16384).frame < 2 ^ 54) ∧
    ((aMove 16385).before = [2 ^ 40] ∧ pumping.mayWrite 0x60010 8 = true ∧ (aMove 16385 (some 0x78000)).promote = some 0x78000) := by decide +kernel

/-- A request of this device for device 1. -/
def away (r : Req) : State := { alone with net := [(5, { r with pa := 2 ^ 44 + 0x2000 })] }

/-- Another device's request, an answer, a sealed packet of a session that is not open, a request that came back; requests held here before and
after their reach timeout; ordered flags. -/
theorem witness_FabricRequests :
    (({ aReq .load 4 with dev := 1 } : Req).dev ≠ alone.dev ∧ devOf (aReq .load 4).pa = alone.dev) ∧
    (let q := mget (away (aReq .load 4)).net 5
     (aReq .load 4).dev = alone.dev ∧ q.kind ≠ .none ∧ devOf q.pa ≠ alone.dev ∧ q.dev = alone.dev ∧ q.left = true) ∧
    (mget alone.sessions 0).state ≠ 2 ∧
    (({ away (aReq .load 4) with time := 8 * 1024 * 256 } : State).reachOver 0 = true ∧ (away (aReq .load 4)).reachOver 0 = false ∧
      (away (aReq .load 4)).pathOf (mget (away (aReq .load 4)).net 5) = some (0, 0) ∧ (away (aReq .load 4)).pathsFull 0 = false ∧
      (mget (away (aReq .load 4)).packetsOut 5).p = .none ∧
      ({ away (aReq .load 4) with ports := (List.range 36).map (fun i => (i, { (default : Port) with down := true })) } : State).pathOf
        (mget (away (aReq .load 4)).net 5) = none) ∧
    (let x : Session := { (default : Session) with state := 2, received := [(9, 0)] }
     let s : State := { alone with sessions := [(3, x)] }
     (mget s.sessions 3).state = 2 ∧ ∃ e ∈ (mget s.sessions 3).received, e.1 = 9) ∧
    (let s := away { aReq .load 4 with left := false, path := 63 }
     let r := mget s.net 5
     r.kind ≠ .none ∧ r.dev = s.dev ∧ devOf r.pa ≠ s.dev ∧ r.left = false ∧ r.path = 63 ∧ (mget s.colls 5).live = false ∧ s.copyOverdue 5 = false ∧
     (s.heldOver 5).isNone = true) ∧
    (let s := away { aReq .store 4 with left := false, path := 62 }
     (mget s.net 5).path = 62 ∧ (mget s.net 5).kind.isWrite = true ∧ (mget s.net 5).left = false ∧ s.copyOverdue 5 = false ∧ (s.heldOver 5).isNone = true) ∧
    (let s := away { aReq .store 4 with left := false, flagged := true, path := 62 }
     (mget s.net 5).flagged = true ∧ s.flagSum 5 true = 0 ∧ mget s.flagAsk 5 = 0 ∧ s.flagSum 5 false = 0 ∧ s.bridgeDown = false ∧
     (mget s.net 5).counted = false ∧ (mget s.net 5).path ≠ 60 ∧ s.uncounted 5 (mget s.net 5) = false ∧ s.Tidy ∧
     s.pathOf (mget s.net 5) = some (0, 0) ∧ s.pathsFull 0 = false ∧
     (∀ j ∈ [0, 1, 2, 3, 4, 6], (mget s.net j).flagged = true → (mget s.net j).left = true) ∧ mget ({ s with flagAsk := [(5, 1)] } : State).flagAsk 5 = 1) ∧
    ({ away { aReq .store 4 with left := false, flagged := true, path := 62 } with pathCnt := [(pathKey 0 1 0 1 0, 1)] } : State).flagSum 5 true ≠ 0 := by
  unfold State.Tidy
  refine ⟨by decide, by decide, by decide, by decide +kernel, by decide, by decide +kernel, by decide +kernel, by decide +kernel, by decide +kernel⟩

/-- A group of this device alone, an elastic one of devices 0 and 1 whose coordinator this is, one with a member behind session 9, and one of devices 0
and 1. -/
def grouped : State :=
  { paged with
    cgroup := [(1, 0x50000), (2, 0x51000), (3, 0x52000), (4, 0x53000)], pview := [(1, true)]
    mem := msetList (msetList (msetList (msetList (msetList (msetList (msetList (msetList paged.mem 0x50000 (leBytes 2 1)) 0x51000 (leBytes 3 0x10002))
      0x51010 (leBytes 8 (2 ^ 56))) 0x51018 (leBytes 8 (2 ^ 56 + 1))) 0x52000 (leBytes 2 2)) 0x52018 (leBytes 8 (2 ^ 63 + 9)))
      0x53000 (leBytes 2 2)) 0x53018 (leBytes 8 1) }
/-- They. -/
def aGroup : CollGroup := { pa := 0x50000, elastic := false, gen := 0, me := 0, members := [⟨false, 0, 0, 0⟩] }
def anElastic : CollGroup := { pa := 0x51000, elastic := true, gen := 0, me := 0, members := [⟨false, 1, 0, 0⟩, ⟨false, 1, 0, 1⟩] }
def aSessionGroup : CollGroup := { pa := 0x52000, elastic := false, gen := 0, me := 0, members := [⟨false, 0, 0, 0⟩, ⟨true, 0, 0, 9⟩] }
def aPair : CollGroup := { pa := 0x53000, elastic := false, gen := 0, me := 0, members := [⟨false, 0, 0, 0⟩, ⟨false, 0, 0, 1⟩] }

theorem witness_groups :
    grouped.collGroup 0 1 = .ok aGroup ∧ grouped.collGroup 0 2 = .ok anElastic ∧ grouped.collGroup 0 3 = .ok aSessionGroup ∧
    grouped.collGroup 0 4 = .ok aPair := by decide +kernel

/-- Demand and room in the window of 256 base cycles, and a full window; the ends of the port numbers; a member that is late; pulls
before and after a grant; a session that nears its limit and waits for an acknowledgement. -/
theorem witness_LinksAndSessions :
    (let s : State := { alone with demands := [(1023, 4096)], grantsUsed := 63 }
     (if s.grantWindow = s.time / 256 then s.grantsUsed else 0) < s.pace ∧ s.nextSource = some 1023) ∧
    (let s : State := { alone with grantsUsed := 64 }
     s.pace ≤ s.grantsUsed ∧ s.grantWindow = s.time / 256) ∧ 35 < 36 ∧
    (let key := collKey 0 2 1
     let s : State := { grouped with collOps := [(key, { (default : CollOp) with clock := 1 })], time := 2 ^ 40 }
     s.keyGroup (((key * 1024 + 1)) / 1024) = .ok anElastic ∧
     s.memberLate (anElastic.under (mget s.collOps key).head) ((key * 1024 + 1) / 1024) ((key * 1024 + 1) % 1024) = true) ∧
    (grouped.keyGroup (collKey 0 1 1) = .ok aGroup ∧ aGroup.elastic = false ∧ (mget grouped.collOps (collKey 0 1 1)).failed = 0) ∧
    (let q : Pull := { (default : Pull) with src := 1, n := 4096 }
     let s : State := { alone with pulls := [(3, q)] }
     (∀ e ∈ s.collOps, e.2.owed = []) ∧ alone.pulls = [] ∧ s.pulls = [(3, q)] ∧ q.n ≤ 4096 ∧ q.src ≠ s.dev ∧ mget s.credits 1 = 0 ∧ s.poisonAt q.pa q.n = none ∧
     (List.range (q.n + 1)).all (fun i => decide (devOf (q.pa + i) = s.dev) && s.inTiers (q.pa + i)) = true) ∧
    (let s : State := { alone with asked := [(1024 + 1, 4096)] }
     s.asked.find? (fun e => decide (e.1 % 1024 = 1)) = some (1025, 4096) ∧ s.asked.find? (fun e => decide (e.1 % 1024 = 2)) = none) ∧
    (let x : Session := { (default : Session) with state := 2, counter := 2 ^ 31 - 2 ^ 20, unacked := [(0, .none)] }
     let s : State := { alone with sessions := [(5, x)] }
     (mget s.sessions 5).state = 2 ∧ 2 ^ 31 - 2 ^ 20 ≤ (mget s.sessions 5).counter ∧ (mget s.sessions 5).rekeying = false ∧
     (mget s.sessions 5).unacked = (0, .none) :: [] ∧ s.sessionReady 5 = true) := by decide +kernel

/-- A session in a state, with the nonces of an exchange. -/
def aSession (state : Nat) (peer : List Byte) (rekeying : Bool := false) : Session :=
  { (default : Session) with state := state, ownNonce := [1], peerNonce := peer, rekeying := rekeying, doneNonce := [9] }

/-- A nonce that comes to a session that has failed, that has had it already, that is open and names no rekey, that is idle, that has asked itself, and
that is rekeyed; a key message to one that has failed, to one that is open, again and new, to one that has asked for none, and to ones that wait for it,
with the nonce that they know and with a new one. What the key message is worth is a free value of Config. -/
theorem witness_LinksAndSessions_keys :
    (aSession 3 []).state = 3 ∧ ((aSession 1 [7]).state ≠ 3 ∧ (aSession 1 [7]).peerNonce = [7]) ∧
    ((aSession 2 [7]).state = 2 ∧ (aSession 2 [7]).peerNonce ≠ [8]) ∧
    (¬((aSession 0 []).state = 1 ∨ (aSession 0 []).rekeying = true) ∧ (aSession 0 []).state ≠ 2) ∧
    ((aSession 1 []).state = 1 ∧ (aSession 1 []).peerNonce ≠ [7]) ∧ (aSession 2 [] true).rekeying = true ∧
    ((aSession 2 []).state = 2 ∧ (aSession 2 []).doneNonce = [9] ∧ (aSession 2 []).doneNonce ≠ [7]) ∧
    (aSession 1 [7]).peerNonce = [7] ∧ (aSession 1 []).peerNonce ≠ [7] ∧ (aSession 1 []).queued = [] ∧
    mget ({ alone with packetsIn := [(3, .hello 5 false [7])] } : State).packetsIn 3 = .hello 5 false [7] ∧
    mget ({ alone with packetsIn := [(3, .keyMessage 5 true [7] [8])] } : State).packetsIn 3 = .keyMessage 5 true [7] [8] := by decide

/-- A command of list 7, running for an operation of the placed crew. -/
def command (op flags group len a0 a1 arg : Nat) : List Byte :=
  leBytes 1 op ++ leBytes 1 flags ++ leBytes 2 group ++ leBytes 4 len ++ leBytes 8 a0 ++ leBytes 8 a1 ++ leBytes 8 arg
/-- The state that runs it. -/
def running (b : List Byte) (r : CollRun := default) : State :=
  { grouped with
    ops := [(2 ^ 60 * 3 + 1, { (default : Op) with kind := .clrun, crew := 1, launchId := 1 })]
    weirs := [(weirKey 0 0x800000 5, aWeir)]
    colls := [(7, { r with live := true, handle := mkHandle 3 0 1, cmd := b })] }

theorem runs_command (op flags group len a0 a1 arg : Nat) (r : CollRun) :
    (running (command op flags group len a0 a1 arg) r).runs 7 (command op flags group len a0 a1 arg) := by
  refine ⟨rfl, ?_, .inl rfl⟩
  simp [command, leBytes]

/-- The state in which list 7 runs a command. -/
def listed (b : List Byte) (r : CollRun := default) : State := (running b r).begun 7 b

/-- Lists that are cancelled and whose turn has not come; commands that are right and commands that break a rule, for each operation. -/
theorem witness_ListCommands :
    (running (command 0 0 0 0 0 0 0)).runs 7 (command 0 0 0 0 0 0 0) ∧
    (let s := running []
     let op : Op := { (default : Op) with kind := .clrun, crew := 1, launchId := 1, number := 1 }
     (mget s.colls 7).live = true ∧ (mget s.colls 7).cmd = [] ∧ (s.listOp 7).cancel = false ∧ s.listTurn (mget s.colls 7) = true ∧
     (({ s with ops := [(2 ^ 60 * 3 + 1, { op with cancel := true })] } : State).listOp 7).cancel = true ∧
     ({ s with ops := [(2 ^ 60 * 3 + 1, op), (2 ^ 60 * 3 + 2, { op with number := 2 })], colls := [(7, { mget s.colls 7 with handle := mkHandle 3 0 2 })] } : State).listTurn
       { mget s.colls 7 with handle := mkHandle 3 0 2 } = false) ∧
    (cmdOf (command 0 0 0 0 0 0 0) 0).bad = false ∧ (cmdOf (command 0 1 0 0 0 0 0) 0).bad = true ∧ (cmdOf (command 11 0 0 0 0 0 0) 0).bad = true ∧
    10 < (cmdOf (command 11 0 0 0 0 0 0) 0).op ∧
    (let c := cmdOf (command 5 0 0 0 0x3F05 0 0) 0
     c.bad = false ∧ c.op = 5 ∧ c.arg ≤ alone.timelineOf 0 (BitVec.ofNat 64 c.a0)) ∧
    (let c := cmdOf (command 5 0 0 0 0x3F05 0 1) 0
     c.bad = false ∧ alone.timelineOf 0 (BitVec.ofNat 64 c.a0) < c.arg) ∧ (cmdOf (command 5 0 0 0 0 0 1) 0).bad = true ∧
    (let c := cmdOf (command 6 0 0 0 0 0 5) 0
     let s := listed (command 6 0 0 0 0 0 5)
     let w := mget s.weirs (weirKey 0 (s.launchOf 1).group (nbits c.arg 0 16))
     c.bad = false ∧ c.op = 6 ∧ w.state = 1 ∧ (mget s.colls 7).weirGone = false ∧ phasePassed w.ph (BitVec.ofNat 32 c.a0) = false ∧
     phasePassed 1 (BitVec.ofNat 32 c.a0) = true ∧ (mget alone.weirs (weirKey 0 0x800000 5)).state = 0) ∧
    (cmdOf (command 6 0 0 0 0 0 0) 0).bad = true ∧
    (let c := cmdOf (command 7 0 63 0 0 0 1) 0
     c.bad = false ∧ c.op = 7) ∧ (cmdOf (command 7 0 64 0 0 0 1) 0).bad = true := by
  refine ⟨runs_command _ _ _ _ _ _ _ _, ?_⟩
  decide +kernel

/-- What list 7's read gives, when it can be made. -/
def readOf (x : RdRes × State) : Option (List Byte) := match x.1 with | .ok l => some l | _ => none
/-- The read of list 7. -/
abbrev read7 (s : State) (va n : Nat) : RdRes × State := s.listRead (mget s.colls 7) (s.listOp 7) va n
/-- The read of list 7 in another state. -/
abbrev read7From (s0 s : State) (va n : Nat) : RdRes × State := s.listRead (mget s0.colls 7) (s0.listOp 7) va n

/-- A first part of its results can be written by list 7. -/
abbrev writes7 (s : State) (va : Nat) (b : List Byte) : Prop :=
  let r := mget s.colls 7
  let op := s.listOp 7
  let tok := opToken r.handle.toNat
  r.formed = true ∧ r.out = [(va, b)] ∧ s.pagesMissed tok op.engine op.part op.space (r.out.map (fun y => (y.1, y.2.length))) = [] ∧
    (let lines := s.virtLines op.engine op.part op.space va b.length permW
     (s.walksDone tok).listOpen op lines = true ∧
     wrote ((s.walksDone tok).wrVirtBy tok (!lines.all r.lines.contains) op.engine op.part op.space va b) = true)

/-- COMPRESS and DECOMPRESS of no elements, without and with residuals; one with a part of its results to write, and with none; a LEN that breaks the
rule. -/
theorem witness_ListCommands_codec :
    (let b := command 8 0x20 0 0 0x2000 0x3000 0
     let c := cmdOf b 0
     c.bad = false ∧ c.op = 8 ∧ c.arg = 0 ∧ (mget (listed b).colls 7).formed = false ∧ readOf (read7 (listed b) c.a0 c.len) = some []) ∧
    (let b := command 8 0x20 0 0 0x2000 0x3000 0x4000
     let c := cmdOf b 0
     c.bad = false ∧ c.arg ≠ 0 ∧ readOf (read7 (listed b) c.a0 c.len) = some [] ∧
     readOf (read7From (listed b) (read7 (listed b) c.a0 c.len).2 c.arg (4 * c.elems)) = some []) ∧
    (let b := command 8 0x20 0 0 0x2000 0x3000 0
     writes7 (listed b { (default : CollRun) with formed := true, out := [(0x3000, [7])] }) 0x3000 [7] ∧
     (mget (listed b { (default : CollRun) with formed := true }).colls 7).out = []) ∧
    (let b := command 9 0x20 0 0 0x2000 0x3000 0
     let c := cmdOf b 0
     c.bad = false ∧ c.op = 9 ∧ c.arg = 0 ∧
     readOf (read7 (listed b) c.a0 (c.elems / 256 * groupBytes c.fmt)) = some []) ∧
    (let b := command 9 0x20 0 0 0x2000 0x3000 1
     let c := cmdOf b 0
     let x := read7 (listed b) c.a0 (c.elems / 256 * groupBytes c.fmt)
     c.bad = false ∧ c.arg ≠ 0 ∧ readOf x = some [] ∧ readOf (read7From (listed b) x.2 c.a1 c.len) = some []) ∧
    (cmdOf (command 8 0x20 0 1 0x2000 0x3000 0) 0).bad = true ∧ (cmdOf (command 9 0x60 0 0 0x2000 0x3000 0) 0).bad = true := by decide +kernel

/-- SEND and RECV of 4 bytes to the member itself, before, while they are written, and after the last part. -/
theorem witness_CollectiveOperations :
    (running (command 1 0 1 4 0x2000 0x3000 0)).runs 7 (command 1 0 1 4 0x2000 0x3000 0) ∧
    (listed (command 1 0 1 4 0x2000 0x3000 0)).collGroup 0 1 = .ok aGroup := by
  refine ⟨runs_command _ _ _ _ _ _ _ _, by decide +kernel⟩

theorem witness_CollectiveOperations_send :
    let b := command 1 0 1 4 0x2000 0x3000 0
    let c := cmdOf b 0
    let m := aGroup.at_ c.rank
    let s := listed b
    let r := mget s.colls 7
    c.bad = false ∧ c.rank < aGroup.n ∧ m.ext = false ∧ c.op = 1 ∧ r.formed = false ∧ r.done < c.len ∧ r.cause = 0 ∧ m.id = s.dev ∧
    partLen c.a1 0 c.len = 4 ∧ readOf (read7 s (c.a0 + 0) 4) = some [0, 0, 0, 0] ∧
    (match (read7 s (c.a0 + 0) 4).2.toMember 7 r (s.listOp 7) m c.a1 0 4 31 (weirKey 0 m.wgrp c.weir) [0, 0, 0, 0] with
      | .ok _ => true | _ => false) = true ∧
    (let s : State := { s with dev := 1 }
     (match (read7 s (c.a0 + 0) 4).2.toMember 7 r (s.listOp 7) m c.a1 0 4 31 (weirKey 0 m.wgrp c.weir) [0, 0, 0, 0] with
      | .fault _ => true | _ => false) = true) ∧
    (let s := listed b { (default : CollRun) with formed := true, out := [(0x3000, [7])] }
     s.listOpen (s.listOp 7) (linesOf 0x3000 1) = true ∧ (match s.bulkPhys (opToken (mget s.colls 7).handle.toNat) 0 0x3000 [7] 0 0 with
       | some (_, 0) => true | _ => false) = true) ∧
    (mget (listed b { (default : CollRun) with done := 4 }).colls 7).done = c.len := by decide +kernel

/-- SEND to device 1, whose last part waits for the others to perform. -/
theorem witness_CollectiveOperations_away :
    let b := command 1 0 4 200 0x2000 0x3000 1
    let c := cmdOf b 0
    let m := aPair.at_ c.rank
    let r := mget (listed b { (default : CollRun) with done := 128 }).colls 7
    (listed b).collGroup 0 c.group = .ok aPair ∧ c.bad = false ∧ m.ext = false ∧ ¬(m.id = alone.dev ∨ r.landed = r.done) ∧
    r.done + partLen c.a1 r.done c.len = c.len ∧ r.formed = false := by decide +kernel

/-- RECV from this device, with its part to read, to write and written; from device 1, before it has asked and after. -/
theorem witness_CollectiveOperations_recv :
    let b := command 2 0 1 4 0x2000 0x3000 0
    let c := cmdOf b 0
    let s := listed b
    (c.bad = false ∧ c.op = 2 ∧ (mget s.colls 7).formed = false ∧ (mget s.colls 7).up = false ∧ (mget s.colls 7).done < c.len ∧
     (match s.memberSpans (mget s.colls 7) (s.listOp 7) 0 0x3000 4 permR with | (.ok l, _) => decide (l = [(0, 0x3000, 4)]) | _ => false) = true ∧
     (s.poisonAt 0x3000 4).isSome = false ∧ s.listOpen (s.listOp 7) (linesOf 0x3000 4) = true) ∧
    writes7 (listed b { (default : CollRun) with formed := true, out := [(0x2000, [7])] }) 0x2000 [7] ∧
    (mget (listed b { (default : CollRun) with formed := true }).colls 7).out = [] ∧
    (s.inView 0 1 = true ∧ s.canReach ⟨false, 0, 0, 1⟩ = true ∧ (1 : Nat) ≠ s.dev ∧
     (match s.memberSpans (mget s.colls 7) (s.listOp 7) 1 0x3000 4 permR with | (.ok _, _) => true | _ => false) = true ∧
     (mget (listed b { (default : CollRun) with up := true }).colls 7).up = true ∧
     (cmdOf (command 2 0 4 4 0x2000 0x3000 1) 0).bad = false ∧ (aPair.at_ (cmdOf (command 2 0 4 4 0x2000 0x3000 1) 0).rank).id = 1) := by decide +kernel

/-- SEND and RECV of a member behind a session that has failed, and behind one that is open, before and after all has been asked for. -/
theorem witness_CollectiveOperations_session :
    (∀ n ∈ [1, 2], let c := cmdOf (command n 0 3 4 0x2000 0x3000 1) 0
      c.bad = false ∧ c.op = n ∧ c.rank < aSessionGroup.n ∧ (aSessionGroup.at_ c.rank).ext = true ∧ (aSessionGroup.at_ c.rank).id = 9) ∧
    (listed (command 2 0 3 4 0x2000 0x3000 1)).collGroup 0 3 = .ok aSessionGroup ∧
    ({ alone with sessions := [(9, aSession 2 [])] } : State).sessionReady 9 = true ∧
    (mget ({ alone with sessions := [(9, aSession 3 [])] } : State).sessions 9).state = 3 ∧
    (let r := mget (listed (command 2 0 3 4 0x2000 0x3000 1)).colls 7
     r.cause = 0 ∧ r.done < 4 ∧ r.landed < 4) ∧
    4 ≤ (mget (listed (command 2 0 3 4 0x2000 0x3000 1) { (default : CollRun) with landed := 4 }).colls 7).landed := by decide +kernel

/-- REDUCE before its contribution, with what it reads and where its result goes. -/
theorem witness_CollectiveOperations_reduce :
    let b := command 3 8 1 64 0x2000 0x3000 0
    let c := cmdOf b 0
    let s := listed b { (default : CollRun) with op := collKey 0 1 1 + 1 }
    let r := mget s.colls 7
    let x := s.memberSpans r (s.listOp 7) s.dev c.a1 c.len permW
    c.bad = false ∧ c.op = 3 ∧ c.all_ = true ∧ r.op ≠ 0 ∧ (mget s.collOps (r.op - 1)).has aGroup.me = false ∧
    (mget s.collOps (r.op - 1)).closed = false ∧ (mget s.collOps (r.op - 1)).failed = 0 ∧
    (match x.1 with | .ok _ => true | _ => false) = true ∧ readOf (x.2.listRead r (s.listOp 7) c.a0 c.len) = some (List.replicate 64 0) ∧
    writes7 (listed b { (default : CollRun) with formed := true, out := [(0x3000, [7])] }) 0x3000 [7] := by decide +kernel

/-- REDUCE, MCAST and BARRIER before they join; an operation that has failed; BARRIER before and after its contribution; the result of REDUCE
written by its one member; the members that do not receive. -/
theorem witness_CollectiveOperations_join :
    (mget (running (command 10 0 1 0 0 0 0)).colls 7).op = 0 ∧
    (let key := collKey 0 1 1
     let r : CollRun := { (default : CollRun) with op := key + 1 }
     let s := running (command 10 0 1 0 0 0 0) r
     (mget s.colls 7).op ≠ 0 ∧ ({ (default : CollOp) with failed := 2 } : CollOp).failed ≠ 0 ∧ (mget s.collOps key).failed = 0 ∧
     (cmdOf (command 10 0 1 0 0 0 0) 0).bad = false ∧ (cmdOf (command 10 0 1 0 0 0 0) 0).op = 10 ∧ aGroup.elastic = false ∧
     (∀ x ∈ aGroup.members, x.ext = false) ∧ (mget s.collOps key).has aGroup.me = false ∧ (mget s.collOps key).closed = false) ∧
    (let o : CollOp := { (default : CollOp) with here := [(0, true)], ready := true, result := List.replicate 16 0, landed := 64 }
     o.has 0 = true ∧ o.disagrees = false ∧ o.ready = true ∧ (aGroup.children 0).length ≤ 0 ∧
     (cmdOf (command 3 8 1 64 0x2000 0x3000 0) 0).all_ = true ∧ (cmdOf (command 3 8 1 64 0x2000 0x3000 0) 0).bad = false ∧
     (mget (listed (command 3 8 1 64 0x2000 0x3000 0)).colls 7).formed = false ∧
     (aGroup.children 0).length + aGroup.n ≤ ({ (default : CollRun) with served := 1 } : CollRun).served ∧ o.acked = 64 * alone.podBelow aGroup aGroup.n ∧
     (cmdOf (command 3 0 1 64 0x2000 0x3000 1) 0).all_ = false ∧ aGroup.me ≠ (cmdOf (command 3 0 1 64 0x2000 0x3000 1) 0).rank ∧
     (cmdOf (command 4 0 1 64 0x2000 0x3000 1) 0).op = 4 ∧ (cmdOf (command 4 0 1 64 0x2000 0x3000 1) 0).len ≤ o.landed) := by
  decide +kernel

/-- Idle times that have just passed, and one cycle less; the last core, port and channel; a load at a port that is down; temperatures at 105 and 120
degrees, also of a chiplet with ERR set that is in service. -/
theorem witness_PowerAndTemperature :
    (let s : State := { alone with time := 128 }
     767 < 768 ∧ 15 < 16 ∧ (∀ o ∈ s.occupants 767, o.1 ≠ 15) ∧ mget (s.core 767).sliceUsed 15 + 64 ≤ s.clock ∧
     (alone.clock < mget (alone.core 767).sliceUsed 15 + 64)) ∧
    (let s : State := { alone with time := 8192 }
     (mget s.ctxs (ctxKey 2 767)).issued = (mget s.ctxs (ctxKey 2 767)).timeline ∧ (s.core 767).arrayUsed + 256 ≤ s.clock ∧
     (s.core 767).arrayFree + 512 ≤ s.time ∧ (s.core 767).cistUsed + 4096 ≤ s.clock ∧ mget s.routerDown 0 = false ∧
     mget s.routerUsed 0 + 8192 ≤ s.time ∧
     s.time % 1024 = 0 ∧ s.windowAt < s.time) ∧ alone.time < mget alone.routerUsed 0 + 8192 ∧
    (let s : State := { alone with time := 8 * 2 ^ 30 }
     35 < 36 ∧ (mget s.ports 35).usedAt + 2 ^ 20 ≤ s.time ∧ (mget s.ports 35).queue = 0 ∧ 511 < 512 ∧ mget s.channelUsed 511 + 65536 ≤ s.time ∧
     s.scrubAt + 2 ^ 30 ≤ s.ltime ∧ alone.ltime < alone.scrubAt + 2 ^ 30) ∧
    (let s : State := { sent (aReq .load 4) with routerDown := [(0, true)] }
     s.reaches 5 (mget s.net 5) = true ∧ s.arrives 5 (mget s.net 5) = false ∧ (mget s.net 5).kind = .load) ∧
    (let s : State := { alone with sensors := [(255, 105)] }
     63 < 64 ∧ (∃ j < 4, 105 ≤ mget s.sensors (4 * 63 + j)) ∧ ∀ j < 4, mget s.sensors (4 * 62 + j) < 105) ∧
    (let s : State := { alone with sensors := [(252, 120)] }
     (∃ j < 4, 120 ≤ mget s.sensors (4 * 63 + j)) ∧ (s.chip 63).getLsbD 2 = false ∧
     ({ s with chipctl := [(63, 6)] } : State).fenced 63 = false) := by
  refine ⟨by decide +kernel, by decide +kernel, by decide +kernel, by decide +kernel, by decide +kernel, ⟨by decide, ⟨3, by decide, by decide⟩, by decide⟩,
    ⟨⟨0, by decide, by decide⟩, by decide⟩⟩

theorem reset_tidy : State.reset.Tidy := by unfold State.Tidy; decide

/-- Errors of a line, a chiplet and an L1; a device at each end of the bring-up, one that stops and one that goes on, and one that has stopped, with
nothing to do and with a register access. -/
theorem witness_ErrorsAndBringUp :
    (mget ({ alone with errIn := [(3, .line 0 0x2000)] } : State).errIn 3 = .line 0 0x2000 ∧
      mget ({ alone with errIn := [(3, .chiplet 63)] } : State).errIn 3 = .chiplet 63 ∧
      mget ({ alone with errIn := [(3, .l1 767)] } : State).errIn 3 = .l1 767 ∧ 1 < 2) ∧
    (State.reset.bootstat.getLsbD 8 = false ∧ State.reset.bootstat.toNat % 16 = 0 ∧ 0 < 8) ∧
    (({ State.reset with bootstat := 8 } : State).bootstat.toNat % 16 = 8) ∧
    (let s : State := { State.reset with bootstat := 7 }
     s.bootstat.getLsbD 8 = false ∧ s.bootstat.toNat % 16 = 7) ∧
    (let s : State := { State.reset with bootstat := 2, tests := { (default : SelfTests) with hbm := 1 } }
     s.bootstat.toNat % 16 = 2 ∧ s.tests.hbm ≠ 0) ∧
    (let s : State := { State.reset with bootstat := 0x100 }
     s.bootstat.getLsbD 8 = true ∧ s.mmioIn = []) ∧
    (let s : State := { mmio 0 false true with bootstat := 0x100 }
     s.bootstat.getLsbD 8 = true ∧ s.mmioIn = [(3, mget s.mmioIn 3)] ∧ s.mmioAccess 3 .bootstat ∧ (mget s.mmioIn 3).write = false) := by
  unfold State.mmioAccess
  refine ⟨by decide, by decide, by decide, by decide, by decide, by decide, by decide +kernel⟩

/-- Where a step begins: a sub-gang that issues, a word that the fetch reaches and that decodes; a named step; nothing to do; a stop. -/
theorem witness_StepRunsDecodedInstruction :
    (let s := State.reset.withFetchWord 32 0x200C0820
     let x : Issue × List Issue := (⟨1, 0, [0]⟩, [])
     s.bootstat.getLsbD 8 = false ∧ s.agenda = [] ∧ (match s.nextIssue with | some y => decide (y.1 = x.1) | none => false) = true ∧
     (s.strand 1 0).walkFaults = [] ∧ s.xlate 0 (domOf 0) 0 0 0x1000 permX = .ok 0x1000 ∧ s.cachedWord 0 0x1000 = none ∧
     s.poisoned 0x1000 = false ∧ devOf 0x1000 = s.dev ∧
     decode (BitVec.ofNat 32 (leNat (mgetList s.mem 0x1000 4))) = .ok (.add ⟨false, .v 3, .v 1, .v 2⟩)) ∧
    ({ State.reset with agenda := [.scrub] } : State).agenda = [.scrub] ∧
    (State.reset.agenda = [] ∧ State.reset.nextIssue.isNone = true ∧ State.reset.bootstat.getLsbD 8 = false) ∧
    ({ State.reset with bootstat := 0x100 } : State).bootstat.getLsbD 8 = true := by
  refine ⟨by decide +kernel, by decide, by decide +kernel, by decide⟩

/-- A step from a tidy state, and a word that is an encoding. -/
theorem witness_StepKeepsTidy :
    State.reset.Tidy ∧ (match step State.reset with | .next _ => true | _ => false) = true := ⟨reset_tidy, by decide +kernel⟩
theorem witness_DecodingOfEncodings :
    (Instr.add ⟨false, .v 3, .v 1, .v 2⟩).wellFormed = true ∧ encode (.add ⟨false, .v 3, .v 1, .v 2⟩) = some 0x200C0820 := by decide
theorem witness_EncodingOfDecodings : decode 0x200C0820 = .ok (.add ⟨false, .v 3, .v 1, .v 2⟩) := by decide

/-! Ill-formed terms, one for each check. -/

theorem smoke_latch_r : (Instr.add ⟨true, .v 1, .v 0, .v 0⟩).wellFormed = false := by decide
theorem smoke_latch_r2 : (Instr.fabs ⟨true, .s 0, .v 0⟩).wellFormed = false := by decide
theorem smoke_latch_i : (Instr.andi ⟨true, .o 2, .v 0, 5⟩).wellFormed = false := by decide
theorem smoke_latch_shift : (Instr.ishiRol ⟨true, .v 63, .v 0, 5⟩).wellFormed = false := by decide
theorem smoke_latch_l : (Instr.movi true (.v 2) 5).wellFormed = false := by decide
theorem smoke_latch_slot : (Instr.qnt ⟨true, .v 1, .v 0, 3⟩).wellFormed = false := by decide
theorem smoke_latch_sel : (Instr.sel 2 ⟨true, .v 1, .v 0, .v 0⟩).wellFormed = false := by decide
theorem smoke_half_word : (Instr.movh (.v 1) 2 7).wellFormed = false ∧ (Instr.movh (.o 1) 3 7).wellFormed = false := by decide
theorem smoke_element_type :
    (Instr.cvt ⟨false, .v 1, .v 0, 9⟩).wellFormed = false ∧ (Instr.pack ⟨false, .v 1, .v 0, 15⟩).wellFormed = false ∧
    (Instr.unpk ⟨false, .v 1, .v 0, 9⟩).wellFormed = false := by decide
theorem smoke_loop : (Instr.loop 0 (.s 3)).wellFormed = false := by decide
theorem smoke_load :
    (Instr.ld ⟨.v 0, 0, .v 1, 7, 0, 0⟩).wellFormed = false ∧ (Instr.ld ⟨.v 0, 0, .v 1, 2, 2, 0⟩).wellFormed = false ∧
    (Instr.lda ⟨.v 0, 0, .v 1, 7, 0⟩).wellFormed = false ∧ (Instr.lda ⟨.v 0, 0, .v 1, 2, 2⟩).wellFormed = false := by decide
theorem smoke_store :
    (Instr.st ⟨.v 0, 0, .v 1, 5, 0, 0⟩).wellFormed = false ∧ (Instr.stp ⟨.v 0, 0, .v 1, 2, 1, 0⟩).wellFormed = false ∧
    (Instr.sta ⟨.v 0, 0, .v 1, 5, 0⟩).wellFormed = false ∧ (Instr.stx ⟨.v 0, 0, .v 1, 2, 1⟩).wellFormed = false ∧
    (Instr.puta ⟨.v 0, 0, .v 1, 5, 0⟩ true).wellFormed = false ∧ (Instr.mst ⟨.v 0, 0, .v 1, 2, 1⟩).wellFormed = false := by decide
theorem smoke_scope :
    (Instr.fenceAcq 7).wellFormed = false ∧ (Instr.fenceRel 7).wellFormed = false ∧ (Instr.fenceAr 7).wellFormed = false ∧
    (Instr.fenceSc 7).wellFormed = false ∧ (Instr.fenceAcks 7).wellFormed = false := by decide
theorem smoke_term : (Instr.term 3 0).wellFormed = false := by decide

/-! Words of each family, bit by bit in the fields of R142, with the major opcodes of R153 and the functions of R154. -/

-- F-R: major, N, D, A, B, fn
theorem word_sys : decode 0b000000_0_0000011_0001010_0000000_0001 = .ok (.spr (.v 3) 10) ∧
    decode 0b000000_0_0000000_0000101_0000000_0010 = .ok (.brk 5) := by decide
theorem word_ctl : decode 0b000111_0_0000000_1101001_0000000_0001 = .ok (.jr (.s 9)) ∧
    decode 0b000111_0_0000000_0000000_0000000_0101 = .ok .lbrk := by decide
theorem word_ialu : decode 0b001000_0_0000011_0000001_0000010_0000 = .ok (.add ⟨false, .v 3, .v 1, .v 2⟩) ∧
    decode 0b001000_1_0000000_1100010_1000001_0110 = .ok (.rem ⟨true, .v 0, .s 2, .o 1⟩) := by decide
theorem word_ilog : decode 0b001001_0_0000001_0000010_1100100_1100 = .ok (.bfx ⟨false, .v 1, .v 2, .s 4⟩) ∧
    decode 0b001001_0_0000111_0010011_0001001_1110 = .ok (.crc ⟨.v 7, .v 19, .v 9⟩) := by decide
theorem word_icmp : decode 0b001010_0_0000011_0000001_1100010_0110 = .ok (.icmpTst ⟨3, .v 1, .s 2⟩) := by decide
theorem word_falu : decode 0b001011_0_0000101_1001000_1100011_0011 = .ok (.fma ⟨.v 5, .l 0, .s 3⟩) ∧
    decode 0b001011_0_0000010_0000001_0000000_1001 = .ok (.frcp ⟨false, .v 2, .v 1⟩) := by decide
theorem word_fcmp : decode 0b001100_0_0000010_0000011_0000011_0110 = .ok (.fcmpUn ⟨2, .v 3, .v 3⟩) := by decide
theorem word_cvt : decode 0b001101_0_0000011_0000010_0000110_0000 = .ok (.cvt ⟨false, .v 3, .v 2, 6⟩) ∧
    decode 0b001101_0_0000011_0000010_0000011_0101 = .ok (.nest ⟨false, .v 3, .v 2, 3⟩) := by decide
theorem word_xlane : decode 0b001110_0_1100100_0000001_0000000_1001 = .ok (.ballot (.s 4) 1) ∧
    decode 0b001110_0_1101000_0000011_0000000_1100 = .ok (.wrds (.s 8) (.v 3)) := by decide
theorem word_pred : decode 0b001111_0_0000011_0000001_0000010_0000 = .ok (.pand 3 1 2) ∧
    decode 0b001111_0_0000100_0000010_0000110_1010 = .ok (.sel 2 ⟨false, .v 4, .v 2, .v 6⟩) := by decide
theorem word_fence : decode 0b100100_0_0000011_0000000_0000000_0010 = .ok (.fenceAr 3) := by decide
theorem word_psys : decode 0b110000_0_0000000_0000000_0000000_0000 = .ok .eret := by decide

-- F-I: major, N, D, A, imm11; F-L: major, N, D, imm18
theorem word_addi : decode 0b010000_0_0000010_0000010_00000000001 = .ok (.addi ⟨false, .v 2, .v 2, 1⟩) ∧
    decode 0b010100_0_1100101_1100101_00000001000 = .ok (.uaddi (.s 5) (.s 5) 8) := by decide
theorem word_ishi : decode 0b010101_0_0000011_0000010_0000_10_00100 = .ok (.ishiSar ⟨false, .v 3, .v 2, 4⟩) := by decide
theorem word_andi : decode 0b010110_0_0000010_0000000_11111111111 = .ok (.andi ⟨false, .v 2, .v 0, -1⟩) := by decide
theorem word_movi : decode 0b010001_0_1100011_000000000000000011 = .ok (.movi false (.s 3) 3) ∧
    decode 0b010010_0_1100011_10_0001001000110100 = .ok (.movh (.s 3) 2 0x1234) := by decide

-- F-B: major, H, P, K, offset; F-BU: major, 0, S, cond, offset; F-J: major, offset; LOOP and MODE
theorem word_br : decode 0b000010_1_011_1_000000000000000000101 = .ok (.br true 3 5) ∧
    decode 0b000010_0_010_0_111111111111111111110 = .ok (.brn false 2 (-2)) := by decide
theorem word_bru : decode 0b000011_0_00111_01_111111111111111100 = .ok (.bru 7 1 0x3FFFC) := by decide
theorem word_jmp : decode 0b000100_00000000000000000000000100 = .ok (.jmp 4) ∧
    decode 0b000101_11111111111111111111111111 = .ok (.call (-1)) := by decide
theorem word_loop : decode 0b000110_00000110_1100011_00000000000 = .ok (.loop 6 (.s 3)) := by decide
theorem word_mode : decode 0b000001_010_00000000000000000000101 = .ok (.modeRm 5) ∧
    decode 0b000001_001_00000000000000000000110 = .ok (.modeEt 6) := by decide

-- F-M: major, X, S base, I, Z, O, H; F-MA: major, X, S base, I, aop, O, Q
theorem word_ld : decode 0b011000_0000100_00010_0000001_010_01_00 = .ok (.ld ⟨.v 4, 2, .v 1, 2, 1, 0⟩) ∧
    decode 0b011010_0000100_00010_1100001_001_10_11 = .ok (.stp ⟨.v 4, 2, .s 1, 1, 2, 3⟩) := by decide
theorem word_lda : decode 0b011101_0000100_00010_0000001_101_00_00 = .ok (.lda ⟨.v 4, 2, .v 1, 5, 0⟩) ∧
    decode 0b100001_0000100_00010_0000001_010_00_01 = .ok (.puta ⟨.v 4, 2, .v 1, 2, 0⟩ true) := by decide
theorem word_mhint : decode 0b100011_0000101_00010_0000001_001_00_00 = .ok (.phint (.v 5) 2 (.v 1)) := by decide
theorem word_atom : decode 0b011011_0000110_00100_1100101_1010_00_1 = .ok (.atomIncb ⟨.v 6, 4, .s 5, 0, true⟩) ∧
    decode 0b011100_0001000_00100_0000101_0101_11_0 = .ok (.atomwCas128 ⟨.v 8, 4, .v 5, 3, false⟩) ∧
    decode 0b011111_0000110_00100_1100101_1001_00_0 = .ok (.atomaFadd ⟨.v 6, 4, .s 5, 0⟩) := by decide

-- F-E: major, Sd, Sa, Sb, Sc, fn
theorem word_ualu : decode 0b010011_00001_00010_00011_00000_000000 = .ok (.uadd 1 2 3) := by decide
theorem word_weir : decode 0b100101_00100_00101_00110_00000_000001 = .ok (.warr 4 5 6) ∧
    decode 0b100101_00000_00000_00000_00000_000100 = .ok .cbar := by decide
theorem word_fut : decode 0b100110_00100_00101_00110_00000_000101 = .ok (.fjoin 4 5 6) := by decide
theorem word_cpy : decode 0b100111_01010_01011_01100_01101_000010 = .ok (.cpyG2c 10 11 12 13) := by decide
theorem word_coll : decode 0b101011_00001_00010_00011_00000_000000 = .ok (.clrun 1 2 3) := by decide
theorem word_lnch : decode 0b101100_00001_00010_00000_00000_000000 = .ok (.launch 1 2) := by decide

-- F-X: major, A, T, Sb, slot A, slot B, Sf, Z, K, W, 0; F-T: major, 0, D, sel, RC, S index, imm4, fn
theorem word_mma : decode 0b101000_01_0010_00110_000_001_01001_0_1_0_0 = .ok (.mma ⟨1, 2, 6, 0, 1, 9, false, true, false⟩) := by decide
theorem word_acc : decode 0b101001_0_0000100_00_10_1_00011_0101_0100 = .ok (.amov ⟨.v 4, 2, true, 3, 5⟩) ∧
    decode 0b101001_0_0000000_01_10_0_00000_0000_0011 = .ok (.arfold 1 2) := by decide
theorem word_tile : decode 0b101010_0_0000100_0110_0_00011_0101_0011 = .ok (.tmov ⟨.v 4, 6, false, 3, 5⟩) ∧
    decode 0b101010_0_0000000_1111_0_00011_0000_0001 = .ok (.tld 15 3) := by decide

/-- R156: a reserved major, an unassigned function, a nonzero unused field, N = 1 where D is read, a reserved order, a length of 0, a hint of LDA. -/
theorem word_refused :
    decode 0b010111_0_0000000_0000000_0000000_0000 = .error .reservedMajor ∧
    decode 0b001000_0_0000010_0000000_1001100_1110 = .error .unassignedFunction ∧
    decode 0b000000_0_0000001_0000000_0000000_0000 = .error .reservedField ∧
    decode 0b001011_1_0000000_0000100_0000010_0011 = .error .latchForm ∧
    decode 0b011000_0000100_00010_0000001_010_10_00 = .error .reservedOrder ∧
    decode 0b000110_00000000_1100011_00000000000 = .error .reservedValue ∧
    (match decode 0b011101_0000100_00010_0000001_010_00_01 with | .ok _ => false | _ => true) = true := by decide

/-! One step on the machine that holds one word at its pc. -/

/-- A property of the state that one step answers. -/
def after (w : Nat) (f : State → Bool) : Bool :=
  match step (State.reset.withFetchWord 32 w) with
  | .next t => f t
  | _ => false

/-- One step of a word in a machine whose strand has been changed. -/
def afterWith (g : Strand → Strand) (w : Nat) (f : Strand → Bool) : Bool :=
  let s := State.reset.withFetchWord 32 w
  match step (s.setStrand 1 0 (g (s.strand 1 0))) with
  | .next t => f (t.strand 1 0)
  | _ => false

/-- CRC32C of one byte "1" from all ones, by hand from the reflected polynomial: the remainder whose complement is 0x90F599E3 (R203). -/
theorem test_crc : crcBytes 1 0 0x31 0xFFFFFFFF ^^^ 0xFFFFFFFF = 0x90F599E3 := by decide
/-- The check value of CRC32C over "123456789", eight bytes and one. -/
theorem test_crc_check :
    crcBytes 1 0 0x39 (crcBytes 4 0 0x38373635 (crcBytes 4 0 0x34333231 0xFFFFFFFF)) ^^^ 0xFFFFFFFF = 0xE3069283 := by decide
/-- NOP moves the pc by 4. -/
theorem test_nop : after 0 (fun t => (t.strand 1 0).pc == 0x1004) = true := by decide +kernel
/-- MOVI S3, -1 sign-extends. -/
theorem test_movi : after 0x458FFFFF (fun t => (t.strand 1 0).sreg 3 == 0xFFFFFFFFFFFFFFFF) = true := by decide +kernel
/-- An illegal word traps at its own address and leaves the pc in TEPC (R156, R301). -/
theorem test_illegal : after 0xFFFFFFFF (fun t => (t.strand 1 0).tepc == 0x1000 && (t.strand 1 0).handler) = true := by decide +kernel
/-- CALL writes the address of the next instruction to S31 (R145). -/
theorem test_call : after 0b000101_00000000000000000000000011 (fun t => (t.strand 1 0).sreg 31 == 0x1004 && (t.strand 1 0).pc == 0x1010) = true := by
  decide +kernel
/-- UADD wraps at 64 bits (R224). -/
theorem test_uadd :
    afterWith (fun st => (st.setS 2 (-1)).setS 3 2) 0b010011_00001_00010_00011_00000_000000 (fun st => st.sreg 1 == 1) = true := by decide +kernel
/-- ADD V3, V1, V1 of U32 elements wraps in thread 5 (R193). -/
theorem test_add :
    afterWith (fun st => { st.setS 2 0x80000001 with mr := st.mr }) 0b001000_0_0000011_1100010_1100010_0000
      (fun st => st.src (.v 3) 5 == 2) = true := by decide +kernel

end Sys2Proof.Tests
end

section
/-! What the reset of a chiplet leaves of the machine (R315, R316): the fields that no loss of a crew touches, and the crews that stay resident. -/

namespace Sys2Proof.Machine

/-! The loss of crews. -/

/-- The machine without the fields that the loss of a crew, the end of its launch and the launch's completion word may write. -/
def State.spared (s : State) : State :=
  { s with crews := [], sfrq := [], launches := [], ops := [], results := [], ctxs := [], net := [], home := [], back := [], nextId := 0
           held := [], packetsOut := [], ports := [], activity := [], issueQ := [], weirs := [], cores := [], mem := [], seqs := []
           poison := [], msix := [] }

/-- From s to t no field but those has changed, and each crew that is resident in t was resident on the same core in s. -/
def Spares (s t : State) : Prop :=
  t.spared = s.spared ∧ ∀ u, (t.crew u).resident = true → (s.crew u).resident = true ∧ (t.crew u).core = (s.crew u).core

theorem Spares.refl (s : State) : Spares s s := ⟨rfl, fun _ h => ⟨h, rfl⟩⟩

theorem Spares.trans {s t r : State} (h : Spares s t) (g : Spares t r) : Spares s r :=
  ⟨g.1.trans h.1, fun u hu => ⟨(h.2 u (g.2 u hu).1).1, (g.2 u hu).2.trans (h.2 u (g.2 u hu).1).2⟩⟩

/-- A step that leaves the crews as they are spares them. -/
theorem Spares.of_crews {s t : State} (h : t.spared = s.spared) (hc : t.crews = s.crews) : Spares s t :=
  ⟨h, fun u hu => by simpa only [State.crew, hc, and_true] using hu⟩

/-- Any field of t but those that `State.spared` leaves out. -/
theorem Spares.field {s t : State} (h : Spares s t) {α : Sort _} (f : State → α) : f t.spared = f s.spared := by rw [h.1]

theorem Spares.foldl {α : Type} {f : State → α → State} (h : ∀ s a, Spares s (f s a)) : ∀ (l : List α) (s : State), Spares s (l.foldl f s)
  | [], s => .refl s
  | a :: r, s => (h s a).trans (Spares.foldl h r (f s a))

theorem Spares.ite {p : Prop} [Decidable p] {s t r : State} (h : Spares s t) (g : Spares s r) : Spares s (if p then t else r) := by
  split
  · exact h
  · exact g

theorem Spares.iteThen {p : Prop} [Decidable p] {s t r : State} (h : Spares s t) (g : Spares t r) : Spares s (if p then r else t) :=
  .ite (h.trans g) h

theorem spares_setStrand (s : State) (u k : Nat) (st : Strand) : Spares s (s.setStrand u k st) := by
  refine ⟨rfl, fun v hv => ?_⟩
  have e := State.crew_setStrand_rest s u k v st
  have resident := congrArg Crew.resident e
  have core := congrArg Crew.core e
  exact ⟨resident.symm.trans hv, core⟩

theorem spares_ackOne (s : State) (u k core n : Nat) : Spares s (s.ackOne u k core n) := spares_setStrand ..

theorem spares_setLaunch (s : State) (l : Nat) (x : Launch) : Spares s (s.setLaunch l x) := .of_crews rfl rfl

/-! Records and strands. -/

theorem spares_sfrqRefill (s : State) (core : Nat) : Spares s (s.sfrqRefill core) := by
  unfold State.sfrqRefill
  split
  · exact .ite (.trans (.of_crews rfl rfl) (spares_ackOne ..)) (.refl s)
  · exact .refl s

theorem spares_dropRecord (s : State) (e : Nat × SfRecord) : Spares s (s.dropRecord e) :=
  have drop : Spares s { s with sfrq := mset s.sfrq e.1 default } := .of_crews rfl rfl
  .ite (drop.trans (spares_ackOne ..)) (drop.trans (spares_sfrqRefill ..))

theorem spares_dropRecords (s : State) (p : SfRecord → Bool) : Spares s (s.dropRecords p) :=
  .foldl (fun s _ => spares_dropRecord s _) _ s

theorem spares_endStrand (s : State) (u k : Nat) : Spares s (s.endStrand u k) :=
  (spares_setStrand ..).trans (spares_dropRecords ..)

theorem spares_checkRetire (s : State) (u : Nat) : Spares s (s.checkRetire u) := by
  refine .ite ⟨rfl, fun v hv => ?_⟩ (.refl s)
  rw [State.crew_setCrew] at hv ⊢
  by_cases h : v = u
  · subst h; simpa using hv
  · simpa [h] using hv

theorem spares_endLaunch (s : State) (l status code detail : Nat) : Spares s (s.endLaunch l status code detail) :=
  .ite (spares_setLaunch ..) (.refl s)

theorem spares_termStrands (s : State) (u : Nat) (ks : List Nat) (whole : Bool) (code detail : Nat) :
    Spares s (s.termStrands u ks whole code detail) :=
  have ended := (Spares.foldl (fun x k => spares_endStrand x u k) ks s).trans (spares_checkRetire _ u)
  .iteThen (.iteThen ended (spares_dropRecords ..)) (spares_endLaunch ..)

/-! Operations and answers. -/

theorem spares_resolveOp (s : State) (h v : Word64) : Spares s (s.resolveOp h v) := .of_crews rfl rfl

theorem spares_endOp (s : State) (h status cause detail : Nat) : Spares s (s.endOp h status cause detail) := .of_crews rfl rfl

theorem spares_loseOps (s : State) (u : Nat) : Spares s (s.loseOps u) := by
  refine .foldl (fun x e => .ite (.refl x) ?_) s.ops s
  have kept : ∀ op, Spares x { x with ops := mset x.ops e.1 op } := fun _ => .of_crews rfl rfl
  cases e.2.kind with
  | mma _ => exact spares_endOp ..
  | aload _ => exact spares_endOp ..
  | acommit _ => exact .ite (kept _) (spares_endOp ..)
  | copy _ => exact .ite (kept _) (spares_endOp ..)
  | _ => exact .refl x

theorem spares_leaveBy (s : State) (id port : Nat) (x : Sent) : Spares s (s.leaveBy id port x) :=
  .ite (.of_crews rfl rfl) (.of_crews rfl rfl)

theorem spares_emitSince (s : State) (dom since dst flits : Nat) (p : Packet) : Spares s (s.emitSince dom since dst flits p) := by
  unfold State.emitSince
  split
  · exact .trans (.of_crews rfl rfl) (spares_leaveBy ..)
  · exact .of_crews rfl rfl

theorem spares_respond (s : State) (k : Nat) (r : Req) : Spares s (s.respond k r) :=
  .ite (.of_crews rfl rfl) (.trans (.of_crews rfl rfl) (spares_emitSince ..))

theorem spares_loseStx (s : State) (c : Crew) : Spares s (s.loseStx c) :=
  .foldl (fun x _ => .ite (spares_respond ..) (.refl x)) s.net s

theorem spares_loseAtPort (s : State) (u : Nat) : Spares s (s.loseAtPort u) := .of_crews rfl rfl

/-! A crew, its launch, and the completion word. -/

/-- A crew that is lost is resident nowhere, and the others stay where they are. -/
theorem spares_loseCrew (s : State) (u : Nat) : Spares s (s.loseCrew u) ∧ ((s.loseCrew u).crew u).resident = false := by
  have noOps := (spares_loseOps s u).trans (spares_dropRecords _ (fun r => decide (r.crew = u)))
  have before := (noOps.trans (spares_loseStx _ (s.crew u))).trans (spares_loseAtPort _ u)
  refine ⟨before.trans ⟨rfl, fun v hv => ?_⟩, congrArg Crew.resident (mget_mset_same _ u default)⟩
  by_cases h : v = u
  · subst h; exact absurd (hv.symm.trans (congrArg Crew.resident (mget_mset_same _ v default))) (by decide)
  · have e : (s.loseCrew u).crew v = _ := mget_mset_ne _ default h
    exact ⟨(congrArg Crew.resident e).symm.trans hv, congrArg Crew.core e⟩

/-- Once the crews of a list are lost, none of them is resident. -/
theorem spares_loseCrews : ∀ (l : List (Nat × Crew)) (s : State),
    Spares s (l.foldl (fun (x : State) e => x.loseCrew e.1) s) ∧
    ∀ e ∈ l, ((l.foldl (fun (x : State) e => x.loseCrew e.1) s).crew e.1).resident = false
  | [], s => ⟨.refl s, by simp⟩
  | e :: r, s => by
    obtain ⟨kept, gone⟩ := spares_loseCrew s e.1
    obtain ⟨keptRest, goneRest⟩ := spares_loseCrews r (s.loseCrew e.1)
    refine ⟨kept.trans keptRest, fun d hd => ?_⟩
    rcases List.mem_cons.1 hd with rfl | hd
    · exact Bool.eq_false_iff.2 fun h => absurd ((keptRest.2 d.1 h).1.symm.trans gone) (by decide)
    · exact goneRest d hd

theorem spares_endCrews (s : State) (l : Nat) : Spares s (s.endCrews l) := by
  refine .foldl (fun x e => .ite (.refl x) ?_) s.crews s
  have ended := spares_termStrands x e.1 e.2.keys true 0 0
  exact .ite ended (ended.trans (.foldl (fun y _ => spares_endOp y ..) _ _))

theorem spares_afterLoss (s : State) (chip : Nat) (c : Crew) : Spares s (s.afterLoss chip c) :=
  .ite (spares_setLaunch ..) (((spares_endLaunch ..).trans (spares_setLaunch ..)).trans (spares_endCrews ..))

theorem spares_wrEngine (s : State) (pa : Nat) (l : List Byte) : Spares s (s.wrEngine pa l) :=
  .of_crews (wrEngine_field s pa l State.spared fun _ => rfl) (wrEngine_field s pa l State.crews fun _ => rfl)

/-- Writes made one after the other spare the crews when each that performs does. -/
theorem spares_foldl_wr {f : WrRes → Nat × Nat × Nat → WrRes} (hf : ∀ r p t, f r p = .ok t → ∃ q, r = .ok q ∧ Spares q t) :
    ∀ (ps : List (Nat × Nat × Nat)) (r : WrRes) (t : State), ps.foldl f r = .ok t → ∃ q, r = .ok q ∧ Spares q t
  | [], _, t, h => ⟨t, h, .refl t⟩
  | p :: ps, r, t, h => by
    obtain ⟨q, hq, rest⟩ := spares_foldl_wr hf ps _ t h
    obtain ⟨q0, hr, part⟩ := hf r p q hq
    exact ⟨q0, hr, part.trans rest⟩

/-- A write of virtual memory that performs spares the crews, whatever the pages. -/
theorem spares_wrVirt {s t : State} {core part space va : Nat} {l : List Byte} (h : s.wrVirt core part space va l = .ok t) : Spares s t := by
  obtain ⟨q, hq, kept⟩ := spares_foldl_wr (fun r p t h => by
    cases r with
    | ok q =>
      refine ⟨q, rfl, ?_⟩
      dsimp only at h
      split at h
      · split at h
        · cases h
        · split at h
          · cases h; exact spares_wrEngine ..
          · cases h
      · cases h
      · cases h
    | fault _ _ => cases h
    | busy => cases h) _ _ t h
  cases hq
  exact kept

theorem spares_reportLaunch {s t : State} {part space : Nat} {compl word fut : Word64} {queue : Nat}
    (h : s.reportLaunch part space compl word fut queue = some t) : Spares s t := by
  obtain ⟨r, hr, rfl⟩ := Option.map_eq_some_iff.1 h
  have written : Spares s r.1 := by
    unfold State.wordWrite at hr
    split at hr
    · cases hr; exact .refl s
    · split at hr <;> cases hr
      · exact spares_wrVirt ‹_›
      · exact .refl s
  have raised : ∀ v, Spares r.1 (r.1.raise v) := fun _ => .of_crews rfl rfl
  exact .trans (.iteThen written (raised _)) (.ite (.refl _) (spares_resolveOp ..))

theorem spares_dropClaims (s : State) (l : Nat) : Spares s (s.dropClaims l) :=
  .foldl (fun x e => by split; exacts [.of_crews rfl rfl, .refl x]) s.cores s

theorem spares_dropGroup (s : State) (part g : Nat) : Spares s (s.dropGroup part g) := .ite (.refl s) (.of_crews rfl rfl)

theorem spares_completeCut (s : State) (l : Nat) : Spares s (s.completeCut l) := by
  unfold State.completeCut State.completeLaunch
  split
  · have released := ((spares_setLaunch s l { s.launchOf l with state := 2 }).trans (spares_dropGroup _ (s.launchOf l).part
      (s.launchOf l).group)).trans (spares_dropClaims _ l)
    cases h : State.reportLaunch _ _ _ _ _ _ _ with
    | none => exact .refl s
    | some t => exact released.trans (spares_reportLaunch h)
  · exact .refl s

/-! The reset. -/

/-- The fields that the reset of a chiplet itself writes, once its crews are lost: cistern claims, caches and TLBs of its cores, and CHIPCTL. -/
def State.takeDown (s : State) (chip : Nat) : State :=
  { s with
    cores := (List.range 12).foldl (fun m i => mset m (12 * chip + i) (mget m (12 * chip + i)).loseCistern) s.cores
    l1 := s.l1.filter (fun e => !onChip chip e.core), icache := s.icache.filter (fun e => !onChip chip e.core)
    tlb := s.tlb.filter (fun e => e.owner < 2 || !onChip chip (e.owner - 2))
    chipctl := mset s.chipctl chip ((s.chip chip ||| 0xA) ^^^ 2) }

/-- The crews that the reset of a chiplet loses. -/
def State.crewsOn (s : State) (chip : Nat) : List (Nat × Crew) := s.crews.filter (fun e => e.2.resident && onChip chip e.2.core)

theorem resetChiplet_eq (s : State) (chip : Nat) : s.resetChiplet chip =
    ((s.crewsOn chip).map (fun e => e.2.launch)).eraseDups.foldl State.completeCut ((s.crewsOn chip).foldl (fun (x : State) e => x.afterLoss chip e.2)
      (((s.crewsOn chip).foldl (fun (x : State) e => x.loseCrew e.1) s).takeDown chip)) := rfl

/-- What becomes of the launches of lost crews spares the crews that stay. -/
theorem spares_aftermath (lost : List (Nat × Crew)) (s : State) (chip : Nat) :
    Spares s ((lost.map (fun e => e.2.launch)).eraseDups.foldl State.completeCut
      (lost.foldl (fun (x : State) e => x.afterLoss chip e.2) s)) :=
  have after := Spares.foldl (fun x (e : Nat × Crew) => spares_afterLoss x chip e.2) lost s
  after.trans (Spares.foldl spares_completeCut _ _)

/-- A reset loses the chiplet's crews, then takes the chiplet down, and what follows spares the rest. -/
theorem spares_resetChiplet (s : State) (chip : Nat) :
    Spares (((s.crewsOn chip).foldl (fun (x : State) e => x.loseCrew e.1) s).takeDown chip) (s.resetChiplet chip) := by
  rw [resetChiplet_eq]
  exact spares_aftermath (s.crewsOn chip) _ chip

/-- No crew is resident on a chiplet after its reset. -/
theorem resetChiplet_crew {s : State} {chip u : Nat} (h : ((s.resetChiplet chip).crew u).resident = true) :
    ((s.resetChiplet chip).crew u).core / 12 ≠ chip := by
  obtain ⟨kept, gone⟩ := spares_loseCrews (s.crewsOn chip) s
  obtain ⟨stays, sameCore⟩ := (spares_resetChiplet s chip).2 u h
  obtain ⟨was, sameCore0⟩ := kept.2 u stays
  rw [sameCore.trans sameCore0]
  intro on
  have listed : (u, s.crew u) ∈ s.crews := mem_of_mget _ _ fun hd => by
    rw [State.crew, hd] at was; exact absurd was (by decide)
  have lost : (u, s.crew u) ∈ s.crewsOn chip := List.mem_filter.2 ⟨listed, by simp [was, onChip, chipOf, on]⟩
  exact absurd (stays.symm.trans (gone _ lost)) (by decide)

/-- The reset fences the chiplet and sets RESET; the rest of CHIPCTL and that of the other chiplets stay. -/
theorem resetChiplet_chipctl (s : State) (chip : Nat) :
    (s.resetChiplet chip).chipctl = mset s.chipctl chip ((s.chip chip ||| 0xA) ^^^ 2) := by
  have kept := (spares_loseCrews (s.crewsOn chip) s).1.field State.chipctl
  have e : (s.resetChiplet chip).chipctl = _ := (spares_resetChiplet s chip).field State.chipctl
  rw [e]
  change mset _ chip ((mget _ chip ^^^ 2 ||| 0xA) ^^^ 2) = _
  change ((s.crewsOn chip).foldl (fun (x : State) e => x.loseCrew e.1) s).chipctl = s.chipctl at kept
  rw [kept]
  rfl

/-- The reset leaves every access to registers where it is. -/
theorem resetChiplet_mmioIn (s : State) (chip : Nat) : (s.resetChiplet chip).mmioIn = s.mmioIn :=
  ((spares_resetChiplet s chip).field State.mmioIn).trans ((spares_loseCrews (s.crewsOn chip) s).1.field State.mmioIn)

end Sys2Proof.Machine
end

section
/-! What register accesses, pair-mode writes, reports and host accesses do (R7, R8, R91, R130, R297, R346..R348, R376, R386). -/

namespace Sys2Proof.Machine

/-! Tables. -/

/-- A function applied to each of n consecutive entries, one after the other. -/
theorem mget_foldl_range {α : Type} [Inhabited α] [DecidableEq α] (f : α → α) (m : FMap α) (lo k : Nat) : ∀ n : Nat,
    mget ((List.range n).foldl (fun m i => mset m (lo + i) (f (mget m (lo + i)))) m) k = if lo ≤ k ∧ k < lo + n then f (mget m k) else mget m k
  | 0 => by rw [if_neg (by omega)]; rfl
  | n + 1 => by
    rw [List.range_succ, List.foldl_append, List.foldl_cons, List.foldl_nil, mget_mset, mget_foldl_range f m lo _ n, mget_foldl_range f m lo _ n]
    by_cases hk : k = lo + n
    · subst hk; rw [if_pos rfl, if_neg (by omega), if_pos (by omega)]
    · rw [if_neg hk]
      by_cases hin : lo ≤ k ∧ k < lo + n
      · rw [if_pos hin, if_pos (by omega)]
      · rw [if_neg hin, if_neg (by omega)]

/-- A key beyond every entry is written at the end. -/
theorem mset_above {α : Type} [Inhabited α] [DecidableEq α] {k : Nat} {v : α} (hv : v ≠ default) : ∀ m : FMap α, (∀ e ∈ m, e.1 < k) →
    mset m k v = m ++ [(k, v)]
  | [], _ => if_neg hv
  | (a, x) :: r, h => by
    have ha : a < k := h _ (List.mem_cons_self ..)
    rw [mset, if_neg (by omega), if_neg (by omega), mset_above hv r fun e he => h e (List.mem_cons_of_mem _ he)]
    rfl

/-! CHIPCTL. -/

@[simp] theorem State.chip_setChip (s : State) (c d : Nat) (v : Word64) : (s.setChip c v).chip d = if d = c then v else s.chip d := by
  unfold State.setChip State.chip
  rw [mget_mset]
  split
  · rw [BitVec.xor_assoc, BitVec.xor_self, BitVec.xor_zero]
  · rfl

@[simp] theorem State.fenced_setChip_same (s : State) (c : Nat) (v : Word64) : (s.setChip c v).fenced c = v.getLsbD 1 := by
  simp [State.fenced]

@[simp] theorem State.resetting_setChip_same (s : State) (c : Nat) (v : Word64) : (s.setChip c v).resetting c = v.getLsbD 3 := by
  simp [State.resetting]

@[simp] theorem State.mmioIn_setChip (s : State) (c : Nat) (v : Word64) : (s.setChip c v).mmioIn = s.mmioIn := rfl
@[simp] theorem State.l1_setChip (s : State) (c : Nat) (v : Word64) : (s.setChip c v).l1 = s.l1 := rfl
@[simp] theorem State.core_setChip (s : State) (c n : Nat) (v : Word64) : (s.setChip c v).core n = s.core n := rfl
@[simp] theorem State.crew_setChip (s : State) (c u : Nat) (v : Word64) : (s.setChip c v).crew u = s.crew u := rfl

/-- FENCE after a store is the bit stored. -/
@[simp] theorem chipWrite_fence (old v : Word64) : (chipWrite old v)[1] = v[1] := by
  unfold chipWrite
  split <;> simp

/-- A store clears RESET unless it is kept. -/
@[simp] theorem chipWrite_reset (old v : Word64) : (chipWrite old v)[3] = false := by
  unfold chipWrite
  split <;> simp

/-- PART after a store: the bits stored while FENCE = 1, else as it was (R346). -/
theorem chipWrite_part (old v r : Word64) (hr : r &&& 0xE0 = 0) :
    (chipWrite old v ||| r) &&& 0xE0 = if old.getLsbD 1 then v &&& 0xE0 else old &&& 0xE0 := by
  have mask : ∀ x y z : Word64, y &&& z = 0 → x &&& y &&& z = 0 := fun x y z h => by rw [BitVec.and_assoc, h]; exact BitVec.and_zero
  have distrib : ∀ x y : Word64, (x ||| y) &&& 0xE0 = (x &&& 0xE0) ||| (y &&& 0xE0) := fun x y => by
    rw [BitVec.and_comm, BitVec.and_or_distrib_left, BitVec.and_comm, BitVec.and_comm y]
  have clear : ∀ x : Word64, x ||| 0 = x := fun _ => BitVec.or_zero
  unfold chipWrite
  rw [distrib, distrib, distrib, hr, mask _ 4 0xE0 rfl, mask _ 2 0xE0 rfl, clear, clear, clear]
  split <;> rw [BitVec.and_assoc, BitVec.and_self]

/-- After a reset the chiplet is fenced and RESET is set. -/
theorem resetChiplet_chip (s : State) (c : Nat) : (s.resetChiplet c).chip c = s.chip c ||| 0xA := by
  unfold State.chip
  rw [resetChiplet_chipctl, mget_mset_same, BitVec.xor_assoc, BitVec.xor_self, BitVec.xor_zero]
  rfl

theorem State.core_clearChiplet (s : State) (c n : Nat) :
    (s.clearChiplet c).core n = if 12 * c ≤ n ∧ n < 12 * c + 12 then (s.core n).loseCistern else s.core n := by
  have cores := mget_foldl_range Core.loseCistern s.cores (12 * c) n 12
  dsimp only [State.core, State.clearChiplet]
  exact cores

/-- A core that loses its cistern keeps no record, and only the claims that lie in memory. -/
theorem loseCistern_spec (c : Core) : c.loseCistern.cistern = [] ∧ ∀ e ∈ c.loseCistern.claims, e.evicted = true :=
  ⟨rfl, fun _ he => (List.mem_filter.1 he).2⟩

/-- A chiplet that returns to service keeps no cistern record, no claim but those in memory, and no line in its L1 caches. -/
theorem clearChiplet_storage (s : State) (c : Nat) :
    (∀ i < 12, ((s.clearChiplet c).core (12 * c + i)).cistern = [] ∧ ∀ e ∈ ((s.clearChiplet c).core (12 * c + i)).claims, e.evicted = true) ∧
    ∀ e ∈ (s.clearChiplet c).l1, e.core / 12 ≠ c := by
  refine ⟨fun i hi => ?_, fun e he => ?_⟩
  · rw [State.core_clearChiplet, if_pos (by omega)]; exact loseCistern_spec _
  · have off := (List.mem_filter.1 he).2
    intro on
    simp [onChip, chipOf, on] at off

/-! Register accesses. -/

@[simp] theorem mget_mmioDone (s : State) (k : Nat) : mget (s.mmioDone k).mmioIn k = default := mget_mset_same _ k default

@[simp] theorem State.chip_mmioDone (s : State) (k c : Nat) : (s.mmioDone k).chip c = s.chip c := rfl

theorem mmioDone_of_write {s : State} {k : Nat} (h : (mget s.mmioIn k).write = true) :
    s.mmioDone k = { s with mmioIn := mset s.mmioIn k default, mmioAcks := s.mmioAcks ++ [k] } := by
  unfold State.mmioDone; rw [if_pos h]

section
variable {s : State} {k : Nat} {m : Mmio} (h : s.mmioAccess k m)
include h

/-- A load answers with the register. -/
theorem mmioWrite_load (hw : (mget s.mmioIn k).write = false) :
    exec (.mmioWrite k) s = .next { s.mmioDone k with mmioOut := s.mmioOut ++ [BitVec.ofNat 64 (s.mmioRead m)] } := by
  obtain ⟨turn, -, target⟩ := h
  simp [execMmioWrite, turn, target, hw, State.mmioDone]

/-- A store that a host may not make is acknowledged and writes nothing. -/
theorem mmioWrite_ignored (hw : (mget s.mmioIn k).write = true) (hm : mayStore (mget s.mmioIn k) m = false) :
    exec (.mmioWrite k) s = .next (s.mmioDone k) := by
  obtain ⟨turn, -, target⟩ := h
  simp [execMmioWrite, turn, target, hw, hm]

/-- The management core's store to a register without behaviour of its own. -/
theorem mmioWrite_store (hw : (mget s.mmioIn k).write = true) (hh : (mget s.mmioIn k).host = false) (own : ownStep m = false)
    (now : s.storeWaits m (mget s.mmioIn k).data = false) :
    exec (.mmioWrite k) s = .next ((s.mmioDone k).mmioStore m (mget s.mmioIn k).data) := by
  obtain ⟨turn, -, target⟩ := h
  simp [execMmioWrite, turn, target, hw, hh, own, now, mayStore]

end

section
variable {s : State} {k c : Nat} (h : s.mmioAccess k (.chip c))
include h

/-- FENCE := 0 waits while a reset is in progress. -/
theorem chipctlUnfence_resetting (hr : s.resetting c = true) : exec (.chipctlUnfence k) s = .next s := by
  obtain ⟨-, -, target⟩ := h
  simp [execChipctlUnfence, target, hr]

variable (hw : (mget s.mmioIn k).write = true) (hh : (mget s.mmioIn k).host = false)
include hw hh

/-- FENCE := 1 (R348). -/
theorem chipctlFence_eq (hf : (mget s.mmioIn k).data.getLsbD 1 = true) :
    exec (.chipctlFence k) s =
      .next ((if s.fenced c then s.mmioDone k else (s.mmioDone k).resetChiplet c).setChip c (chipWrite (s.chip c) (mget s.mmioIn k).data |||
        ((if s.fenced c then s.mmioDone k else (s.mmioDone k).resetChiplet c).chip c &&& 8))) := by
  obtain ⟨turn, -, target⟩ := h
  simp [-BitVec.getLsbD_eq_getElem, execChipctlFence, turn, target, hw, hh, hf]

/-- FENCE := 0 otherwise (R348, R384). -/
theorem chipctlUnfence_eq (hf : (mget s.mmioIn k).data.getLsbD 1 = false) (hr : s.resetting c = false) :
    exec (.chipctlUnfence k) s =
      .next (if s.fenced c && mget s.tests.chips c then (s.mmioDone k).setChip c (chipWrite (s.chip c) (mget s.mmioIn k).data ||| 2)
        else (if s.fenced c then (s.mmioDone k).clearChiplet c else s.mmioDone k).setChip c (chipWrite (s.chip c) (mget s.mmioIn k).data)) := by
  obtain ⟨turn, -, target⟩ := h
  simp [-BitVec.getLsbD_eq_getElem, execChipctlUnfence, turn, target, hw, hh, hf, hr]

end

/-- What FENCE := 1 does: the chiplet is fenced, PART kept or taken, and one that was in service is reset. -/
theorem chipctlFence_spec {s : State} {k c : Nat} (h : s.mmioAccess k (.chip c)) (hw : (mget s.mmioIn k).write = true)
    (hh : (mget s.mmioIn k).host = false) (hf : (mget s.mmioIn k).data.getLsbD 1 = true) :
    Answers (exec (.chipctlFence k) s) (fun t =>
      t.fenced c = true ∧ t.chip c &&& 0xE0 = (if s.fenced c then (mget s.mmioIn k).data &&& 0xE0 else s.chip c &&& 0xE0) ∧
      mget t.mmioIn k = default ∧ (s.fenced c = true → t.crews = s.crews ∧ t.resetting c = s.resetting c) ∧
      (s.fenced c = false → t.resetting c = true ∧ ∀ u, (t.crew u).resident = true → (t.crew u).core / 12 ≠ c)) := by
  refine ⟨_, chipctlFence_eq h hw hh hf, ?_⟩
  have part : ∀ x : Word64, (chipWrite (s.chip c) (mget s.mmioIn k).data ||| (x &&& 8)) &&& 0xE0 =
      if s.fenced c then (mget s.mmioIn k).data &&& 0xE0 else s.chip c &&& 0xE0 := fun x =>
    chipWrite_part _ _ _ (by rw [BitVec.and_assoc]; exact BitVec.and_zero)
  have fence : (mget s.mmioIn k).data[1] = true := hf
  refine ⟨by simp [fence], by simpa using part _, ?_, fun fenced => ?_, fun serving => ?_⟩
  · rw [State.mmioIn_setChip]
    split
    · exact mget_mmioDone s k
    · rw [resetChiplet_mmioIn, mget_mmioDone]
  · simp only [fenced, if_true]
    exact ⟨rfl, by simp [State.resetting]⟩
  · simp only [serving, if_false, Bool.false_eq_true]
    refine ⟨by simp [resetChiplet_chip], fun u hu => ?_⟩
    rw [State.crew_setChip] at hu ⊢
    exact resetChiplet_crew hu

/-- What FENCE := 0 does to a chiplet whose last self-test failed. -/
theorem chipctlUnfence_failed {s : State} {k c : Nat} (h : s.mmioAccess k (.chip c)) (hw : (mget s.mmioIn k).write = true)
    (hh : (mget s.mmioIn k).host = false) (hf : (mget s.mmioIn k).data.getLsbD 1 = false) (hr : s.resetting c = false)
    (fenced : s.fenced c = true) (failed : mget s.tests.chips c = true) :
    Answers (exec (.chipctlUnfence k) s) (fun t =>
      t.fenced c = true ∧ t.chip c &&& 0xE0 = (if s.fenced c then (mget s.mmioIn k).data &&& 0xE0 else s.chip c &&& 0xE0) ∧
      mget t.mmioIn k = default ∧ t.crews = s.crews ∧ t.cores = s.cores) := by
  refine ⟨_, chipctlUnfence_eq h hw hh hf hr, ?_⟩
  simp only [fenced, failed, Bool.and_self, if_true]
  have part := chipWrite_part (s.chip c) (mget s.mmioIn k).data 2 rfl
  rw [if_pos (show (s.chip c).getLsbD 1 = true from fenced)] at part
  exact ⟨by simp, by rw [State.chip_setChip, if_pos rfl]; exact part, mget_mmioDone s k, rfl, rfl⟩

/-- What it does to any other: the chiplet is in service, and one that was fenced returns with its storage clear. -/
theorem chipctlUnfence_passed {s : State} {k c : Nat} (h : s.mmioAccess k (.chip c)) (hw : (mget s.mmioIn k).write = true)
    (hh : (mget s.mmioIn k).host = false) (hf : (mget s.mmioIn k).data.getLsbD 1 = false) (hr : s.resetting c = false)
    (passed : mget s.tests.chips c = false) :
    Answers (exec (.chipctlUnfence k) s) (fun t =>
      t.fenced c = false ∧ t.chip c &&& 0xE0 = (if s.fenced c then (mget s.mmioIn k).data &&& 0xE0 else s.chip c &&& 0xE0) ∧
      mget t.mmioIn k = default ∧ t.crews = s.crews ∧
      (s.fenced c = true → (∀ i < 12, (t.core (12 * c + i)).cistern = [] ∧ ∀ e ∈ (t.core (12 * c + i)).claims, e.evicted = true) ∧
        ∀ e ∈ t.l1, e.core / 12 ≠ c)) := by
  refine ⟨_, chipctlUnfence_eq h hw hh hf hr, ?_⟩
  simp only [passed, Bool.and_false, if_false, Bool.false_eq_true]
  have fence : (mget s.mmioIn k).data[1] = false := hf
  have part := chipWrite_part (s.chip c) (mget s.mmioIn k).data 0 rfl
  rw [show chipWrite (s.chip c) (mget s.mmioIn k).data ||| 0 = chipWrite (s.chip c) (mget s.mmioIn k).data from BitVec.or_zero] at part
  refine ⟨by simp [fence], by rw [State.chip_setChip, if_pos rfl]; exact part, ?_, ?_, fun fenced => ?_⟩
  · rw [State.mmioIn_setChip]; split <;> exact mget_mmioDone s k
  · split <;> rfl
  · simp only [fenced, if_true, State.core_setChip, State.l1_setChip]
    exact clearChiplet_storage (s.mmioDone k) c

/-! Error counts. -/

/-- The count fields after a store: each is cleared by a 1 in it, and kept otherwise (R376). -/
theorem errWrite_fields (old v : Word64) :
    (errWrite old v).toNat % 2 ^ 32 = (if v.toNat % 2 ^ 32 = 0 then old.toNat % 2 ^ 32 else 0) ∧
    (errWrite old v).toNat / 2 ^ 32 = (if v.toNat / 2 ^ 32 % 2 ^ 24 = 0 then old.toNat / 2 ^ 32 % 2 ^ 24 else 0) := by
  unfold errWrite nbits
  rw [BitVec.toNat_ofNat]
  dsimp only
  rw [Nat.pow_zero, Nat.div_one, Nat.div_one, Nat.mul_one]
  constructor <;> split <;> split <;> omega

/-! Reports. -/

/-- A report starts with its nonce (R386). -/
theorem report_take (s : State) (nonce : List Byte) : (s.report nonce).take nonce.length = nonce := by
  unfold State.report
  simp only [List.append_assoc, List.take_left]

/-! Places at homes. -/

/-- A writer has its place at the home of a line. -/
def State.queuedAt (s : State) (tok l : Nat) : Prop := ∃ e ∈ s.home, e.2.kind = .hold ∧ e.2.peerId = tok ∧ e.2.pa = l

/-- The number of the next request is above those of the requests at homes. -/
def State.homesBelow (s : State) : Prop := ∀ e ∈ s.home, e.1 < s.nextId

theorem queueWrite_cons (s : State) (tok core dev l : Nat) (r : List Nat) :
    s.queueWrite tok core dev (l :: r) = (s.queueWrite tok core dev [l]).queueWrite tok core dev r := rfl

/-- The place of a writer at one line: it is there, and every entry of before is kept. -/
theorem queueWrite_one {s : State} (below : s.homesBelow) (tok core dev l : Nat) :
    let t := s.queueWrite tok core dev [l]
    t.mem = s.mem ∧ t.hostIn = s.hostIn ∧ t.homesBelow ∧ (∀ e ∈ s.home, e ∈ t.home) ∧ t.queuedAt tok l := by
  intro t
  by_cases there : s.home.any (fun e => decide (e.2.kind = .hold) && decide (e.2.peerId = tok) && decide (e.2.pa = l)) = true
  · have same : t = s := if_pos there
    rw [same]
    obtain ⟨e, he, hp⟩ := List.any_eq_true.1 there
    simp only [Bool.and_eq_true, decide_eq_true_eq] at hp
    exact ⟨rfl, rfl, below, fun _ h => h, e, he, hp.1.1, hp.1.2, hp.2⟩
  · let x : Req := { (default : Req) with kind := .hold, core := core, dev := dev, pa := l, peerId := tok, left := true, stamp := s.nextId }
    have added : t = { s with home := mset s.home s.nextId x, nextId := s.nextId + 1 } := if_neg there
    have home : t.home = s.home ++ [(s.nextId, x)] := by
      rw [added]; exact mset_above (fun hd => absurd (congrArg Req.kind hd : ReqKind.hold = .none) (by decide)) s.home below
    refine ⟨by rw [added], by rw [added], fun e he => ?_, fun e he => home ▸ List.mem_append_left _ he,
      (s.nextId, x), home ▸ List.mem_append_right _ (List.mem_singleton_self _), rfl, rfl, rfl⟩
    rw [home, List.mem_append, List.mem_singleton] at he
    rw [added]
    rcases he with he | rfl
    · exact Nat.lt_succ_of_lt (below e he)
    · exact Nat.lt_succ_self _

/-- A writer that has taken its place at some lines has it at each of them, and nothing has been written. -/
theorem queueWrite_spec (tok core dev : Nat) : ∀ (lines : List Nat) {s : State}, s.homesBelow →
    let t := s.queueWrite tok core dev lines
    t.mem = s.mem ∧ t.hostIn = s.hostIn ∧ (∀ e ∈ s.home, e ∈ t.home) ∧ ∀ l ∈ lines, t.queuedAt tok l
  | [], s, _ => ⟨rfl, rfl, fun _ h => h, by simp⟩
  | l :: r, s, below => by
    obtain ⟨mem1, hostIn1, below1, kept1, queued1⟩ := queueWrite_one below tok core dev l
    obtain ⟨mem2, hostIn2, kept2, queued2⟩ := queueWrite_spec tok core dev r below1
    rw [queueWrite_cons]
    refine ⟨mem2.trans mem1, hostIn2.trans hostIn1, fun e he => kept2 e (kept1 e he), fun j hj => ?_⟩
    rcases List.mem_cons.1 hj with rfl | hj
    · obtain ⟨e, he, hold⟩ := queued1
      exact ⟨e, kept2 e he, hold⟩
    · exact queued2 j hj

/-! Stores, reports and pair modes. -/

/-- What the management core's stores without behaviour of their own write (R7, R8, R283, R297). -/
theorem mmioWrite_stores {s : State} {k : Nat} {m : Mmio} (h : s.mmioAccess k m) (hw : (mget s.mmioIn k).write = true)
    (hh : (mget s.mmioIn k).host = false) :
    let a := mget s.mmioIn k
    (∀ n, m = .tvec n → Answers (exec (.mmioWrite k) s) (fun t =>
      t.core n = { s.core n with tvec := a.data &&& 0x1FFFFFFFFFFFFFC } ∧ (∀ j, j ≠ n → t.core j = s.core j) ∧ t.crews = s.crews ∧
      t.mmioAcks = s.mmioAcks ++ [k])) ∧
    (∀ p n, m = .asroot p n → Answers (exec (.mmioWrite k) s) (fun t =>
      mget t.asroot (16 * p + n) = a.data &&& 0x3FFFFFFFFFF001 ∧ t.cores = s.cores ∧ t.crews = s.crews)) ∧
    (m = .fabcfg → Answers (exec (.mmioWrite k) s) (fun t => t.fabcfg = a.data &&& 0xFFFFFF01)) ∧
    (m = .bootstat ∨ m = .reserved ∨ m = .fwcfg → Answers (exec (.mmioWrite k) s) (fun t =>
      t = { s with mmioIn := mset s.mmioIn k default, mmioAcks := s.mmioAcks ++ [k] })) := by
  intro a
  have store := fun own now => mmioWrite_store h hw hh own now
  have done := mmioDone_of_write hw
  refine ⟨?_, ?_, ?_, ?_⟩
  · rintro n rfl
    refine ⟨_, store rfl rfl, ?_, fun j hj => ?_, rfl, congrArg State.mmioAcks done⟩
    · exact (State.core_setCore ..).trans (if_pos rfl)
    · exact (State.core_setCore ..).trans (if_neg hj)
  · rintro p n rfl
    exact ⟨_, store rfl rfl, mget_mset_same .., rfl, rfl⟩
  · rintro rfl
    exact ⟨_, store rfl rfl, rfl⟩
  · rintro (rfl | rfl | rfl) <;> exact ⟨_, store rfl rfl, done⟩

/-- What an ERRCNT store does (R376). -/
theorem errcntClear_eq {s : State} {k i : Nat} (h : s.mmioAccess k (.errcnt i)) (hw : (mget s.mmioIn k).write = true)
    (hh : (mget s.mmioIn k).host = false) :
    exec (.errcntClear k) s = .next { s.mmioDone k with errcnt := mset s.errcnt i (errWrite (mget s.errcnt i) (mget s.mmioIn k).data) } := by
  obtain ⟨turn, -, target⟩ := h
  simp [execErrcntClear, turn, target, hw, hh]

/-- A report goes out in a device in service, into the mailbox too (R386). -/
theorem reportRequest_eq {s : State} (k : Nat) (served : s.bootstat.toNat % 16 = 8) :
    let r := s.report (mgetList s.mailbox (4096 * (k % 2)) 64)
    exec (.reportRequest k) s = .next { s with
      reports := s.reports ++ [(r, s.running.certificate)]
      mailbox := msetList s.mailbox (4096 * (k % 2) + 64) ((r ++ s.running.certificate).take 4032) } :=
  if_pos (by simpa [nbits] using served)

/-- What PAIR_MODE_WRITE does to the pair and to memory (R91). -/
theorem pairModeWrite_spec {s : State} (tidy : s.Tidy) {m : Nat} (hm : m < 512) (l : Bool) :
    let lo := s.dev * 2 ^ 44 + m * 2 ^ 31
    Answers (exec (.pairModeWrite (2 * m + l.toNat)) s) (fun t =>
      mget t.pairLocal m = l ∧ (∀ n, n ≠ m → mget t.pairLocal n = mget s.pairLocal n) ∧
      (∀ a, lo ≤ a → a < lo + 2 ^ 31 → mget t.mem a = 0) ∧ (∀ a, a < lo ∨ lo + 2 ^ 31 ≤ a → mget t.mem a = mget s.mem a) ∧
      t.crews = s.crews ∧ t.net = s.net) := by
  intro lo
  have pair : (2 * m + l.toNat) / 2 = m := by have := l.toNat_lt; omega
  have mode : decide ((2 * m + l.toNat) % 2 = 1) = l := by cases l <;> simp
  have wf : mwf s.mem = true := tidy.1
  refine ⟨{ s with pairLocal := mset s.pairLocal m l, mem := mcut s.mem lo (lo + 2 ^ 31), poison := mcut s.poison lo (lo + 2 ^ 31) }, ?_,
    mget_mset_same .., fun n hn => mget_mset_ne _ _ hn, fun a h1 h2 => ?_, fun a ha => ?_, rfl, rfl⟩
  · simp only [exec_pairModeWrite, execPairModeWrite, pair, mode, hm, if_true, lo]
  · exact (mget_mcut _ _ _ _ wf).trans (if_pos ⟨h1, h2⟩)
  · exact (mget_mcut _ _ _ _ wf).trans (if_neg (by omega))

/-! Host accesses. -/

/-- Bytes read back where an engine has written them. -/
theorem mgetList_wrEngine (s : State) (pa : Nat) (l : List Byte) : mgetList (s.wrEngine pa l).mem pa l.length = l := by
  rw [wrEngine_mem]
  exact rdBytes_wrBytes s pa l

/-- The pod-physical address of a host's access (R89, R130). -/
def State.hostPa (s : State) (k : Nat) : Nat := s.dev * 2 ^ 44 + (mget s.hostIn k).addr
/-- The lines that it reaches. -/
def State.hostLines (s : State) (k : Nat) : List Nat := linesOf (s.hostPa k) (mget s.hostIn k).bytes.length

/-- A host's access lies in the tiers, meets no poison, and its port is up. -/
def State.hostServed (s : State) (k : Nat) : Prop :=
  let a := mget s.hostIn k
  a.live = true ∧ mget s.cxlDown a.die = false ∧ a.addr + a.bytes.length ≤ 2 ^ 44 ∧ s.inTiers (s.hostPa k) = true ∧
    s.inTiers (s.hostPa k + a.bytes.length - 1) = true ∧ s.rangePoisoned (s.hostPa k) a.bytes.length = false

/-- The access has been taken, and keeps no place at a home. -/
def State.hostTaken (s : State) (k : Nat) : State :=
  ({ s with hostIn := mset s.hostIn k default } : State).unqueue (hostToken k) (fun _ => true)

@[simp] theorem useChannels_hostIn (s : State) (l : List Nat) : (s.useChannels l).hostIn = s.hostIn := rfl

/-- What can hold an access that is served: the bridge, a pseudo-channel asleep, and for a write a lease (R95, R130, R370). -/
theorem hostAccess_served {s : State} {k : Nat} (h : s.hostServed k) :
    exec (.hostAccess k) s =
      if s.bridgeStops (mget s.hostIn k).die (s.hostLines k) then .next s
      else if !s.channelsReady (s.hostLines k) then .next (s.wakeChannels (s.hostLines k))
      else if !(mget s.hostIn k).write then
        .next { (s.hostTaken k).useChannels (s.hostLines k) with
          hostOut := s.hostOut ++ [s.rdBytes (s.hostPa k) (mget s.hostIn k).bytes.length] }
      else if s.mayWriteBy (hostToken k) (s.hostLines k) then
        .next (((s.hostTaken k).wrEngine (s.hostPa k) (mget s.hostIn k).bytes).useChannels (s.hostLines k))
      else .next (s.queueWrite (hostToken k) noCore s.dev (s.hostLines k)) := by
  obtain ⟨live, up, small, first, last, clean⟩ := h
  unfold State.hostPa at first last clean
  simp only [exec_hostAccess, execHostAccess, State.hostLines, State.hostTaken, State.hostPa, live, up, Nat.not_lt.2 small, first, last, clean,
    decide_false, Bool.not_true, Bool.or_self, Bool.false_eq_true, if_false]
  rfl

/-- A host's read gives the bytes of memory (R130). -/
theorem hostAccess_reads {s : State} {k : Nat} (h : s.hostServed k)
    (way : s.bridgeStops (mget s.hostIn k).die (s.hostLines k) = false) (awake : s.channelsReady (s.hostLines k) = true)
    (read : (mget s.hostIn k).write = false) :
    Answers (exec (.hostAccess k) s) (fun t =>
      t.hostOut = s.hostOut ++ [mgetList s.mem (s.hostPa k) (mget s.hostIn k).bytes.length] ∧ t.mem = s.mem ∧ mget t.hostIn k = default) := by
  rw [hostAccess_served h, way, awake, read]
  exact ⟨_, rfl, rfl, rfl, mget_mset_same ..⟩

/-- A host's write that no lease holds writes its bytes and no other (R95, R130). -/
theorem hostAccess_writes {s : State} {k : Nat} (h : s.hostServed k)
    (way : s.bridgeStops (mget s.hostIn k).die (s.hostLines k) = false) (awake : s.channelsReady (s.hostLines k) = true)
    (write : (mget s.hostIn k).write = true) (may : s.mayWriteBy (hostToken k) (s.hostLines k) = true) :
    Answers (exec (.hostAccess k) s) (fun t =>
      mgetList t.mem (s.hostPa k) (mget s.hostIn k).bytes.length = (mget s.hostIn k).bytes ∧
      (∀ p, p < s.hostPa k ∨ s.hostPa k + (mget s.hostIn k).bytes.length ≤ p → mget t.mem p = mget s.mem p) ∧
      mget t.hostIn k = default) := by
  rw [hostAccess_served h, way, awake, write, may]
  refine ⟨_, rfl, ?_, fun p hp => ?_, ?_⟩
  · rw [useChannels_mem, mgetList_wrEngine]
  · rw [useChannels_mem, mget_wrEngine, dif_neg (by omega)]; rfl
  · rw [useChannels_hostIn, wrEngine_field _ _ _ State.hostIn fun _ => rfl]
    exact mget_mset_same ..

/-- A host's write that must wait takes its place at each of its lines (R95). -/
theorem hostAccess_waits {s : State} {k : Nat} (h : s.hostServed k)
    (way : s.bridgeStops (mget s.hostIn k).die (s.hostLines k) = false) (awake : s.channelsReady (s.hostLines k) = true)
    (write : (mget s.hostIn k).write = true) (may : s.mayWriteBy (hostToken k) (s.hostLines k) = false) (below : s.homesBelow) :
    Answers (exec (.hostAccess k) s) (fun t =>
      t.mem = s.mem ∧ t.hostIn = s.hostIn ∧ ∀ l ∈ s.hostLines k, t.queuedAt (hostToken k) l) := by
  rw [hostAccess_served h, way, awake, write, may]
  obtain ⟨mem, hostIn, -, queued⟩ := queueWrite_spec (hostToken k) noCore s.dev (s.hostLines k) below
  exact ⟨_, rfl, mem, hostIn, queued⟩

end Sys2Proof.Machine

open Sys2Proof Sys2Proof.Machine

/-- Settles O46: each access answers as the equation of its step says; CHIPCTL by `chipctlFence_spec` and its companions, a host's write that waits by
`queueWrite_spec`. -/
theorem registersAndHostAccesses : Obligations.RegistersAndHostAccesses := by
  unfold Obligations.RegistersAndHostAccesses
  refine ⟨fun s k => ⟨fun m h => ⟨fun hw => ?_, fun hw hh hm => ?_, fun hw hh => ?_⟩, fun c h _ hw hh => ?_, fun i h hw hh => ?_,
    fun served => ?_⟩, fun s m l tidy hm => pairModeWrite_spec tidy hm l, fun s k live up small first last clean => ?_⟩
  · exact ⟨_, mmioWrite_load h hw, rfl, mget_mmioDone s k, rfl, rfl, rfl⟩
  · have refused : mayStore (mget s.mmioIn k) m = false := by
      cases m <;> simp [mayStore, hh] at hm ⊢
    exact ⟨_, mmioWrite_ignored h hw refused, mmioDone_of_write hw⟩
  · exact mmioWrite_stores h hw hh
  · exact ⟨fun hf _ => chipctlFence_spec h hw hh hf, fun _ hr => chipctlUnfence_resetting h hr,
      fun hf hr fenced failed => chipctlUnfence_failed h hw hh hf hr fenced failed,
      fun hf hr passed => chipctlUnfence_passed h hw hh hf hr passed⟩
  · refine ⟨_, errcntClear_eq h hw hh, ?_⟩
    obtain ⟨low, high⟩ := errWrite_fields (mget s.errcnt i) (mget s.mmioIn k).data
    have new : mget (mset s.errcnt i (errWrite (mget s.errcnt i) (mget s.mmioIn k).data)) i = _ := mget_mset_same ..
    exact ⟨by rw [new]; exact low, by rw [new]; exact high, mget_mmioDone s k⟩
  · refine ⟨_, reportRequest_eq k served, _, rfl, ?_⟩
    simpa [mgetList] using report_take s (mgetList s.mailbox (4096 * (k % 2)) 64)
  · have served : s.hostServed k := ⟨live, up, small, first, last, clean⟩
    have eq := hostAccess_served served
    refine ⟨fun stops => eq.trans (if_pos stops), fun way => ⟨fun asleep => ?_, fun read awake => hostAccess_reads served way awake read,
      fun write awake may => hostAccess_writes served way awake write may,
      fun write awake may _ below => hostAccess_waits served way awake write may below⟩⟩
    exact ⟨_, eq.trans ((if_neg (Bool.eq_false_iff.1 way)).trans (if_pos (congrArg not asleep))), rfl⟩
end

section
/-! What uncorrectable errors, the CXL ports and the stages of the bring-up do (R12, R374..R376, R380, R382..R384, R388). -/

namespace Sys2Proof.Machine

/-! Uncorrectable errors. -/

/-- An uncorrectable event counts in its field of ERRCNT, up to the field's limit (R376). -/
theorem countUncorr_field (s : State) (i : Nat) :
    (mget (s.countUncorr i).errcnt i).toNat / 2 ^ 32 = min ((mget s.errcnt i).toNat / 2 ^ 32 % 2 ^ 24 + 1) (2 ^ 24 - 1) := by
  unfold State.countUncorr nbits
  rw [mget_mset_same, BitVec.toNat_ofNat]
  omega

/-- A chiplet in error is fenced with ERR set, and no crew is resident on it (R348, R374). -/
theorem chipletError_spec (s : State) (c : Nat) :
    (s.chipletError c).fenced c = true ∧ ((s.chipletError c).chip c).getLsbD 2 = true ∧
    ∀ u, ((s.chipletError c).crew u).resident = true → ((s.chipletError c).crew u).core / 12 ≠ c := by
  have chip : (s.chipletError c).chip c = (s.resetChiplet c).chip c ||| 6 := (State.chip_setChip ..).trans (if_pos rfl)
  have crew : ∀ u, (s.chipletError c).crew u = (s.resetChiplet c).crew u := fun u =>
    State.crew_setChip (s.resetChiplet c) c u ((s.resetChiplet c).chip c ||| 6)
  refine ⟨by simp [State.fenced, chip], by simp [chip], fun u hu => ?_⟩
  rw [crew] at hu ⊢
  exact resetChiplet_crew hu

/-- A poisoned line, and no other, reads as poisoned (R375). -/
theorem poisoned_poisonLine (s : State) (pa q : Nat) :
    (s.poisonLine pa).poisoned q = if lineOf q = lineOf pa then true else s.poisoned q := mget_mset ..

/-! CXL ports. -/

/-- Writers that leave their places at homes leave everything else. -/
theorem foldl_unqueue_frame (f : Nat → Nat) : ∀ (l : List (Nat × HostAccess)) (s : State),
    { l.foldl (fun (x : State) e => x.unqueue (f e.1) (fun _ => true)) s with home := [] } = { s with home := [] }
  | [], _ => rfl
  | e :: r, s => foldl_unqueue_frame f r (s.unqueue (f e.1) (fun _ => true))

/-- A port that goes down takes its accesses with it (R388). -/
theorem cxlPortDown_spec (s : State) {k : Nat} (hk : k < 2) : Answers (exec (.cxlPortDown k) s) (fun t =>
    mget t.cxlDown k = true ∧ (∀ e ∈ t.hostIn, e.2.die ≠ k) ∧ (∀ e ∈ t.mmioIn, ¬(e.2.host = true ∧ e.2.die = k)) ∧ t.mem = s.mem ∧
    t.crews = s.crews) := by
  have frame := foldl_unqueue_frame hostToken (s.hostIn.filter (fun e => decide (e.2.die = k))) s
  have mem := congrArg State.mem frame
  have crews := congrArg State.crews frame
  refine ⟨_, if_pos hk, mget_mset_same .., fun e he => ?_, fun e he => ?_, mem, crews⟩
  · simpa using (List.mem_filter.1 he).2
  · rintro ⟨host, die⟩
    simpa [host, die] using (List.mem_filter.1 he).2

/-! BOOTSTAT. -/

theorem bootWord_toNat {n : Nat} (hn : n ≤ 8) (err : Bool) (x : SelfTests) : (bootWord n err x).toNat =
    n + 2 ^ 8 * err.toNat + (if 3 ≤ n || (err && n = 2) then 2 ^ 16 * x.hbm.toNat else 0) + (if 4 ≤ n then 2 ^ 32 * x.dies.toNat else 0)
      + (if 5 ≤ n then 2 ^ 34 * x.cxl.toNat else 0) := by
  have hbm := x.hbm.isLt
  have dies := x.dies.isLt
  have cxl := x.cxl.isLt
  have := err.toNat_lt
  unfold bootWord
  rw [BitVec.toNat_ofNat, Nat.mod_eq_of_lt]
  split <;> split <;> split <;> omega

/-- STAGE is the last stage completed (R383). -/
theorem bootWord_stage {n : Nat} (hn : n ≤ 8) (err : Bool) (x : SelfTests) : (bootWord n err x).toNat % 16 = n := by
  rw [bootWord_toNat hn]
  split <;> split <;> split <;> omega

/-- ERR is set by a stop alone (R383). -/
theorem bootWord_err {n : Nat} (hn : n ≤ 8) (err : Bool) (x : SelfTests) : (bootWord n err x).getLsbD 8 = err := by
  have bit : (bootWord n err x).toNat / 2 ^ 8 % 2 = err.toNat := by
    have := err.toNat_lt
    rw [bootWord_toNat hn]
    split <;> split <;> split <;> omega
  rw [BitVec.getLsbD, Nat.testBit_eq_decide_div_mod_eq, bit]
  cases err <;> rfl

/-- A stop at the training of HBM4E shows the stacks that failed (R383). -/
theorem bootWord_hbm (x : SelfTests) : (bootWord 2 true x).toNat / 2 ^ 16 = x.hbm.toNat := by
  rw [bootWord_toNat (by omega)]
  simp
  omega

/-! Budgets. -/

/-- The sum of a table. -/
def msum (m : FMap Nat) : Nat := (m.map (·.2)).sum

theorem msum_beyond_le : ∀ (m : FMap Nat) (k : Nat), msum (mbeyond m k) ≤ msum m
  | [], _ => Nat.le_refl _
  | (a, x) :: r, k => by
    have := msum_beyond_le r k
    rw [mbeyond]
    split
    · simp only [msum, List.map_cons, List.sum_cons] at this ⊢; omega
    · exact Nat.le_refl _

theorem msum_mset_le (k v : Nat) : ∀ m : FMap Nat, msum (mset m k v) ≤ msum m + v
  | [] => by rw [mset]; split <;> simp [msum]
  | (a, x) :: r => by
    have rest := msum_mset_le k v r
    have beyond := msum_beyond_le r k
    rw [mset]
    simp only [msum, List.map_cons, List.sum_cons] at rest beyond ⊢
    split
    · split
      · simp
      · simp; omega
    · split
      · split <;> simp <;> omega
      · simp; omega

/-- Budgets that are cut in order keep their sum within the limit (R380). -/
theorem cutBudgets_le (limit : Nat) (m : FMap Nat) : msum (cutBudgets limit m) ≤ limit := by
  have fold : ∀ (m : FMap Nat) (x : Nat × FMap Nat), msum x.2 ≤ x.1 → x.1 ≤ limit →
      msum (m.foldl (fun (x : Nat × FMap Nat) e => let b := min e.2 (limit - x.1); (x.1 + b, mset x.2 e.1 b)) x).2 ≤ limit := by
    intro m
    induction m with
    | nil => exact fun x h1 h2 => Nat.le_trans h1 h2
    | cons e r ih =>
      intro x h1 h2
      refine ih _ ?_ ?_
      · exact Nat.le_trans (msum_mset_le ..) (Nat.add_le_add_right h1 _)
      · dsimp only; omega
  exact fold m (0, []) (Nat.le_refl _) (Nat.zero_le _)

/-- The board's limit lies within the range of R12. -/
theorem boardLimit_range (i : BootImage) : 4200 ≤ i.boardLimit ∧ i.boardLimit ≤ 6000 := by
  unfold BootImage.boardLimit; omega

/-! Chiplets. -/

/-- The machine without the fields that bringing up a chiplet writes. -/
def State.besideChiplets (s : State) : State := { s with cores := [], l1 := [], icache := [], tlb := [], chipctl := [] }

/-- CHIPCTL of a chiplet that has been brought up, by its self-test and the image's map (R384). -/
def broughtUp (x : SelfTests) (m : FMap Byte) (c : Nat) : Word64 :=
  let e := (mget m c).toNat
  if mget x.chips c then 6 else if nbit e 7 || decide (nbits e 3 4 ≠ 0) then 2 else BitVec.ofNat 64 (e % 8 * 32)

theorem bringUpChiplet_frame (s : State) (m : FMap Byte) (c : Nat) : (s.bringUpChiplet m c).besideChiplets = s.besideChiplets := by
  unfold State.bringUpChiplet
  dsimp only
  split
  · rfl
  · split <;> rfl

theorem bringUpChiplet_chip (s : State) (m : FMap Byte) (c d : Nat) :
    (s.bringUpChiplet m c).chip d = if d = c then broughtUp s.tests m c else s.chip d := by
  unfold State.bringUpChiplet broughtUp
  dsimp only
  split
  · rw [State.chip_setChip]
  · split <;> rw [State.chip_setChip]
    rfl

/-- Bringing up the first n chiplets sets their CHIPCTL, each by its own test and entry, and leaves what is not the chiplets'. -/
theorem bringUpChiplets_spec (s : State) (m : FMap Byte) : ∀ n : Nat,
    let t := (List.range n).foldl (fun s c => s.bringUpChiplet m c) s
    t.besideChiplets = s.besideChiplets ∧ ∀ c < n, t.chip c = broughtUp s.tests m c
  | 0 => ⟨rfl, by simp⟩
  | n + 1 => by
    obtain ⟨frame, chips⟩ := bringUpChiplets_spec s m n
    have tests := congrArg State.tests frame
    simp only [List.range_succ, List.foldl_append, List.foldl_cons, List.foldl_nil]
    refine ⟨(bringUpChiplet_frame ..).trans frame, fun c hc => ?_⟩
    rw [bringUpChiplet_chip]
    split
    · next last => rw [last]; exact congrArg (broughtUp · m n) tests
    · exact chips c (by omega)

/-- An entry of the map names a partition below 8 alone (R384). -/
theorem entry_unused_iff (e : Byte) : (nbit e.toNat 7 || decide (nbits e.toNat 3 4 ≠ 0)) = true ↔ 8 ≤ e.toNat := by
  have := e.isLt
  rw [Bool.or_eq_true, decide_eq_true_eq]
  simp only [nbit, nbits, beq_iff_eq]
  omega

theorem broughtUp_failed {x : SelfTests} {c : Nat} (h : mget x.chips c = true) (m : FMap Byte) : broughtUp x m c = 6 := if_pos h

/-- A chiplet that passed goes to the partition of its entry. -/
theorem broughtUp_given {x : SelfTests} {m : FMap Byte} {c : Nat} (h : mget x.chips c = false) (he : (mget m c).toNat < 8) :
    (broughtUp x m c).getLsbD 1 = false ∧ nbits (broughtUp x m c).toNat 5 3 = (mget m c).toNat := by
  have used := mt (entry_unused_iff (mget m c)).1 (Nat.not_le.2 he)
  have word : broughtUp x m c = BitVec.ofNat 64 ((mget m c).toNat % 8 * 32) := (if_neg (Bool.eq_false_iff.1 h)).trans (if_neg used)
  have value : (broughtUp x m c).toNat = (mget m c).toNat * 32 := by rw [word, BitVec.toNat_ofNat]; omega
  refine ⟨?_, by rw [value, nbits]; omega⟩
  rw [BitVec.getLsbD, Nat.testBit_eq_decide_div_mod_eq, value]
  simp; omega

/-- One whose entry names no partition stays fenced. -/
theorem broughtUp_unused {x : SelfTests} {m : FMap Byte} {c : Nat} (h : mget x.chips c = false) (he : 8 ≤ (mget m c).toNat) :
    broughtUp x m c = 2 :=
  (if_neg (Bool.eq_false_iff.1 h)).trans (if_pos ((entry_unused_iff (mget m c)).2 he))

/-! Stages. -/

/-- What stops the bring-up after stage n: no image is accepted, the bridge does not train, an HBM4E stack does not (R382, R383). -/
def State.bootStops (s : State) (n : Nat) : Prop := n = 0 ∧ s.bootSlot = 0 ∨ n = 1 ∧ s.tests.bridge = true ∨ n = 2 ∧ s.tests.hbm ≠ 0

theorem bringUp_none_iff (s : State) {n : Nat} (hn : n < 8) : s.bringUp (n + 1) = none ↔ s.bootStops n := by
  unfold State.bootStops
  interval_cases n <;> simp [State.bringUp]

/-- What stage 8 does before it brings up the chiplets: near memory zero, the policy and the budgets of the image that runs (R330, R380, R383). -/
def State.prepared (s : State) : State :=
  ({ s with fwcfg := s.running.config &&& 0xFF0F, packageLimit := s.running.boardLimit
            budgets := cutBudgets s.running.boardLimit s.running.budgets } : State).scrubNear

/-- The machine after stage 8. -/
def State.served (s : State) : State := (List.range 64).foldl (fun t c => t.bringUpChiplet s.running.chipMap c) s.prepared

theorem bringUp_last (s : State) : s.bringUp 8 = some s.served := rfl

theorem served_chip (s : State) {c : Nat} (hc : c < 64) : s.served.chip c = broughtUp s.tests s.running.chipMap c :=
  (bringUpChiplets_spec s.prepared s.running.chipMap 64).2 c hc

/-- Any field but those of the chiplets is as it was when they were brought up. -/
theorem served_field (s : State) {β : Sort _} (f : State → β) (hf : ∀ s : State, f s = f s.besideChiplets) : f s.served = f s.prepared := by
  have frame : s.served.besideChiplets = s.prepared.besideChiplets := (bringUpChiplets_spec s.prepared s.running.chipMap 64).1
  rw [hf s.served, hf s.prepared, frame]

/-- A stage leaves the crews, and before the last one memory and the chiplets too. -/
theorem bringUp_kept {s t : State} {n : Nat} (hn : n < 8) (h : s.bringUp (n + 1) = some t) :
    t.crews = s.crews ∧ (n ≠ 7 → t.mem = s.mem ∧ t.chipctl = s.chipctl) := by
  by_cases last : n = 7
  · subst last
    rw [show 7 + 1 = 8 from rfl, bringUp_last] at h
    obtain rfl := Option.some.inj h
    exact ⟨served_field s State.crews fun _ => rfl, fun ne => absurd rfl ne⟩
  · suffices t.crews = s.crews ∧ t.mem = s.mem ∧ t.chipctl = s.chipctl from ⟨this.1, fun _ => this.2⟩
    rcases Nat.lt_or_ge n 3 with early | late
    · interval_cases n <;> (
        simp only [State.bringUp, Option.ite_none_left_eq_some, Option.some.injEq] at h
        obtain ⟨-, rfl⟩ := h
        exact ⟨rfl, rfl, rfl⟩)
    · have before : n < 7 := by omega
      clear hn last
      interval_cases n <;> (
        obtain rfl := Option.some.inj h
        exact ⟨rfl, rfl, rfl⟩)

/-! POWER_ON. -/

/-- A device in service, or one that has stopped, has no stage left. -/
theorem powerOn_over {s : State} (h : s.bootstat.getLsbD 8 = true ∨ 8 ≤ s.bootstat.toNat % 16) : exec .powerOn s = .next s :=
  if_pos (by simpa [-BitVec.getLsbD_eq_getElem, nbits] using h)

section
variable {s : State} (going : s.bootstat.getLsbD 8 = false) (early : s.bootstat.toNat % 16 < 8)
include going early

/-- A stage that fails stops the device with ERR = 1 (R382, R383). -/
theorem powerOn_fails (h : s.bringUp (s.bootstat.toNat % 16 + 1) = none) :
    exec .powerOn s = .next { s with bootstat := bootWord (s.bootstat.toNat % 16) true s.tests } := by
  have stage : nbits s.bootstat.toNat 0 4 = s.bootstat.toNat % 16 := by simp [nbits]
  simp only [exec_powerOn, execPowerOn, stage, going, decide_eq_false (Nat.not_le.2 early), Bool.or_self, Bool.false_eq_true, if_false, h]

/-- A stage that succeeds is the last one completed (R383). -/
theorem powerOn_completes {t : State} (h : s.bringUp (s.bootstat.toNat % 16 + 1) = some t) :
    exec .powerOn s = .next { t with bootstat := bootWord (s.bootstat.toNat % 16 + 1) false t.tests } := by
  have stage : nbits s.bootstat.toNat 0 4 = s.bootstat.toNat % 16 := by simp [nbits]
  simp only [exec_powerOn, execPowerOn, stage, going, decide_eq_false (Nat.not_le.2 early), Bool.or_self, Bool.false_eq_true, if_false, h]

end

/-- A device that stops shows ERR and the last stage that it completed; nothing else changes (R383). -/
theorem powerOn_stops {s : State} (going : s.bootstat.getLsbD 8 = false) (early : s.bootstat.toNat % 16 < 8)
    (stops : s.bootStops (s.bootstat.toNat % 16)) :
    Answers (exec .powerOn s) (fun t => t.bootstat.getLsbD 8 = true ∧ t.bootstat.toNat % 16 = s.bootstat.toNat % 16 ∧
      t = { s with bootstat := t.bootstat } ∧ (s.bootstat.toNat % 16 = 2 → t.bootstat.toNat / 2 ^ 16 = s.tests.hbm.toNat)) := by
  refine ⟨_, powerOn_fails going early ((bringUp_none_iff s early).2 stops), bootWord_err early.le .., bootWord_stage early.le .., rfl, fun two => ?_⟩
  rw [two]
  exact bootWord_hbm s.tests

/-- What the first stage does: the first image that the boot ROM accepts runs, and its level is burnt (R382). -/
theorem bringUp_first {s t : State} (h : s.bringUp 1 = some t) : t.imageUsed = s.bootSlot ∧
    t.rollbackFuse = max s.rollbackFuse (field (if s.bootSlot = 2 then s.image2 else s.image).header 8 4) := by
  simp only [State.bringUp, Option.ite_none_left_eq_some, Option.some.injEq] at h
  obtain ⟨-, rfl⟩ := h
  exact ⟨rfl, rfl⟩

/-- What the last stage gives: near memory zero, the image's policy, budgets within the package limit, and each chiplet as its test and its
entry of the map say (R12, R380, R383, R384). -/
theorem served_spec {s : State} (tidy : s.Tidy) :
    (∀ a, s.dev * 2 ^ 44 ≤ a → a < s.dev * 2 ^ 44 + 2 ^ 40 → mget s.served.mem a = 0) ∧
    s.served.fwcfg = s.running.config &&& 0xFF0F ∧ (s.served.budgets.map (·.2)).sum ≤ s.served.packageLimit ∧
    4200 ≤ s.served.packageLimit ∧ s.served.packageLimit ≤ 6000 ∧
    ∀ c < 64, let e := (mget s.running.chipMap c).toNat
      (mget s.tests.chips c = true → s.served.fenced c = true ∧ (s.served.chip c).getLsbD 2 = true) ∧
      (mget s.tests.chips c = false → e < 8 → s.served.fenced c = false ∧ s.served.chipPart c = e) ∧
      (mget s.tests.chips c = false → 8 ≤ e → s.served.fenced c = true) := by
  have mem : s.served.mem = _ := served_field s State.mem fun _ => rfl
  have fwcfg : s.served.fwcfg = _ := served_field s State.fwcfg fun _ => rfl
  have budgets : s.served.budgets = _ := served_field s State.budgets fun _ => rfl
  have limit : s.served.packageLimit = s.running.boardLimit := served_field s State.packageLimit fun _ => rfl
  obtain ⟨least, most⟩ := boardLimit_range s.running
  rw [mem, fwcfg, budgets, limit]
  refine ⟨fun a lo hi => ?_, rfl, cutBudgets_le _ _, least, most, fun c hc => ?_⟩
  · exact (mget_mcut _ _ _ _ tidy.1).trans (if_pos ⟨lo, hi⟩)
  · unfold State.fenced State.chipPart
    rw [served_chip s hc]
    refine ⟨fun failed => ?_, fun passed given => broughtUp_given passed given, fun passed unused => ?_⟩
    · rw [broughtUp_failed failed]; exact ⟨rfl, rfl⟩
    · rw [broughtUp_unused passed unused]; rfl

/-! A device that has stopped. -/

theorem step_of_stopped {s : State} (h : s.bootstat.getLsbD 8 = true) : step s = s.stoppedStep := if_pos h

theorem does_of_ne {s t : State} {a : Act} (h : a s = .next t) (ne : t ≠ s) : s.does a = true := by
  unfold State.does
  rw [h]
  exact decide_eq_true ne

/-- Its registers can still be read (R383). -/
theorem step_stopped_load {s : State} {k : Nat} {a : MmioAccess} {m : Mmio} (h : s.bootstat.getLsbD 8 = true) (one : s.mmioIn = [(k, a)])
    (access : s.mmioAccess k m) (read : a.write = false) :
    step s = .next { s.mmioDone k with mmioOut := s.mmioOut ++ [BitVec.ofNat 64 (s.mmioRead m)] } := by
  have here : mget s.mmioIn k = a := by rw [one]; simp [mget]
  have load := mmioWrite_load access (by rw [here]; exact read)
  have does := does_of_ne (a := execMmioWrite k) load fun same => by simpa using congrArg (fun t : State => t.mmioOut.length) same
  rw [step_of_stopped h, State.stoppedStep, one]
  simp only [mkeys, List.map_cons, List.map_nil, List.find?_cons, does]
  exact load

end Sys2Proof.Machine

open Sys2Proof Sys2Proof.Machine

/-- Settles O53: errors and ports by the spec lemmas of their steps; a stage stops as `bringUp_none_iff` says, keeps what `bringUp_kept` names, and the
last one gives what `served_spec` states. -/
theorem errorsAndBringUp : Obligations.ErrorsAndBringUp := by
  unfold Obligations.ErrorsAndBringUp
  refine ⟨fun s k => ⟨fun unit pa he => ?_, fun c he _ => ?_, fun core he => ?_, fun hk => cxlPortDown_spec s hk, _, rfl, rfl⟩,
    fun s => ⟨powerOn_over, fun stopped => ⟨fun none => ?_, fun k a one access read => ?_⟩, fun going early =>
      ⟨fun stops => powerOn_stops going early stops, fun goes => ?_⟩⟩⟩
  · refine ⟨_, rfl, ?_⟩
    rw [he]
    let s1 : State := { s with errIn := mset s.errIn k default }
    exact ⟨(poisoned_poisonLine s1 pa pa).trans (if_pos rfl), fun q hq => (poisoned_poisonLine s1 pa q).trans (if_neg hq), rfl, rfl,
      mget_mset_same .., countUncorr_field (s1.poisonLine pa) unit⟩
  · refine ⟨_, rfl, ?_⟩
    rw [he]
    exact chipletError_spec _ c
  · refine ⟨_, rfl, ?_⟩
    rw [he]
    refine ⟨rfl, rfl, fun e h => ?_, fun e h => ?_, fun e h => ?_⟩ <;> simpa using (List.mem_filter.1 h).2
  · rw [step_of_stopped stopped, State.stoppedStep, none]; rfl
  · refine ⟨_, step_stopped_load stopped one access read, ?_, rfl⟩
    simp [State.mmioRead]
  · cases stage : s.bringUp (s.bootstat.toNat % 16 + 1) with
    | none => exact absurd ((bringUp_none_iff s early).1 stage) goes
    | some t =>
      obtain ⟨crews, kept⟩ := bringUp_kept early stage
      refine ⟨_, powerOn_completes going early stage, bootWord_err early .., bootWord_stage early .., crews, fun first => ?_, kept, fun last tidy => ?_⟩
      · rw [first] at stage
        obtain ⟨used, fuse⟩ := bringUp_first stage
        exact ⟨used, fuse⟩
      · rw [last, show 7 + 1 = 8 from rfl, bringUp_last] at stage
        have spec := served_spec tidy
        rw [Option.some.inj stage] at spec
        exact spec
end

section
/-! What the reset of a chiplet leaves of the cisterns of its cores (R20, R315, R331), and what steal messages do (R326). -/

namespace Sys2Proof.Machine

/-! The tables of the cores. -/

/-- The core has gained no claim, and an empty cistern has stayed empty. -/
def Core.shrinksTo (c d : Core) : Prop := d.claims ⊆ c.claims ∧ (c.cistern = [] → d.cistern = [])

/-- From s to t a canonical table of cores stays so, and cisterns and claims only go. -/
def ClaimsShrink (s t : State) : Prop := mwf s.cores = true → mwf t.cores = true ∧ ∀ n, (s.core n).shrinksTo (t.core n)

theorem Core.shrinksTo_refl (c : Core) : c.shrinksTo c := ⟨List.Subset.refl _, id⟩

theorem Core.shrinksTo_dropClaim (c : Core) (cl : Claim) : c.shrinksTo (c.dropClaim cl) := by
  refine ⟨List.filter_subset_self _, fun empty => ?_⟩
  unfold Core.dropClaim
  rw [empty]
  exact ite_self _

theorem ClaimsShrink.of_cores {s t : State} (h : t.cores = s.cores) : ClaimsShrink s t := fun wf =>
  have same : ∀ n, t.core n = s.core n := fun n => congrArg (mget · n) h
  ⟨h ▸ wf, fun n => same n ▸ Core.shrinksTo_refl _⟩

theorem ClaimsShrink.refl (s : State) : ClaimsShrink s s := .of_cores rfl

theorem ClaimsShrink.trans {s t r : State} (h : ClaimsShrink s t) (g : ClaimsShrink t r) : ClaimsShrink s r := fun wf =>
  have ⟨wft, shrink⟩ := h wf
  have ⟨wfr, shrinkMore⟩ := g wft
  ⟨wfr, fun n => ⟨fun _ he => (shrink n).1 ((shrinkMore n).1 he), fun empty => (shrinkMore n).2 ((shrink n).2 empty)⟩⟩

theorem ClaimsShrink.foldl {α : Type} {f : State → α → State} (h : ∀ s a, ClaimsShrink s (f s a)) :
    ∀ (l : List α) (s : State), ClaimsShrink s (l.foldl f s)
  | [], s => .refl s
  | a :: r, s => (h s a).trans (ClaimsShrink.foldl h r (f s a))

/-- A fold of steps that leave the cores leaves them. -/
theorem foldl_cores {α : Type} {f : State → α → State} (h : ∀ s a, (f s a).cores = s.cores) : ∀ (l : List α) (s : State),
    (l.foldl f s).cores = s.cores
  | [], _ => rfl
  | a :: r, s => (foldl_cores h r (f s a)).trans (h s a)

theorem cores_ite {p : Prop} [Decidable p] {s t r : State} (h : t.cores = s.cores) (g : r.cores = s.cores) :
    (if p then t else r).cores = s.cores := by
  split
  · exact h
  · exact g

@[simp] theorem cores_sfrqRefill (s : State) (core : Nat) : (s.sfrqRefill core).cores = s.cores := by
  unfold State.sfrqRefill
  split
  · exact cores_ite rfl rfl
  · rfl

@[simp] theorem cores_dropRecord (s : State) (e : Nat × SfRecord) : (s.dropRecord e).cores = s.cores :=
  cores_ite rfl (cores_sfrqRefill ..)

@[simp] theorem cores_dropRecords (s : State) (p : SfRecord → Bool) : (s.dropRecords p).cores = s.cores :=
  foldl_cores (fun s _ => cores_dropRecord s _) _ s

@[simp] theorem cores_endStrand (s : State) (u k : Nat) : (s.endStrand u k).cores = s.cores := cores_dropRecords ..

@[simp] theorem cores_checkRetire (s : State) (u : Nat) : (s.checkRetire u).cores = s.cores := cores_ite rfl rfl

@[simp] theorem cores_endLaunch (s : State) (l status code detail : Nat) : (s.endLaunch l status code detail).cores = s.cores :=
  cores_ite rfl rfl

@[simp] theorem cores_termStrands (s : State) (u : Nat) (ks : List Nat) (whole : Bool) (code detail : Nat) :
    (s.termStrands u ks whole code detail).cores = s.cores := by
  have ended : ((ks.foldl (fun x k => x.endStrand u k) s).checkRetire u).cores = s.cores :=
    (cores_checkRetire ..).trans (foldl_cores (fun x k => cores_endStrand x u k) ks s)
  have dropped := cores_ite (p := (((ks.foldl (fun x k => x.endStrand u k) s).checkRetire u).crew u).retiring = true)
    ((cores_dropRecords _ (fun r => decide (r.crew = u))).trans ended) ended
  exact cores_ite ((cores_endLaunch ..).trans dropped) dropped

@[simp] theorem cores_endOp (s : State) (h status cause detail : Nat) : (s.endOp h status cause detail).cores = s.cores := rfl

theorem cores_loseOps (s : State) (u : Nat) : (s.loseOps u).cores = s.cores := by
  refine foldl_cores (fun x e => cores_ite rfl ?_) s.ops s
  cases e.2.kind with
  | acommit _ => exact cores_ite rfl rfl
  | copy _ => exact cores_ite rfl rfl
  | _ => rfl

@[simp] theorem cores_leaveBy (s : State) (id port : Nat) (x : Sent) : (s.leaveBy id port x).cores = s.cores :=
  cores_ite rfl rfl

theorem cores_respond (s : State) (k : Nat) (r : Req) : (s.respond k r).cores = s.cores := by
  refine cores_ite rfl ?_
  unfold State.emitSince
  split
  · exact cores_leaveBy ..
  · rfl

theorem cores_loseStx (s : State) (c : Crew) : (s.loseStx c).cores = s.cores :=
  foldl_cores (fun _ _ => cores_ite (cores_respond ..) rfl) s.net s

@[simp] theorem cores_loseCrew (s : State) (u : Nat) : (s.loseCrew u).cores = s.cores :=
  ((cores_loseStx ((s.loseOps u).dropCrewRecords u) (s.crew u)).trans (cores_dropRecords ..)).trans (cores_loseOps s u)

theorem cores_endCrews (s : State) (l : Nat) : (s.endCrews l).cores = s.cores := by
  refine foldl_cores (fun x e => cores_ite rfl ?_) s.crews s
  have ended := cores_termStrands x e.1 e.2.keys true 0 0
  exact cores_ite ended ((foldl_cores (fun y _ => cores_endOp y ..) _ _).trans ended)

theorem cores_afterLoss (s : State) (chip : Nat) (c : Crew) : (s.afterLoss chip c).cores = s.cores :=
  cores_ite rfl ((cores_endCrews ..).trans (cores_endLaunch ..))

/-! The completion of a launch. -/

/-- Writes made one after the other keep what each that performs keeps. -/
theorem foldl_wr_field {β : Type} {f : State → β} {g : WrRes → Nat × Nat × Nat → WrRes}
    (hg : ∀ r p t, g r p = .ok t → ∃ q, r = .ok q ∧ f t = f q) :
    ∀ (ps : List (Nat × Nat × Nat)) (r : WrRes) (t : State), ps.foldl g r = .ok t → ∃ q, r = .ok q ∧ f t = f q
  | [], _, t, h => ⟨t, h, rfl⟩
  | p :: ps, r, t, h => by
    obtain ⟨q, hq, rest⟩ := foldl_wr_field hg ps _ t h
    obtain ⟨q0, hr, part⟩ := hg r p q hq
    exact ⟨q0, hr, rest.trans part⟩

/-- A write of virtual memory that performs changes memory, sequence numbers and poison only. -/
theorem wrVirt_field {s t : State} {core part space va : Nat} {l : List Byte} (h : s.wrVirt core part space va l = .ok t) {β : Type}
    (f : State → β) (hf : ∀ s : State, f s = f { s with mem := [], seqs := [], poison := [] }) : f t = f s := by
  obtain ⟨q, hq, kept⟩ := foldl_wr_field (fun r p t h => by
    cases r with
    | ok q =>
      refine ⟨q, rfl, ?_⟩
      dsimp only at h
      split at h
      · split at h
        · cases h
        · split at h
          · cases h; exact wrEngine_field q _ _ f hf
          · cases h
      · cases h
      · cases h
    | fault _ _ => cases h
    | busy => cases h) _ _ t h
  cases hq
  exact kept

theorem cores_reportLaunch {s t : State} {part space : Nat} {compl word fut : Word64} {queue : Nat}
    (h : s.reportLaunch part space compl word fut queue = some t) : t.cores = s.cores := by
  obtain ⟨r, hr, rfl⟩ := Option.map_eq_some_iff.1 h
  have written : r.1.cores = s.cores := by
    unfold State.wordWrite at hr
    split at hr
    · cases hr; rfl
    · split at hr <;> cases hr
      · exact wrVirt_field ‹_› State.cores fun _ => rfl
      · rfl
  have raised := cores_ite (p := (r.2 && decide (queue ≠ 0)) = true) (show (r.1.raise queue).cores = s.cores from written) written
  exact cores_ite raised raised

/-- A launch's claim on one core is released (R322). -/
def State.releaseClaim (l : Nat) (s : State) (e : Nat × Core) : State :=
  match e.2.claims.find? (fun c => decide (c.launch = l)) with
  | some cl => s.setCore e.1 (e.2.dropClaim cl)
  | none => s

theorem dropClaims_eq (s : State) (l : Nat) : s.dropClaims l = s.cores.foldl (State.releaseClaim l) s := rfl

theorem releaseClaims_shrink (l : Nat) {s : State} : ∀ (es : List (Nat × Core)) (x : State), (∀ e ∈ es, s.core e.1 = e.2) →
    mwf x.cores = true → (∀ n, (s.core n).shrinksTo (x.core n)) →
    mwf (es.foldl (State.releaseClaim l) x).cores = true ∧ ∀ n, (s.core n).shrinksTo ((es.foldl (State.releaseClaim l) x).core n)
  | [], _, _, wf, shrink => ⟨wf, shrink⟩
  | e :: es, x, listed, wf, shrink => by
    have step : mwf (x.releaseClaim l e).cores = true ∧ ∀ n, (s.core n).shrinksTo ((x.releaseClaim l e).core n) := by
      unfold State.releaseClaim
      split
      · refine ⟨mwf_mset _ _ _ wf, fun n => ?_⟩
        rw [State.core_setCore]
        split
        · next same => rw [same, ← listed e (List.mem_cons_self ..)]; exact Core.shrinksTo_dropClaim ..
        · exact shrink n
      · exact ⟨wf, shrink⟩
    exact releaseClaims_shrink l es _ (fun d hd => listed d (List.mem_cons_of_mem _ hd)) step.1 step.2

theorem claimsShrink_dropClaims (s : State) (l : Nat) : ClaimsShrink s (s.dropClaims l) := fun wf => by
  rw [dropClaims_eq]
  exact releaseClaims_shrink l s.cores s (fun e he => mget_mem s.cores 0 e wf he) wf fun _ => Core.shrinksTo_refl _

theorem claimsShrink_completeCut (s : State) (l : Nat) : ClaimsShrink s (s.completeCut l) := by
  unfold State.completeCut State.completeLaunch
  split
  · have freed : ((s.setLaunch l { s.launchOf l with state := 2 }).dropGroup (s.launchOf l).part (s.launchOf l).group).cores = s.cores :=
      cores_ite rfl rfl
    have released := (ClaimsShrink.of_cores freed).trans (claimsShrink_dropClaims _ l)
    cases h : State.reportLaunch _ _ _ _ _ _ _ with
    | none => exact .refl s
    | some t => exact released.trans (.of_cores (cores_reportLaunch h))
  · exact .refl s

/-! The reset. -/

theorem claimsShrink_aftermath (lost : List (Nat × Crew)) (s : State) (chip : Nat) :
    ClaimsShrink s ((lost.map (fun e => e.2.launch)).eraseDups.foldl State.completeCut
      (lost.foldl (fun (x : State) e => x.afterLoss chip e.2) s)) :=
  .trans (.of_cores (foldl_cores (fun x (e : Nat × Crew) => cores_afterLoss x chip e.2) lost s)) (.foldl claimsShrink_completeCut _ _)

theorem mwf_foldl_mset {α β : Type} [Inhabited α] [DecidableEq α] (key : β → Nat) (v : FMap α → β → α) : ∀ (l : List β) (m : FMap α),
    mwf m = true → mwf (l.foldl (fun m b => mset m (key b) (v m b)) m) = true
  | [], _, h => h
  | _ :: r, m, h => mwf_foldl_mset key v r _ (mwf_mset m _ _ h)

theorem takeDown_core (s : State) (chip n : Nat) :
    (s.takeDown chip).core n = if 12 * chip ≤ n ∧ n < 12 * chip + 12 then (s.core n).loseCistern else s.core n :=
  mget_foldl_range Core.loseCistern s.cores (12 * chip) n 12

/-- The cores of a chiplet keep no cistern record after its reset, and only the claims that lie in memory. -/
theorem resetChiplet_cores {s : State} (wf : mwf s.cores = true) (chip i : Nat) (hi : i < 12) :
    ((s.resetChiplet chip).core (12 * chip + i)).cistern = [] ∧
    ∀ e ∈ ((s.resetChiplet chip).core (12 * chip + i)).claims, e.evicted = true := by
  have lost := foldl_cores (fun (x : State) (e : Nat × Crew) => cores_loseCrew x e.1) (s.crewsOn chip) s
  generalize down : (s.crewsOn chip).foldl (fun (x : State) e => x.loseCrew e.1) s = s1 at lost
  have wfDown : mwf (s1.takeDown chip).cores = true := mwf_foldl_mset _ _ _ _ (lost ▸ wf)
  obtain ⟨cells, claims⟩ := loseCistern_spec (s1.core (12 * chip + i))
  have core := takeDown_core s1 chip (12 * chip + i)
  rw [if_pos (by omega)] at core
  rw [resetChiplet_eq, down]
  obtain ⟨less, empty⟩ := (claimsShrink_aftermath (s.crewsOn chip) (s1.takeDown chip) chip wfDown).2 (12 * chip + i)
  rw [core] at less empty
  exact ⟨empty cells, fun e he => claims e (less he)⟩

theorem core_ne_of_not_onChip {chip core : Nat} (h : (!onChip chip core) = true) : core / 12 ≠ chip := fun on => by
  simp [onChip, chipOf, on] at h

/-- No line, cached word or translation of a chiplet's cores outlives its reset. -/
theorem resetChiplet_caches (s : State) (chip : Nat) :
    (∀ e ∈ (s.resetChiplet chip).l1, e.core / 12 ≠ chip) ∧ (∀ e ∈ (s.resetChiplet chip).icache, e.core / 12 ≠ chip) ∧
    ∀ e ∈ (s.resetChiplet chip).tlb, 2 ≤ e.owner → (e.owner - 2) / 12 ≠ chip := by
  have kept := spares_resetChiplet s chip
  have l1 : (s.resetChiplet chip).l1 = _ := kept.field State.l1
  have icache : (s.resetChiplet chip).icache = _ := kept.field State.icache
  have tlb : (s.resetChiplet chip).tlb = _ := kept.field State.tlb
  rw [l1, icache, tlb]
  refine ⟨fun e he => core_ne_of_not_onChip (List.mem_filter.1 he).2, fun e he => core_ne_of_not_onChip (List.mem_filter.1 he).2,
    fun e he high => ?_⟩
  have off := (List.mem_filter.1 he).2
  rw [Bool.or_eq_true, decide_eq_true_eq] at off
  exact core_ne_of_not_onChip (off.resolve_left (by omega))

theorem resetChiplet_time (s : State) (chip : Nat) : (s.resetChiplet chip).time = s.time :=
  ((spares_resetChiplet s chip).field State.time).trans ((spares_loseCrews (s.crewsOn chip) s).1.field State.time)

/-- The other chiplets stay fenced or in service. -/
theorem resetChiplet_fenced_ne (s : State) {chip c : Nat} (h : c ≠ chip) : (s.resetChiplet chip).fenced c = s.fenced c := by
  unfold State.fenced State.chip
  rw [resetChiplet_chipctl, mget_mset_ne _ _ h]

theorem chipletReset_begins {s : State} {k : Nat} (hk : k < 64) (idle : s.resetting k = false) :
    exec (.chipletReset k) s = .next (s.resetChiplet k) := by
  rw [exec_chipletReset, execChipletReset, if_neg (by omega), if_neg (by simp [idle])]

theorem chipletReset_ends {s : State} {k : Nat} (hk : k < 64) (busy : s.resetting k = true) :
    exec (.chipletReset k) s = .next { s with chipctl := mset s.chipctl k (mget s.chipctl k &&& ~~~8) } := by
  rw [exec_chipletReset, execChipletReset, if_neg (by omega), if_pos busy]

/-! Steal messages. -/

theorem nbit_toNat {w : Nat} (x : BitVec w) (i : Nat) : nbit x.toNat i = x.getLsbD i := by
  rw [BitVec.getLsbD, Nat.testBit_eq_decide_div_mod_eq]; rfl

/-- A chunk of a launch's stage that a thief of domain `dom` may take: the other domain owns it and has supplied no crew of it (R326). -/
def Launch.stealable (x : Launch) (dom stage c : Nat) : Prop :=
  c < x.record.chunks ∧ x.ownerOf stage c = 1 - dom ∧ mget x.supplied (chunkKey stage c) = 0

/-- The launch after a chunk of a stage has changed owner. -/
def Launch.yieldChunk (x : Launch) (dom stage c : Nat) : Launch :=
  { x with owner := mset x.owner (chunkKey stage c) (dom + 1), noneSeen := mset x.noneSeen (16 * (1 - dom) + stage) false }

/-- A chunk that has changed owner is the thief's, and no other chunk of the stage has changed hands. -/
theorem ownerOf_yieldChunk (x : Launch) (dom stage c d : Nat) :
    (x.yieldChunk dom stage c).ownerOf stage d = if d = c then dom else x.ownerOf stage d := by
  unfold Launch.ownerOf Launch.yieldChunk
  rw [mget_mset]
  by_cases h : d = c
  · subst h; simp
  · rw [if_neg (show chunkKey stage d ≠ chunkKey stage c by unfold chunkKey; omega), if_neg h]

/-- STEAL_REQUEST sends its message when every condition of R326 holds. -/
theorem stealRequest_sends {s : State} {dom l : Nat} (on : s.fwcfg.getLsbD 2 = true) (hd : dom < 2) (live : (s.launchOf (l / 16)).state = 1)
    (hg : l % 16 < (s.launchOf (l / 16)).record.stages) (whole : (s.launchOf (l / 16)).cut = false)
    (unseen : mget (s.launchOf (l / 16)).noneSeen (16 * dom + l % 16) = false)
    (alone : ∀ e ∈ s.steals, ¬(e.2.live = true ∧ e.2.launch = l / 16 ∧ e.2.stage = l % 16 ∧ e.2.dom = dom))
    (spent : (s.launchOf (l / 16)).nextChunk dom (l % 16) = none) (fresh : ∀ e ∈ (s.launchOf (l / 16)).restarts, e.1 ≠ l % 16)
    (home : ∀ e ∈ s.crews, ¬(e.2.launch = l / 16 ∧ e.2.stage = l % 16 ∧ e.2.preempt = 2)) (room : s.roomIn dom (l / 16) (l % 16) = true) :
    exec (.stealRequest dom l) s = .next { s with
      steals := mset s.steals s.nextId { live := true, answer := false, dom := dom, launch := l / 16, stage := l % 16, chunk := none }
      nextId := s.nextId + 1 } := by
  have bit : s.stealing = true := (nbit_toNat s.fwcfg 2).trans on
  have asked : s.steals.any (fun e => e.2.live && decide (e.2.launch = l / 16) && decide (e.2.stage = l % 16) && decide (e.2.dom = dom)) = false := by
    rw [List.any_eq_false]; intro e he; simpa [and_assoc] using alone e he
  have again : (s.launchOf (l / 16)).restarts.any (fun e => decide (e.1 = l % 16)) = false := by
    rw [List.any_eq_false]; intro e he; simpa using fresh e he
  have away : s.crews.any (fun e => decide (e.2.launch = l / 16) && decide (e.2.stage = l % 16) && decide (e.2.preempt = 2)) = false := by
    rw [List.any_eq_false]; intro e he; simpa [and_assoc] using home e he
  exact if_pos (by simp [bit, hd, live, hg, whole, unseen, asked, spent, again, away, room])

/-- From the end of a range a search finds the greatest number that passes. -/
theorem find?_reverse_range {p : Nat → Bool} {c : Nat} (hp : p c = true) : ∀ {n : Nat}, c < n → (∀ d < n, p d = true → d ≤ c) →
    (List.range n).reverse.find? p = some c
  | 0, hc, _ => absurd hc (Nat.not_lt_zero c)
  | n + 1, hc, last => by
    rw [List.range_succ, List.reverse_append, List.reverse_singleton, List.singleton_append, List.find?_cons]
    cases pn : p n with
    | true => rw [show n = c from Nat.le_antisymm (last n (Nat.lt_succ_self n) pn) (Nat.le_of_lt_succ hc)]
    | false =>
      have ne : c ≠ n := fun e => by rw [← e, hp] at pn; cases pn
      exact find?_reverse_range hp (by omega) fun d hd => last d (by omega)

/-- The test by which STEAL_REQUEST_ARRIVAL chooses a chunk. -/
def Launch.stealTest (x : Launch) (dom stage c : Nat) : Bool :=
  decide (x.ownerOf stage c = 1 - dom) && decide (mget x.supplied (chunkKey stage c) = 0)

theorem stealable_iff (x : Launch) (dom stage c : Nat) : x.stealable dom stage c ↔ c < x.record.chunks ∧ x.stealTest dom stage c = true := by
  simp [Launch.stealable, Launch.stealTest]

section
variable {s : State} {k : Nat} (live : (mget s.steals k).live = true) (up : s.bridgeDown = false)
include live up

/-- A request that arrives is answered with the greatest chunk that may be taken, which changes owner (R326). -/
theorem stealRequestArrival_some {c : Nat} (asks : (mget s.steals k).answer = false)
    (free : (s.launchOf (mget s.steals k).launch).stealable (mget s.steals k).dom (mget s.steals k).stage c)
    (last : ∀ d, (s.launchOf (mget s.steals k).launch).stealable (mget s.steals k).dom (mget s.steals k).stage d → d ≤ c) :
    let m := mget s.steals k
    let s1 := s.setLaunch m.launch ((s.launchOf m.launch).yieldChunk m.dom m.stage c)
    exec (.stealRequestArrival k) s = .next { s1 with steals := mset s1.steals k { m with answer := true, chunk := some c } } := by
  obtain ⟨small, pass⟩ := (stealable_iff ..).1 free
  have found := find?_reverse_range pass small fun d hd pd => last d ((stealable_iff ..).2 ⟨hd, pd⟩)
  unfold Launch.stealTest at found
  rw [exec_stealRequestArrival, execStealRequestArrival, if_pos (by simp [live, asks, up])]
  dsimp only
  rw [found]
  rfl

/-- With no such chunk the answer is none. -/
theorem stealRequestArrival_none (asks : (mget s.steals k).answer = false)
    (spent : ∀ c, ¬(s.launchOf (mget s.steals k).launch).stealable (mget s.steals k).dom (mget s.steals k).stage c) :
    exec (.stealRequestArrival k) s = .next { s with steals := mset s.steals k { mget s.steals k with answer := true, chunk := none } } := by
  have found : (List.range (s.launchOf (mget s.steals k).launch).record.chunks).reverse.find?
      ((s.launchOf (mget s.steals k).launch).stealTest (mget s.steals k).dom (mget s.steals k).stage) = none := by
    rw [List.find?_eq_none]
    intro c hc pass
    exact spent c ((stealable_iff ..).2 ⟨List.mem_range.1 (List.mem_reverse.1 hc), pass⟩)
  unfold Launch.stealTest at found
  rw [exec_stealRequestArrival, execStealRequestArrival, if_pos (by simp [live, asks, up])]
  dsimp only
  rw [found]

/-- An answer that comes back ends the exchange; one of none is remembered. -/
theorem stealAnswerArrival_none (answers : (mget s.steals k).answer = true) (nothing : (mget s.steals k).chunk = none) :
    let m := mget s.steals k
    let x := s.launchOf m.launch
    let s1 := s.setLaunch m.launch { x with noneSeen := mset x.noneSeen (16 * m.dom + m.stage) true }
    exec (.stealAnswerArrival k) s = .next { s1 with steals := mset s1.steals k default } := by
  rw [exec_stealAnswerArrival, execStealAnswerArrival, if_pos (by simp [live, answers, up]), nothing]
  rfl

theorem stealAnswerArrival_some (answers : (mget s.steals k).answer = true) (chunk : (mget s.steals k).chunk ≠ none) :
    exec (.stealAnswerArrival k) s = .next { s with steals := mset s.steals k default } := by
  obtain ⟨c, hc⟩ := Option.ne_none_iff_exists'.1 chunk
  rw [exec_stealAnswerArrival, execStealAnswerArrival, if_pos (by simp [live, answers, up]), hc]
  rfl
end

end Sys2Proof.Machine

open Sys2Proof Sys2Proof.Machine

/-- Settles O45: the reset by what `spares_resetChiplet` and `claimsShrink_aftermath` leave of the machine, the messages by the equations of their steps. -/
theorem chipletResetAndSteals : Obligations.ChipletResetAndSteals := by
  unfold Obligations.ChipletResetAndSteals
  refine ⟨fun s k tidy hk idle => ?_, fun s k hk busy => ?_, fun c e => ?_, fun s k => ⟨fun dom l => ?_, ?_⟩⟩
  · obtain ⟨-, -, wf, -⟩ := tidy
    have chip := resetChiplet_chip s k
    obtain ⟨l1, icache, tlb⟩ := resetChiplet_caches s k
    refine ⟨_, chipletReset_begins hk idle, ?_, ?_, fun c hc => resetChiplet_fenced_ne s hc, fun u hu => resetChiplet_crew hu, l1, icache, tlb,
      resetChiplet_cores wf k, resetChiplet_time s k⟩
    · rw [State.fenced, chip]; simp
    · rw [State.resetting, chip]; simp
  · refine ⟨_, chipletReset_ends hk busy, ?_, ?_, rfl⟩
    · simp [State.resetting, State.chip]
    · simp [State.fenced, State.chip]
  · exact List.mem_filter
  · intro x on hd live hg whole unseen alone spent fresh home room
    exact ⟨_, stealRequest_sends on hd live hg whole unseen alone spent fresh home room, mget_mset_same .., rfl, rfl⟩
  · intro m x free live up
    refine ⟨fun asks hd => ⟨fun c hc last hs => ?_, fun spent => ?_⟩, fun answers => ?_⟩
    · have launch : (s.setLaunch m.launch (x.yieldChunk m.dom m.stage c)).launchOf m.launch = x.yieldChunk m.dom m.stage c := mget_mset_same ..
      refine ⟨_, stealRequestArrival_some live up asks hc last, mget_mset_same .., ?_, fun d hne => ?_, ?_⟩
      · exact (congrArg (fun y : Launch => y.ownerOf m.stage c) launch).trans ((ownerOf_yieldChunk ..).trans (if_pos rfl))
      · exact (congrArg (fun y : Launch => y.ownerOf m.stage d) launch).trans ((ownerOf_yieldChunk ..).trans (if_neg hne))
      · exact (congrArg (fun y : Launch => mget y.noneSeen _) launch).trans (mget_mset_same ..)
    · exact ⟨_, stealRequestArrival_none live up asks spent, mget_mset_same .., rfl⟩
    · cases chunk : m.chunk with
      | none =>
        have launch : (s.setLaunch m.launch { x with noneSeen := mset x.noneSeen (16 * m.dom + m.stage) true }).launchOf m.launch = _ :=
          mget_mset_same ..
        exact ⟨_, stealAnswerArrival_none live up answers chunk, mget_mset_same ..,
          fun _ => (congrArg (fun y : Launch => mget y.noneSeen _) launch).trans (mget_mset_same ..), fun h => absurd rfl h⟩
      | some c =>
        have given : m.chunk ≠ none := chunk ▸ Option.some_ne_none c
        exact ⟨_, stealAnswerArrival_some live up answers given, mget_mset_same .., fun h => absurd h (Option.some_ne_none c), fun _ => rfl⟩
end

section
/-! Tables whose entries are replaced from a key on, and lists of lists of one length. -/

namespace Sys2Proof.Machine

variable {α : Type} [Inhabited α]

/-! Reading a table made of parts. -/

theorem mget_append_low {k : Nat} (r : FMap α) : ∀ {m : FMap α}, (∀ e ∈ m, e.1 < k) → mget (m ++ r) k = mget r k
  | [], _ => rfl
  | (a, x) :: m, h => by
    have low : a < k := h _ (List.mem_cons_self ..)
    rw [List.cons_append, mget, if_neg (by omega), if_neg (by omega)]
    exact mget_append_low r fun e he => h e (List.mem_cons_of_mem _ he)

theorem mget_above {k : Nat} : ∀ {m : FMap α}, (∀ e ∈ m, k < e.1) → mget m k = default
  | [], _ => rfl
  | (a, x) :: m, h => by rw [mget, if_pos (h _ (List.mem_cons_self ..))]

theorem mget_append_above {k : Nat} {r : FMap α} (h : ∀ e ∈ r, k < e.1) : ∀ m : FMap α, mget (m ++ r) k = mget m k
  | [] => mget_above h
  | (a, x) :: m => by rw [List.cons_append, mget, mget, mget_append_above h m]

@[simp] theorem length_mflat : ∀ (n k : Nat) (m : FMap α), (mflat k n m).length = n
  | 0, _, _ => rfl
  | n + 1, k, [] => by rw [mflat, List.length_cons, length_mflat n]
  | n + 1, k, (a, x) :: r => by
    rw [mflat]
    split <;> rw [List.length_cons, length_mflat n]

variable [DecidableEq α]

/-- The keys of numbered values lie in their range. -/
theorem mem_mnumber : ∀ (l : List α) (lo : Nat) (e : Nat × α), e ∈ mnumber lo l → lo ≤ e.1 ∧ e.1 < lo + l.length
  | [], _, _, h => by cases h
  | v :: l, lo, e, h => by
    rw [mnumber] at h
    have rest : e ∈ mnumber (lo + 1) l → lo ≤ e.1 ∧ e.1 < lo + (v :: l).length := fun he => by
      obtain ⟨low, high⟩ := mem_mnumber l (lo + 1) e he
      simp only [List.length_cons]; omega
    split at h
    · exact rest h
    · rcases List.mem_cons.1 h with rfl | h
      · simp
      · exact rest h

theorem mget_mnumber (r : FMap α) : ∀ (l : List α) (lo i : Nat) (hi : i < l.length), (∀ e ∈ r, lo + l.length ≤ e.1) →
    mget (mnumber lo l ++ r) (lo + i) = l[i]
  | [], _, _, hi, _ => absurd hi (Nat.not_lt_zero _)
  | v :: l, lo, i, hi, high => by
    have rest : ∀ e ∈ r, lo + 1 + l.length ≤ e.1 := fun e he => by
      have := high e he
      simp only [List.length_cons] at this; omega
    have beyond : ∀ e ∈ mnumber (lo + 1) l ++ r, lo < e.1 := fun e he => by
      rcases List.mem_append.1 he with he | he
      · have := (mem_mnumber l _ e he).1; omega
      · have := rest e he; omega
    rw [mnumber]
    cases i with
    | zero =>
      split
      · exact (mget_above beyond).trans (Eq.symm ‹v = default›)
      · rw [List.cons_append, mget, if_neg (by omega), if_pos (Nat.add_zero lo)]; rfl
    | succ i =>
      have tail := mget_mnumber r l (lo + 1) i (by simpa using hi) rest
      rw [show lo + (i + 1) = lo + 1 + i by omega]
      split
      · exact tail
      · rw [List.cons_append, mget, if_neg (by omega), if_neg (by omega)]; exact tail

/-- A replaced key reads as the value put there, whatever the table was. -/
theorem mget_mput_in (m : FMap α) (lo : Nat) (l : List α) {i : Nat} (hi : i < l.length) : mget (mput m lo l) (lo + i) = l[i] := by
  unfold mput
  rw [List.append_assoc, mget_append_low _ fun e he => ?_]
  · exact mget_mnumber _ l lo i hi fun e he => by simpa using (List.mem_filter.1 he).2
  · have := (List.mem_filter.1 he).2
    simp only [decide_eq_true_eq] at this; omega

/-- Every other key of a canonical table reads as before. -/
theorem mget_mput_out {m : FMap α} (wf : mwf m = true) (lo : Nat) (l : List α) {p : Nat} (hp : p < lo ∨ lo + l.length ≤ p) :
    mget (mput m lo l) p = mget m p := by
  unfold mput
  rcases hp with hp | hp
  · rw [List.append_assoc, mget_append_above fun e he => ?_]
    · rw [mget_filter (fun a => decide (a < lo)) m 0 p wf, if_pos (by simpa using hp)]
    · rcases List.mem_append.1 he with he | he
      · have := (mem_mnumber l lo e he).1; omega
      · have := (List.mem_filter.1 he).2
        simp only [decide_eq_true_eq] at this; omega
  · rw [mget_append_low _ fun e he => ?_]
    · rw [mget_filter (fun a => decide (lo + l.length ≤ a)) m 0 p wf, if_pos (by simpa using hp)]
    · rcases List.mem_append.1 he with he | he
      · have := (List.mem_filter.1 he).2
        simp only [decide_eq_true_eq] at this; omega
      · have := (mem_mnumber l lo e he).2; omega

/-! Lists of lists of one length. -/

theorem length_flatten_uniform {β : Type} {n : Nat} : ∀ {l : List (List β)}, (∀ r ∈ l, r.length = n) → l.flatten.length = n * l.length
  | [], _ => rfl
  | r :: l, h => by
    rw [List.flatten_cons, List.length_append, h r (List.mem_cons_self ..), List.length_cons,
      length_flatten_uniform fun r hr => h r (List.mem_cons_of_mem _ hr)]
    ring

theorem getElem?_flatten_uniform {β : Type} {n j : Nat} (hj : j < n) : ∀ {l : List (List β)} (i : Nat), (∀ r ∈ l, r.length = n) →
    l.flatten[n * i + j]? = (l[i]?).bind (·[j]?)
  | [], _, _ => by simp
  | r :: l, 0, h => by
    rw [List.flatten_cons, List.getElem?_append_left (by rw [h r (List.mem_cons_self ..)]; omega)]
    simp
  | r :: l, i + 1, h => by
    have hr := h r (List.mem_cons_self ..)
    rw [List.flatten_cons, List.getElem?_append_right (by rw [hr, Nat.mul_succ]; omega), hr,
      show n * (i + 1) + j - n = n * i + j by rw [Nat.mul_succ]; omega]
    exact getElem?_flatten_uniform hj i fun r hr => h r (List.mem_cons_of_mem _ hr)

end Sys2Proof.Machine
end

section
/-! What MMAs do at their completion (R79, R81, R82, R265). -/

namespace Sys2Proof.Machine

/-! The end of an operation. -/

theorem resolved_endOp {k : Nat} (hk : k < 2 ^ 64) (s : State) (status cause detail : Nat) :
    Resolved k status cause detail (s.endOp k status cause detail) := by
  have key : (BitVec.ofNat 64 k).toNat = k := by rw [BitVec.toNat_ofNat, Nat.mod_eq_of_lt hk]
  unfold Resolved State.endOp State.resolveOp
  rw [key]
  exact ⟨mget_mset_same .., mget_mset_same ..⟩

section
variable (s : State) (k status cause detail : Nat)
@[simp] theorem endOp_mem : (s.endOp k status cause detail).mem = s.mem := rfl
@[simp] theorem endOp_crews : (s.endOp k status cause detail).crews = s.crews := rfl
@[simp] theorem endOp_crew (u : Nat) : (s.endOp k status cause detail).crew u = s.crew u := rfl
@[simp] theorem endOp_core (n : Nat) : (s.endOp k status cause detail).core n = s.core n := rfl
end

/-! The elements of an MMA. -/

/-- The results of an MMA, row by row: each element's value and flags (R265). -/
def State.mmaResults (s : State) (f : FX) (op : Op) : List (List FRes) :=
  let c := s.crew op.crew
  let slotB := s.slotOf c f.slotB.val
  let cols := (List.range 256).map (fun j =>
    bBlocks slotB f.w (fun i => s.cisternRec op.core (s.claimOf op.core op.launchId) (nbits op.a.toNat 0 32 + i) j))
  let old := fun (i : Nat) => if (c.accForm f.acc.val).ranked || f.z then List.replicate 256 (0 : Nat)
    else (mflat 0 256 (c.accRow f.acc.val i)).map BitVec.toNat
  ((List.range 128).zip (mmaRows (s.slotOf c f.slotA.val) (mflat 0 tileSize (c.tileBytes f.tile.val)))).map (fun e =>
    (List.zip (old e.1) cols).map (fun x =>
      mmaElem x.1 e.2 x.2 (planeWeight (if f.w then 16 else 8) (slotPlanes slotB) (nbit slotB.toNat 8))))

/-- The value that an element had before, where the MMA adds to it. -/
def mmaOld (f : FX) (c : Crew) (i j : Nat) : Nat :=
  if (c.accForm f.acc.val).ranked || f.z then 0 else ((mflat 0 256 (c.accRow f.acc.val i)).getD j 0).toNat

/-- The element that an MMA gives in row i and column j (R79, R81). -/
def State.mmaElement (s : State) (f : FX) (op : Op) (i j : Nat) : FRes :=
  let c := s.crew op.crew
  let slotB := s.slotOf c f.slotB.val
  mmaElem (mmaOld f c i j) ((mmaRows (s.slotOf c f.slotA.val) (mflat 0 tileSize (c.tileBytes f.tile.val))).getD i [])
    (bBlocks slotB f.w (fun n => s.cisternRec op.core (s.claimOf op.core op.launchId) (nbits op.a.toNat 0 32 + n) j))
    (planeWeight (if f.w then 16 else 8) (slotPlanes slotB) (nbit slotB.toNat 8))

theorem length_mmaRows (slot : Word64) (t : List Byte) : (mmaRows slot t).length = 128 := by
  rw [mmaRows, List.length_map, List.length_range]

/-- The list of a row's old values. -/
theorem mmaOld_list (f : FX) (c : Crew) (i : Nat) :
    (if (c.accForm f.acc.val).ranked || f.z then List.replicate 256 0 else (mflat 0 256 (c.accRow f.acc.val i)).map BitVec.toNat) =
      (List.range 256).map (mmaOld f c i) := by
  apply List.ext_getElem
  · split <;> simp only [List.length_replicate, List.length_map, length_mflat, List.length_range]
  · intro j h1 h2
    have hj : j < 256 := by simpa only [List.length_map, List.length_range] using h2
    rw [List.getElem_map, List.getElem_range, mmaOld]
    split
    · exact List.getElem_replicate ..
    · rw [List.getElem_map, List.getD_eq_getElem _ _ (by rw [length_mflat]; exact hj)]

theorem mmaResults_row (s : State) (f : FX) (op : Op) {i : Nat} (hi : i < 128) :
    (s.mmaResults f op)[i]? = some ((List.range 256).map (s.mmaElement f op i)) := by
  unfold State.mmaResults
  dsimp only
  generalize rows : mmaRows (s.slotOf (s.crew op.crew) f.slotA.val) (mflat 0 tileSize ((s.crew op.crew).tileBytes f.tile.val)) = l
  have hrow : i < l.length := by rw [← rows, length_mmaRows]; exact hi
  have here : ((List.range 128).zip l)[i]? = some (i, l.getD i []) := List.getElem?_zip_eq_some.2
    ⟨List.getElem?_range hi, by rw [List.getD_eq_getElem _ _ hrow]; exact List.getElem?_eq_getElem hrow⟩
  rw [List.getElem?_map, here, Option.map_some, mmaOld_list, List.zip_map', List.map_map]
  congr 1
  refine List.map_congr_left fun j _ => ?_
  rw [State.mmaElement, rows]
  rfl

theorem length_mmaResults (s : State) (f : FX) (op : Op) : (s.mmaResults f op).length = 128 := by
  simp only [State.mmaResults, List.length_map, List.length_zip, List.length_range, length_mmaRows, Nat.min_self]

/-! The run of an MMA. -/

/-- The flags of an MMA change strands only (R82). -/
theorem weaveFlags_rest (c : Crew) (w : Nat) (fl : BitVec 4) : { c.weaveFlags w fl with strand := [] } = { c with strand := [] } := by
  have fold : ∀ (ks : List Nat) (d : Crew),
      { ks.foldl (fun (c : Crew) k => c.setSt k ((c.st k).orFlags fl)) d with strand := [] } = { d with strand := [] } := by
    intro ks
    induction ks with
    | nil => exact fun _ => rfl
    | cons k ks ih => exact fun d => ih (d.setSt k ((d.st k).orFlags fl))
  exact fold _ c

@[simp] theorem weaveFlags_acc (c : Crew) (w : Nat) (fl : BitVec 4) : (c.weaveFlags w fl).acc = c.acc :=
  (congrArg Crew.acc (weaveFlags_rest c w fl) :)
@[simp] theorem weaveFlags_tile (c : Crew) (w : Nat) (fl : BitVec 4) : (c.weaveFlags w fl).tile = c.tile :=
  (congrArg Crew.tile (weaveFlags_rest c w fl) :)
@[simp] theorem weaveFlags_ranked (c : Crew) (w : Nat) (fl : BitVec 4) : (c.weaveFlags w fl).ranked = c.ranked :=
  (congrArg Crew.ranked (weaveFlags_rest c w fl) :)

/-- The lists of a ranked accumulator after an MMA, and whether each has refused a NaN (R265). -/
def State.mmaLists (s : State) (f : FX) (op : Op) : List (List (Word × Word) × Bool) :=
  let c := s.crew op.crew
  let form := c.accForm f.acc.val
  ((List.range 128).zip (s.mmaResults f op)).map (fun e => rankOffers form.len (if f.z then [] else c.rankRow f.acc.val e.1)
    (rowOffers form.base (fun j => BitVec.ofNat 32 (e.2.getD j (0, 0)).1)))

/-- The crew of an MMA with the results in its accumulator. -/
def State.mmaCrew (s : State) (f : FX) (op : Op) : Crew :=
  let c := s.crew op.crew
  if (c.accForm f.acc.val).ranked then { c with ranked := mput c.ranked (128 * f.acc.val) ((s.mmaLists f op).map (fun x => x.1)) }
  else { c with acc := mput c.acc (accSize * f.acc.val) ((s.mmaResults f op).flatten.map (fun (r : FRes) => BitVec.ofNat 32 r.1)) }

/-- An MMA changes its accumulator, the flags of its weave, the counters of its core and its own entry. -/
theorem mmaRun_eq (s : State) (k : Nat) (f : FX) (op : Op) : ∃ fl fl1 nan, s.mmaRun k f op =
    ((s.setCrew op.crew ((s.mmaCrew f op).weaveFlags op.weave fl1)).setCore op.core
      (((s.core op.core).countMma fl nan).useCistern s.clock)).endOp k 0 0 0 :=
  ⟨_, _, _, rfl⟩

theorem rowOffers_congr (base : Word) {v w : Nat → Word} (h : ∀ j < 256, v j = w j) : rowOffers base v = rowOffers base w :=
  List.map_congr_left fun j hj => by rw [h j (List.mem_range.1 hj)]

theorem mmaLists_row (s : State) (f : FX) (op : Op) {i : Nat} (hi : i < 128) :
    let form := (s.crew op.crew).accForm f.acc.val
    (s.mmaLists f op)[i]? = some (rankOffers form.len (if f.z then [] else (s.crew op.crew).rankRow f.acc.val i)
      (rowOffers form.base (fun j => BitVec.ofNat 32 (s.mmaElement f op i j).1))) := by
  unfold State.mmaLists
  dsimp only
  have here : ((List.range 128).zip (s.mmaResults f op))[i]? = some (i, (List.range 256).map (s.mmaElement f op i)) :=
    List.getElem?_zip_eq_some.2 ⟨List.getElem?_range hi, mmaResults_row s f op hi⟩
  rw [List.getElem?_map, here, Option.map_some]
  refine congrArg some (congrArg (rankOffers _ _) (rowOffers_congr _ fun j hj => ?_))
  rw [List.getD_eq_getElem _ _ (by simpa using hj), List.getElem_map, List.getElem_range]

/-- A plain accumulator after an MMA: each element of the accumulator is the MMA's, every other as before. -/
theorem mmaCrew_plain {s : State} {f : FX} {op : Op} (plain : ((s.crew op.crew).accForm f.acc.val).ranked = false) :
    (∀ i < 128, ∀ j < 256, mget (s.mmaCrew f op).acc (32768 * f.acc.val + 256 * i + j) = BitVec.ofNat 32 (s.mmaElement f op i j).1) ∧
    (mwf (s.crew op.crew).acc = true → ∀ p, p < 32768 * f.acc.val ∨ 32768 * (f.acc.val + 1) ≤ p →
      mget (s.mmaCrew f op).acc p = mget (s.crew op.crew).acc p) := by
  have acc : (s.mmaCrew f op).acc = mput (s.crew op.crew).acc (32768 * f.acc.val)
      ((s.mmaResults f op).flatten.map (fun (r : FRes) => BitVec.ofNat 32 r.1)) := by
    rw [State.mmaCrew, plain]; rfl
  have rows : ∀ r ∈ s.mmaResults f op, r.length = 256 := fun r hr => by
    obtain ⟨i, hi, rfl⟩ := List.mem_iff_getElem.1 hr
    have row := mmaResults_row s f op (length_mmaResults s f op ▸ hi)
    rw [List.getElem?_eq_getElem hi] at row
    rw [Option.some.inj row, List.length_map, List.length_range]
  have size : ((s.mmaResults f op).flatten.map (fun (r : FRes) => BitVec.ofNat 32 r.1)).length = 32768 := by
    rw [List.length_map, length_flatten_uniform rows, length_mmaResults]
  refine ⟨fun i hi j hj => ?_, fun wf p hp => ?_⟩
  · have here : (s.mmaResults f op).flatten[256 * i + j]? = some (s.mmaElement f op i j) := by
      rw [getElem?_flatten_uniform hj i rows, mmaResults_row s f op hi, Option.bind_some, List.getElem?_map, List.getElem?_range hj]
      rfl
    obtain ⟨_, value⟩ := List.getElem?_eq_some_iff.1 here
    rw [acc, Nat.add_assoc, mget_mput_in _ _ _ (by rw [size]; omega), List.getElem_map, value]
  · rw [acc, mget_mput_out wf _ _ (by rw [size]; omega)]

/-- A ranked accumulator after an MMA: the list of each row has had the row's offers. -/
theorem mmaCrew_ranked {s : State} {f : FX} {op : Op} (ranked : ((s.crew op.crew).accForm f.acc.val).ranked = true) :
    (∀ i < 128, (s.mmaCrew f op).rankRow f.acc.val i =
      (rankOffers ((s.crew op.crew).accForm f.acc.val).len (if f.z then [] else (s.crew op.crew).rankRow f.acc.val i)
        (rowOffers ((s.crew op.crew).accForm f.acc.val).base (fun j => BitVec.ofNat 32 (s.mmaElement f op i j).1))).1) ∧
    (s.mmaCrew f op).acc = (s.crew op.crew).acc := by
  have crew : s.mmaCrew f op = { s.crew op.crew with
      ranked := mput (s.crew op.crew).ranked (128 * f.acc.val) ((s.mmaLists f op).map (fun x => x.1)) } := by
    rw [State.mmaCrew, ranked]; rfl
  rw [crew]
  refine ⟨fun i hi => ?_, rfl⟩
  have row := mmaLists_row s f op hi
  obtain ⟨hl, here⟩ := List.getElem?_eq_some_iff.1 row
  rw [Crew.rankRow, mget_mput_in _ _ _ (by simpa using hl), List.getElem_map, here]

theorem mmaCrew_tile (s : State) (f : FX) (op : Op) : (s.mmaCrew f op).tile = (s.crew op.crew).tile := by
  unfold State.mmaCrew; dsimp only; split <;> rfl

/-! The completion of an MMA. -/

/-- The array's work leaves the cisterns and what an MMA reads. -/
theorem useArray_core (s : State) (core t : Nat) :
    (s.useArray core t).core core = { s.core core with arrayFree := t, arrayUsed := s.clock, arrayGated := false } := mget_mset_same ..

theorem useArray_mem (s : State) (core t : Nat) : (s.useArray core t).mem = s.mem := rfl

theorem cistern_afterMma (c : Core) (fl : BitVec 4) (nan : Bool) (n : Nat) : ((c.countMma fl nan).useCistern n).cistern = c.cistern := rfl

theorem mmaElement_useArray (s : State) (f : FX) (op : Op) (t i j : Nat) :
    (s.useArray op.core t).mmaElement f op i j = s.mmaElement f op i j := by
  have claim : (s.useArray op.core t).claimOf op.core op.launchId = s.claimOf op.core op.launchId := by
    unfold State.claimOf; rw [useArray_core]
  have records : ∀ cl, (s.useArray op.core t).cisternRec op.core cl = s.cisternRec op.core cl := fun cl => by
    unfold State.cisternRec; rw [useArray_core]
  unfold State.mmaElement
  rw [claim, records]
  rfl

section
variable {s : State} {k : Nat} {f : FX} (kind : (mget s.ops k).kind = .mma f) (turn : s.arrayTurn k = true)
include kind turn

/-- An MMA whose bound is below every threshold counts in MXSKIP and resolves as SKIPPED (R265). -/
theorem mmaCompletion_skips (skips : mmaSkips f (s.crew (mget s.ops k).crew) (BitVec.ofNat 32 (nbits (mget s.ops k).a.toNat 32 32)) = true) :
    let core := s.core (mget s.ops k).core
    exec (.mmaCompletion k) s = .next ((s.setCore (mget s.ops k).core { core with mxskip := core.mxskip + 1 }).endOp k 1 0 0) := by
  rw [exec_mmaCompletion, execMmaCompletion]
  simp only [kind, turn, skips, Bool.not_true, Bool.false_eq_true, if_false, if_true]

/-- Any other runs once its cycles are over. -/
theorem mmaCompletion_runs {t : Nat}
    (runs : mmaSkips f (s.crew (mget s.ops k).crew) (BitVec.ofNat 32 (nbits (mget s.ops k).a.toNat 32 32)) = false)
    (ends : s.mmaEnd (mget s.ops k) (mmaCycles ((s.crew (mget s.ops k).crew).accForm f.acc.val).ranked
      (slotPlanes (s.slotOf (s.crew (mget s.ops k).crew) f.slotB.val))) = t) (past : t ≤ s.time) :
    exec (.mmaCompletion k) s = .next ((s.useArray (mget s.ops k).core t).mmaRun k f (mget s.ops k)) := by
  rw [exec_mmaCompletion, execMmaCompletion]
  simp only [kind, turn, runs, ends, Nat.not_lt.2 past, Bool.not_true, Bool.false_eq_true, if_false]

/-- An MMA that has run is DONE: its accumulator is as `State.mmaCrew` gives it, and memory, tiles and cistern are as before. -/
theorem mmaCompletion_done (hk : k < 2 ^ 64)
    (runs : mmaSkips f (s.crew (mget s.ops k).crew) (BitVec.ofNat 32 (nbits (mget s.ops k).a.toNat 32 32)) = false)
    (past : s.mmaEnd (mget s.ops k) (mmaCycles ((s.crew (mget s.ops k).crew).accForm f.acc.val).ranked
      (slotPlanes (s.slotOf (s.crew (mget s.ops k).crew) f.slotB.val))) ≤ s.time) :
    ∃ m : State, m.crews = s.crews ∧ (∀ i j, m.mmaElement f (mget s.ops k) i j = s.mmaElement f (mget s.ops k) i j) ∧
      Answers (exec (.mmaCompletion k) s) (fun t => Resolved k 0 0 0 t ∧ t.mem = s.mem ∧
        (∃ fl, t.crew (mget s.ops k).crew = (m.mmaCrew f (mget s.ops k)).weaveFlags (mget s.ops k).weave fl) ∧
        (t.core (mget s.ops k).core).cistern = (s.core (mget s.ops k).core).cistern) := by
  generalize ends : s.mmaEnd _ _ = t at past
  obtain ⟨fl, fl1, nan, run⟩ := mmaRun_eq (s.useArray (mget s.ops k).core t) k f (mget s.ops k)
  refine ⟨s.useArray (mget s.ops k).core t, rfl, mmaElement_useArray s f _ t, _, mmaCompletion_runs kind turn runs ends past, ?_⟩
  rw [run]
  refine ⟨resolved_endOp hk .., ?_, ⟨fl1, ?_⟩, ?_⟩
  · rw [endOp_mem, State.setCore_mem, State.setCrew_mem, useArray_mem]
  · rw [endOp_crew, State.crew_setCore, State.crew_setCrew, if_pos rfl]
  · rw [endOp_core, State.core_setCore, if_pos rfl, cistern_afterMma, useArray_core]
end

end Sys2Proof.Machine
end


section
/-! Segments of commits: their bytes, and what their application does to memory (R83, R86, R107, R270, R375). -/

namespace Sys2Proof.Machine

/-! Parts of lists and of memory. -/

theorem length_flatMap_uniform {α β : Type} {n : Nat} {g : α → List β} {l : List α} (h : ∀ x ∈ l, (g x).length = n) :
    (l.flatMap g).length = n * l.length := by
  rw [List.flatMap, length_flatten_uniform (List.forall_mem_map.2 h), List.length_map]

/-- Block i of blocks of one length. -/
theorem block_flatMap {α β : Type} {n : Nat} {g : α → List β} {l : List α} (h : ∀ x ∈ l, (g x).length = n) {i : Nat} (hi : i < l.length) :
    ((l.flatMap g).drop (n * i)).take n = g l[i] := by
  apply List.ext_getElem?
  intro j
  rw [List.getElem?_take]
  split
  · next hj =>
    rw [List.getElem?_drop, List.flatMap, getElem?_flatten_uniform hj i (List.forall_mem_map.2 h), List.getElem?_map, List.getElem?_eq_getElem hi]
    rfl
  · next hj => rw [List.getElem?_eq_none (by rw [h _ (List.getElem_mem hi)]; omega)]

theorem block_flatMap_range {β : Type} {n m : Nat} {g : Nat → List β} (h : ∀ i < m, (g i).length = n) {i : Nat} (hi : i < m) :
    (((List.range m).flatMap g).drop (n * i)).take n = g i := by
  rw [block_flatMap (fun x hx => h x (List.mem_range.1 hx)) (by simpa using hi), List.getElem_range]

/-- A list is its blocks one after the other. -/
theorem flatMap_blocks {β : Type} {n m : Nat} {l : List β} (h : l.length = n * m) :
    (List.range m).flatMap (fun i => (l.drop (n * i)).take n) = l := by
  have size : ∀ i < m, ((l.drop (n * i)).take n).length = n := fun i hi => by
    have : n * i + n ≤ n * m := by rw [← Nat.mul_succ]; exact Nat.mul_le_mul_left n hi
    rw [List.length_take, List.length_drop]; omega
  have total := length_flatMap_uniform (l := List.range m) (fun i hi => size i (List.mem_range.1 hi))
  rw [List.length_range] at total
  apply List.ext_getElem?
  intro p
  by_cases hp : p < n * m
  · have n0 : 0 < n := Nat.pos_of_ne_zero fun h0 => by rw [h0, Nat.zero_mul] at hp; omega
    have hi : p / n < m := Nat.div_lt_of_lt_mul hp
    have hj : p % n < n := Nat.mod_lt p n0
    rw [← Nat.div_add_mod p n, List.flatMap, getElem?_flatten_uniform hj _ (List.forall_mem_map.2 fun i hi => size i (List.mem_range.1 hi)),
      List.getElem?_map, List.getElem?_range hi, Option.map_some, Option.bind_some, List.getElem?_take, if_pos hj, List.getElem?_drop]
  · rw [List.getElem?_eq_none (by omega), List.getElem?_eq_none (by omega)]

/-- A part of the bytes of a range of memory. -/
theorem drop_take_mgetList {α : Type} [Inhabited α] (m : FMap α) (k : Nat) {n lo len : Nat} (h : lo + len ≤ n) :
    ((mgetList m k n).drop lo).take len = mgetList m (k + lo) len := by
  apply List.ext_getElem
  · simp [mgetList]; omega
  · intro i h1 h2
    simp [mgetList, Nat.add_assoc]

@[simp] theorem length_mgetList {α : Type} [Inhabited α] (m : FMap α) (k n : Nat) : (mgetList m k n).length = n := by simp [mgetList]

/-- Memory that holds a list from a place on. -/
theorem mgetList_of_holds {α : Type} [Inhabited α] {m : FMap α} {k : Nat} {l : List α} (h : ∀ (q : Nat) (hq : q < l.length), mget m (k + q) = l[q])
    {lo len : Nat} (hlen : lo + len ≤ l.length) : mgetList m (k + lo) len = (l.drop lo).take len := by
  apply List.ext_getElem
  · simp [mgetList]; omega
  · intro i h1 h2
    simp only [length_mgetList] at h1
    simp only [mgetList, List.getElem_map, List.getElem_range, List.getElem_take, List.getElem_drop]
    rw [Nat.add_assoc]
    exact h _ _

/-- Parts of a list written at their places: what each byte is then. -/
theorem mget_foldl_parts (pa : Nat) (r : List Byte) (p : Nat) : ∀ (ls : List (Nat × Nat)) (m : FMap Byte), (∀ x ∈ ls, x.1 + x.2 ≤ r.length) →
    mget (ls.foldl (fun m x => msetList m (pa + x.1) ((r.drop x.1).take x.2)) m) p =
      if ∃ x ∈ ls, pa + x.1 ≤ p ∧ p < pa + x.1 + x.2 then r.getD (p - pa) 0 else mget m p
  | [], m, _ => by simp
  | x :: ls, m, h => by
    have fits := h x (List.mem_cons_self ..)
    have size : ((r.drop x.1).take x.2).length = x.2 := by rw [List.length_take, List.length_drop]; omega
    rw [List.foldl_cons, mget_foldl_parts pa r p ls _ fun y hy => h y (List.mem_cons_of_mem _ hy)]
    by_cases rest : ∃ y ∈ ls, pa + y.1 ≤ p ∧ p < pa + y.1 + y.2
    · obtain ⟨y, hy, range⟩ := rest
      rw [if_pos ⟨y, hy, range⟩, if_pos ⟨y, List.mem_cons_of_mem _ hy, range⟩]
    · rw [if_neg rest]
      by_cases here : pa + x.1 ≤ p ∧ p < pa + x.1 + x.2
      · rw [if_pos ⟨x, List.mem_cons_self .., here⟩]
        obtain ⟨i, rfl⟩ := Nat.exists_eq_add_of_le here.1
        rw [mget_msetList_in _ _ _ i (by omega), List.getElem_take, List.getElem_drop, List.getD_eq_getElem _ _ (by omega)]
        congr 1
        omega
      · rw [if_neg, mget_msetList_out _ _ _ _ (by omega)]
        rintro ⟨y, hy, range⟩
        rcases List.mem_cons.1 hy with rfl | hy
        · exact here range
        · exact rest ⟨y, hy, range⟩

/-! Slots of ranked rows. -/

theorem leBytes_leNat : ∀ l : List Byte, leBytes l.length (leNat l) = l
  | [] => rfl
  | b :: l => by
    have low : BitVec.ofNat 8 (b.toNat + 256 * leNat l) = b := BitVec.eq_of_toNat_eq (by
      rw [BitVec.toNat_ofNat]; have := b.isLt; omega)
    have high : (b.toNat + 256 * leNat l) / 256 = leNat l := by have := b.isLt; omega
    rw [List.length_cons, leBytes, leNat, low, high, leBytes_leNat l]

/-- The bytes of a slot: index, then value (R107). -/
def slotPart (p : Word × Word) : List Byte := leBytes 4 p.2.toNat ++ leBytes 4 p.1.toNat

@[simp] theorem length_slotPart (p : Word × Word) : (slotPart p).length = 8 := by simp [slotPart]

theorem slotBytes_eq (l : List (Word × Word)) : slotBytes l = l.flatMap slotPart := rfl

theorem length_slotBytes (l : List (Word × Word)) : (slotBytes l).length = 8 * l.length := by
  rw [slotBytes_eq, length_flatMap_uniform fun p _ => length_slotPart p]

theorem slotBytes_append (l r : List (Word × Word)) : slotBytes (l ++ r) = slotBytes l ++ slotBytes r := List.flatMap_append ..

theorem slotBytes_drop (l : List (Word × Word)) (n : Nat) : slotBytes (l.drop n) = (slotBytes l).drop (8 * n) := by
  by_cases h : n ≤ l.length
  · conv_rhs => rw [← List.take_append_drop n l, slotBytes_append]
    rw [List.drop_left' (by rw [length_slotBytes, List.length_take]; omega)]
  · rw [List.drop_eq_nil_of_le (by omega), List.drop_eq_nil_of_le (by rw [length_slotBytes]; omega)]
    rfl

/-- A slot read from its 8 bytes. -/
def slotOfBytes (b : List Byte) : Word × Word := (BitVec.ofNat 32 (leNat (b.drop 4)), BitVec.ofNat 32 (leNat (b.take 4)))

theorem slotOfBytes_slotPart (p : Word × Word) : slotOfBytes (slotPart p) = p := by
  have word : ∀ w : Word, BitVec.ofNat 32 (leNat (leBytes 4 w.toNat)) = w := fun w => by
    rw [leNat_leBytes]; exact BitVec.eq_of_toNat_eq (by rw [BitVec.toNat_ofNat]; have := w.isLt; omega)
  rw [slotOfBytes, slotPart, List.drop_left' (by simp), List.take_left' (by simp), word, word]

theorem slotPart_slotOfBytes {b : List Byte} (h : b.length = 8) : slotPart (slotOfBytes b) = b := by
  have bytes : ∀ l : List Byte, l.length = 4 → leBytes 4 (BitVec.ofNat 32 (leNat l)).toNat = l := fun l hl => by
    have small := leNat_lt l
    rw [hl] at small
    rw [BitVec.toNat_ofNat, Nat.mod_eq_of_lt (by omega), ← hl, leBytes_leNat]
  rw [slotPart, slotOfBytes, bytes _ (by simp [h]), bytes _ (by simp [h]), List.take_append_drop]

theorem slotPairs_eq (b : List Byte) : slotPairs b = (List.range 32).map (fun j => slotOfBytes ((b.drop (8 * j)).take 8)) := by
  refine List.map_congr_left fun j _ => ?_
  rw [slotOfBytes, List.drop_take, List.drop_drop, List.take_take]
  rfl

theorem slotPairs_slotBytes {l : List (Word × Word)} (h : l.length = 32) : slotPairs (slotBytes l) = l := by
  rw [slotPairs_eq, slotBytes_eq]
  apply List.ext_getElem
  · simp [h]
  · intro j _ hj
    rw [List.getElem_map, List.getElem_range, block_flatMap (fun p _ => length_slotPart p) hj, slotOfBytes_slotPart]

theorem slotBytes_slotPairs {b : List Byte} (h : b.length = 256) : slotBytes (slotPairs b) = b := by
  have part : ∀ j ∈ List.range 32, slotPart (slotOfBytes ((b.drop (8 * j)).take 8)) = (b.drop (8 * j)).take 8 := fun j hj => by
    have := List.mem_range.1 hj
    exact slotPart_slotOfBytes (by rw [List.length_take, List.length_drop]; omega)
  rw [slotPairs_eq, slotBytes_eq, List.flatMap_map, List.flatMap_congr part]
  exact flatMap_blocks h

/-! Rows of ranked tiles. -/

theorem length_rankInsert (p : Word × Word) : ∀ l, (rankInsert p l).length = l.length + 1
  | [] => rfl
  | q :: r => by
    rw [rankInsert]
    split
    · rfl
    · rw [List.length_cons, length_rankInsert p r, List.length_cons]

/-- A list that has room for a pair, or whose last pair goes, stays within its length. -/
theorem length_makeRoom {len : Nat} {l : List (Word × Word)} (h : l.length ≤ len) (p : Word × Word) :
    (if l.length < len then rankInsert p l else match l.getLast? with
      | some q => if rankBefore p q then rankInsert p l.dropLast else l
      | none => l).length ≤ len := by
  split
  · rw [length_rankInsert]; omega
  · cases last : l.getLast? with
    | none => exact h
    | some q =>
      have some : 0 < l.length := List.length_pos_iff.2 fun e => by rw [e] at last; cases last
      dsimp only
      split
      · rw [length_rankInsert, List.length_dropLast]; omega
      · exact h

/-- An offer keeps a list within its length (R85). -/
theorem length_rankOffer {len : Nat} {l : List (Word × Word)} (h : l.length ≤ len) (p : Word × Word) : (rankOffer len l p).1.length ≤ len := by
  unfold rankOffer
  split
  · exact h
  · dsimp only
    split
    · split
      · exact length_makeRoom ((List.length_filter_le ..).trans h) p
      · exact h
    · exact length_makeRoom h p

theorem length_rankOffers {len : Nat} {l : List (Word × Word)} (h : l.length ≤ len) (ps : List (Word × Word)) :
    (rankOffers len l ps).1.length ≤ len :=
  List.foldlRecOn (motive := fun r : List (Word × Word) × Bool => r.1.length ≤ len) ps _ h fun _ hr p _ => length_rankOffer hr p

/-- The first slots of a ranked row after a merge or a replacement: as many as its lists are long. -/
theorem rankedRow_eq (form : AccForm) (replace : Bool) (l slots : List (Word × Word)) :
    ∃ first : List (Word × Word), first.length = form.len ∧ (rankedRow form replace l slots).1 = first ++ slots.drop form.len := by
  refine ⟨_, ?_, rfl⟩
  rw [List.length_append, List.length_replicate]
  have kept : ∀ r : List (Word × Word), r.length ≤ form.len → r.length + (form.len - r.length) = form.len := fun r hr => by omega
  refine kept _ ?_
  split
  · rw [List.length_take]; omega
  · exact length_rankOffers (Nat.zero_le _) _

theorem length_rankedRow {form : AccForm} (small : form.len ≤ 32) (replace : Bool) (l : List (Word × Word)) {slots : List (Word × Word)}
    (h : slots.length = 32) : (rankedRow form replace l slots).1.length = 32 := by
  obtain ⟨first, size, row⟩ := rankedRow_eq form replace l slots
  rw [row, List.length_append, List.length_drop]; omega

/-- Beyond its lists' slots a ranked row keeps its bytes. -/
theorem drop_slotBytes_rankedRow (form : AccForm) (replace : Bool) (l : List (Word × Word)) {b : List Byte} (h : b.length = 256) :
    (slotBytes (rankedRow form replace l (slotPairs b)).1).drop (8 * form.len) = b.drop (8 * form.len) := by
  obtain ⟨first, size, row⟩ := rankedRow_eq form replace l (slotPairs b)
  rw [row, slotBytes_append, List.drop_left' (by rw [length_slotBytes, size]), slotBytes_drop, slotBytes_slotPairs h]

/-! The bytes of a segment. -/

/-- Row i of a ranked segment after its application. -/
def Op.segmentRow (op : Op) (seg : Nat) (old : List Byte) (i : Nat) : List (Word × Word) :=
  (rankedRow op.form (nbit op.a.toNat 0) (mget op.lists (16 * seg + i)) (slotPairs ((old.drop (256 * i)).take 256))).1

/-- Element j of a plain segment after its application. -/
def Op.segmentElement (op : Op) (seg : Nat) (old : List Byte) (j : Nat) : Nat :=
  let x := (mget op.data (1024 * seg + j)).toNat
  if nbit op.a.toNat 0 then x else (add32 (leNat ((old.drop (4 * j)).take 4)) x).1

theorem segmentBytes_ranked {op : Op} (ranked : op.form.ranked = true) (seg : Nat) (old : List Byte) :
    (segmentBytes op seg old).1 = (List.range 16).flatMap (fun i => slotBytes (op.segmentRow seg old i)) := by
  rw [segmentBytes, ranked]
  exact List.flatMap_map ..

theorem segmentBytes_plain {op : Op} (plain : op.form.ranked = false) (seg : Nat) (old : List Byte) :
    (segmentBytes op seg old).1 = (List.range 1024).flatMap (fun j => leBytes 4 (op.segmentElement seg old j)) := by
  simp only [segmentBytes, plain, Bool.false_eq_true, if_false, Op.segmentElement]

theorem length_segmentRow {op : Op} (small : op.form.len ≤ 32) (seg : Nat) (old : List Byte) (i : Nat) :
    (slotBytes (op.segmentRow seg old i)).length = 256 := by
  rw [length_slotBytes, Op.segmentRow, length_rankedRow small]
  rw [slotPairs_eq, List.length_map, List.length_range]

/-- The lists of a ranked accumulator are short enough for a row (R84). -/
def Op.fits (op : Op) : Prop := op.form.ranked = true → op.form.len ≤ 32

theorem length_segmentBytes {op : Op} (fits : op.fits) (seg : Nat) (old : List Byte) : (segmentBytes op seg old).1.length = 4096 := by
  cases form : op.form.ranked with
  | true => rw [segmentBytes_ranked form, length_flatMap_uniform fun i _ => length_segmentRow (fits form) seg old i, List.length_range]
  | false => rw [segmentBytes_plain form, length_flatMap_uniform fun j _ => leBytes_length 4 _, List.length_range]

/-- The lines that a segment writes lie in it. -/
theorem segmentLines_le (op : Op) : ∀ x ∈ segmentLines op, x.1 + x.2 ≤ 4096 := by
  intro x hx
  unfold segmentLines at hx
  split at hx
  · obtain ⟨j, hj, line⟩ := List.mem_filterMap.1 hx
    have := List.mem_range.1 hj
    dsimp only at line
    split at line <;> cases line
    dsimp only; omega
  · obtain ⟨j, hj, rfl⟩ := List.mem_map.1 hx
    have := List.mem_range.1 hj
    dsimp only; omega

/-- A byte of a segment that no line covers lies beyond the lists of its row, and stays as it was. -/
theorem segmentBytes_uncovered {op : Op} (fits : op.fits) (seg : Nat) {old : List Byte} (size : old.length = 4096) {q : Nat} (hq : q < 4096)
    (out : ¬∃ x ∈ segmentLines op, x.1 ≤ q ∧ q < x.1 + x.2) : (segmentBytes op seg old).1[q]? = old[q]? := by
  unfold segmentLines at out
  split at out
  · next lines =>
    obtain ⟨ranked, replace⟩ := Bool.and_eq_true_iff.1 lines
    have hi : q / 256 < 16 := by omega
    have beyond : 8 * op.form.len ≤ q % 256 := by
      by_contra short
      refine out ⟨(128 * (q / 128), min 128 (8 * op.form.len - 128 * (q / 128 % 2))), List.mem_filterMap.2 ⟨q / 128, List.mem_range.2 (by omega), ?_⟩, ?_⟩
      · exact if_pos (by omega)
      · dsimp only; omega
    have row : ((old.drop (256 * (q / 256))).take 256).length = 256 := by rw [List.length_take, List.length_drop]; omega
    have tail := drop_slotBytes_rankedRow op.form (nbit op.a.toNat 0) (mget op.lists (16 * seg + q / 256)) row
    have byte := congrArg (fun l : List Byte => l[q % 256 - 8 * op.form.len]?) tail
    simp only [List.getElem?_drop, Nat.add_sub_cancel' beyond] at byte
    have here : (segmentBytes op seg old).1[q]? = (slotBytes (op.segmentRow seg old (q / 256)))[q % 256]? := by
      conv_lhs => rw [← Nat.div_add_mod q 256]
      rw [segmentBytes_ranked ranked, List.flatMap, getElem?_flatten_uniform (Nat.mod_lt q (by decide)) _
        (List.forall_mem_map.2 fun i _ => length_segmentRow (fits ranked) seg old i), List.getElem?_map, List.getElem?_range hi]
      rfl
    rw [here, Op.segmentRow, byte, List.getElem?_take, if_pos (Nat.mod_lt q (by decide)), List.getElem?_drop, Nat.div_add_mod]
  · exact absurd ⟨(128 * (q / 128), 128), List.mem_map.2 ⟨q / 128, List.mem_range.2 (by omega), rfl⟩, by dsimp only; omega⟩ out

/-! The application of a segment. -/

theorem applySegment_mem {s : State} {h seg : Nat} (fresh : mget (mget s.ops h).applied seg = false)
    (may : s.mayWriteBy (opToken h) ((mget s.ops h).segmentDest seg) = true) (awake : s.channelsReady ((mget s.ops h).segmentDest seg) = true) :
    (s.applySegment h seg).mem = (segmentLines (mget s.ops h)).foldl (fun m x => msetList m ((mget s.ops h).segmentPa seg + x.1)
      (((segmentBytes (mget s.ops h) seg (s.rdBytes ((mget s.ops h).segmentPa seg) 4096)).1.drop x.1).take x.2)) s.mem ∧
    mget (mget (s.applySegment h seg).ops h).applied seg = true := by
  unfold State.applySegment
  dsimp only
  simp only [fresh, may, awake, Bool.not_true, Bool.or_false, Bool.false_eq_true, if_false]
  exact ⟨(congrArg State.mem (List.foldl_map ..).symm).trans ((foldl_wrSpan_mem ..).trans (List.foldl_map ..)),
    (congrArg (fun o : Op => mget o.applied seg) (mget_mset_same ..)).trans (mget_mset_same ..)⟩

section
variable {s : State} {h seg : Nat} (fresh : mget (mget s.ops h).applied seg = false)
  (may : s.mayWriteBy (opToken h) ((mget s.ops h).segmentDest seg) = true) (awake : s.channelsReady ((mget s.ops h).segmentDest seg) = true)
include fresh may awake

/-- A segment that is applied puts its bytes in its place and leaves every other byte. -/
theorem applySegment_bytes (fits : (mget s.ops h).fits) :
    let pa := (mget s.ops h).segmentPa seg
    let r := (segmentBytes (mget s.ops h) seg (mgetList s.mem pa 4096)).1
    (∀ (q : Nat) (hq : q < r.length), mget (s.applySegment h seg).mem (pa + q) = r[q]) ∧
    ∀ p, p < pa ∨ pa + 4096 ≤ p → mget (s.applySegment h seg).mem p = mget s.mem p := by
  intro pa r
  have size : r.length = 4096 := length_segmentBytes fits seg _
  have mem := fun p => congrArg (mget · p) (applySegment_mem fresh may awake).1
  have parts := fun p => (mem p).trans (mget_foldl_parts pa r p (segmentLines (mget s.ops h)) s.mem fun x hx => by
    rw [size]; exact segmentLines_le _ x hx)
  refine ⟨fun q hq => (parts _).trans ?_, fun p hp => (parts p).trans (if_neg ?_)⟩
  · split
    · rw [Nat.add_sub_cancel_left, List.getD_eq_getElem _ _ hq]
    · next out =>
      have old := segmentBytes_uncovered fits seg (length_mgetList s.mem pa 4096) (size ▸ hq) fun ⟨x, hx, range⟩ => out ⟨x, hx, by omega⟩
      obtain ⟨hold, value⟩ := List.getElem?_eq_some_iff.1 (old.symm.trans (List.getElem?_eq_getElem hq))
      rw [← value]
      simp [mgetList]
  · rintro ⟨x, hx, range⟩
    have := segmentLines_le _ x hx
    omega

/-- A ranked segment that is applied merges or replaces its lists (R86, R107). -/
theorem applySegment_ranked (ranked : (mget s.ops h).form.ranked = true) (small : (mget s.ops h).form.len ≤ 32) {i : Nat} (hi : i < 16) :
    let op := mget s.ops h
    let pa := op.segmentPa seg
    slotPairs (mgetList (s.applySegment h seg).mem (pa + 256 * i) 256) =
      (rankedRow op.form (op.a.getLsbD 0) (mget op.lists (16 * seg + i)) (slotPairs (mgetList s.mem (pa + 256 * i) 256))).1 := by
  intro op pa
  have holds := (applySegment_bytes fresh may awake fun _ => small).1
  rw [mgetList_of_holds holds (by rw [length_segmentBytes fun _ => small]; omega), segmentBytes_ranked ranked,
    block_flatMap_range (fun i _ => length_segmentRow small seg _ i) hi, Op.segmentRow,
    slotPairs_slotBytes (length_rankedRow small _ _ (by rw [slotPairs_eq, List.length_map, List.length_range])),
    drop_take_mgetList _ _ (by omega), ← nbit_toNat]

/-- A plain segment that is applied adds or replaces its elements (R83). -/
theorem applySegment_plain (plain : (mget s.ops h).form.ranked = false) {i : Nat} (hi : i < 1024) :
    let op := mget s.ops h
    let pa := op.segmentPa seg
    let x := (mget op.data (1024 * seg + i)).toNat
    let old := leNat (mgetList s.mem (pa + 4 * i) 4)
    leNat (mgetList (s.applySegment h seg).mem (pa + 4 * i) 4) = (if op.a.getLsbD 0 then x else (add32 old x).1) % 2 ^ 32 := by
  intro op pa x old
  have fits : (mget s.ops h).fits := fun ranked => by rw [plain] at ranked; cases ranked
  have holds := (applySegment_bytes fresh may awake fits).1
  rw [mgetList_of_holds holds (by rw [length_segmentBytes fits]; omega), segmentBytes_plain plain,
    block_flatMap_range (fun j _ => leBytes_length 4 _) hi, leNat_leBytes, Op.segmentElement, drop_take_mgetList _ _ (by omega), nbit_toNat]
  rfl
end

/-- A segment whose turn has not come stays as it is (R108). -/
theorem applySegment_waits {s : State} {h seg : Nat} (held : s.mayWriteBy (opToken h) ((mget s.ops h).segmentDest seg) = false) :
    s.applySegment h seg = s := by
  unfold State.applySegment
  dsimp only
  rw [held, Bool.not_false, Bool.or_true, if_pos rfl]

end Sys2Proof.Machine
end

section
/-! The steps of commits and of ALOAD (R21, R83, R107, R264, R270, R271, R375), and what the statement about the array says of them. -/

namespace Sys2Proof.Machine

/-! Walks of engine operations. -/

/-- A step of an engine operation whose pages have been walked is made. -/
theorem withWalks_walked {s : State} {tok core part space : Nat} {ranges : List (Nat × Nat)} (f : State → State)
    (walked : s.pagesMissed tok core part space ranges = []) : s.withWalks tok core part space ranges f = f (s.walksDone tok) := by
  unfold State.withWalks
  rw [walked, ite_self]
  rfl

/-! The read-out. -/

section
variable {s : State} {k a : Nat} (kind : (mget s.ops k).kind = .acommit a) (first : (mget s.ops k).readOut = false) (turn : s.arrayTurn k = true)
include kind first turn

theorem readOutDone_misaligned (bad : homeAddr (mget s.ops k).a % tileBytesOf ((s.crew (mget s.ops k).crew).accForm a).ranked ≠ 0) :
    exec (.readOutDone k) s = .next (s.endOp k 2 0 0) := by
  rw [exec_readOutDone, execReadOutDone]
  simp only [kind, first, turn, Bool.not_true, Bool.or_false, Bool.false_eq_true, if_false]
  exact if_pos bad

/-- The read-out takes the accumulator, with the address of each page of the home tile (R270). -/
theorem readOutDone_reads {p : Nat} {ps : List Nat} (aligned : homeAddr (mget s.ops k).a % tileBytesOf ((s.crew (mget s.ops k).crew).accForm a).ranked = 0)
    (xl : s.tileXl (mget s.ops k) ((s.crew (mget s.ops k).crew).accForm a).ranked (permR + permW) = (.ok p, ps))
    (walked : s.pagesWalked k (mget s.ops k) [(homeAddr (mget s.ops k).a, tileBytesOf ((s.crew (mget s.ops k).crew).accForm a).ranked)])
    {t : Nat} (ends : s.arrayEnd (mget s.ops k) (if ((s.crew (mget s.ops k).crew).accForm a).ranked then 64 else 256) = t) (past : t ≤ s.time)
    (room : s.bufferedSegs (mget s.ops k).core + tileSegs ((s.crew (mget s.ops k).crew).accForm a).ranked ≤ 64) :
    let op := mget s.ops k
    let c := s.crew op.crew
    exec (.readOutDone k) s = .next { (s.walksDone (opToken k)).useArray op.core t with
      ops := mset s.ops k { op with readOut := true, frames := ps, form := c.accForm a, data := mslice c.acc (accSize * a) accSize
                                    lists := mslice c.ranked (128 * a) 128 } } := by
  rw [exec_readOutDone, execReadOutDone]
  simp only [kind, first, turn, Bool.not_true, Bool.or_false, Bool.false_eq_true, if_false]
  rw [if_neg (not_not.2 aligned), withWalks_walked _ walked.2]
  have walk : (s.walksDone (opToken k)).tileXl (mget s.ops k) ((s.crew (mget s.ops k).crew).accForm a).ranked (permR + permW) = (.ok p, ps) := xl
  have time : (s.walksDone (opToken k)).arrayEnd (mget s.ops k) (if ((s.crew (mget s.ops k).crew).accForm a).ranked then 64 else 256) = t := ends
  have held : (decide (s.time < t) ||
      decide (64 < s.bufferedSegs (mget s.ops k).core + tileSegs ((s.crew (mget s.ops k).crew).accForm a).ranked)) = false := by
    simp only [Bool.or_eq_false_iff, decide_eq_false_iff_not]; omega
  simp only [walk, time]
  exact congrArg Host.Outcome.next (if_neg (Bool.eq_false_iff.1 held))
end

/-! Arrivals. -/

theorem next_ite (a b : Bool) (x y z : State) : (if (!a) = true then (.next x : Host.Outcome State Fault Refusal) else if b = true then .next y else .next z) =
    .next (if a then (if b then y else z) else x) := by
  cases a
  · rfl
  · cases b <;> rfl

theorem allHere_iff (op : Op) : op.allHere = true ↔ ∀ g < tileSegs op.form.ranked, mget op.units g = true := by
  simp [Op.allHere, List.all_eq_true]

theorem allHere_false {op : Op} {g : Nat} (hg : g < tileSegs op.form.ranked) (missing : mget op.units g = false) : op.allHere = false :=
  Bool.eq_false_iff.2 fun all => by rw [(allHere_iff op).1 all g hg] at missing; cases missing

theorem commitFails_own {op : Op} (own : op.orphan = false) (s : State) (k cause : Nat) : s.commitFails k op cause = s.endOp k 3 cause 0 :=
  if_neg (Bool.eq_false_iff.1 own)

section
variable {s : State} {k a seg : Nat} (kind : (mget s.ops k).kind = .acommit a) (out : (mget s.ops k).readOut = true)
  (hs : seg < tileSegs (mget s.ops k).form.ranked)
include kind out hs

/-- Once every segment is there, an arrival is the segment's turn (R108). -/
theorem segmentArrival_here (all : (mget s.ops k).allHere = true) : exec (.segmentArrival k seg) s = .next (s.applySegment k seg) := by
  rw [exec_segmentArrival, execSegmentArrival]
  simp only [kind, out, all, Nat.not_le.2 hs, Bool.not_true, Bool.false_or, decide_false, Bool.false_eq_true, if_false, if_true]

/-- A commit whose crew was lost before its last segment arrives is LOST (R21). -/
theorem segmentArrival_lost (missing : (mget s.ops k).allHere = false) (orphan : (mget s.ops k).orphan = true)
    (late : (mget s.ops k).lostAt ≠ s.time + 1) : exec (.segmentArrival k seg) s = .next (s.endOp k 5 0 0) := by
  rw [exec_segmentArrival, execSegmentArrival]
  simp only [kind, out, missing, orphan, late, Nat.not_le.2 hs, Bool.not_true, Bool.false_or, decide_false, Bool.false_eq_true, if_false, if_true,
    ne_eq, not_false_eq_true, decide_true, Bool.and_self]

/-- The operation with one more segment there. -/
def Op.withSegment (op : Op) (seg : Nat) : Op := { op with units := mset op.units seg true }

/-- The state in which a segment has arrived. -/
def State.arrived (s : State) (k seg : Nat) : State :=
  { s.useRouter (chipOf (mget s.ops k).core) with ops := mset s.ops k ((mget s.ops k).withSegment seg) }

/-- A segment of a commit of a crew that is there arrives (R270, R375). -/
theorem segmentArrival_eq (missing : (mget s.ops k).allHere = false) (own : (mget s.ops k).orphan = false) (up : s.bridgeDown = false)
    (router : s.routerReady (chipOf (mget s.ops k).core) = true) :
    let op1 := (mget s.ops k).withSegment seg
    let s1 := s.arrived k seg
    exec (.segmentArrival k seg) s = .next (if op1.allHere then (if s1.commitPoisoned op1 then s1.commitFails k op1 cDataError else
        (s1.queueWrite (opToken k) op1.core s.dev ((List.range (tileSegs op1.form.ranked)).flatMap op1.segmentDest)).applySegment k seg)
      else s1) := by
  have bridge : s.bridgeStops (domOf (mget s.ops k).core) [(mget s.ops k).segmentPa seg] = false := by rw [State.bridgeStops, up]; rfl
  rw [exec_segmentArrival, execSegmentArrival]
  dsimp only
  split
  · rw [if_neg (by simp [out, hs]), if_neg (by simp [missing]), if_neg (by simp [own]), if_neg (by simp [bridge]), if_neg (by simp [router])]
    exact next_ite _ _ _ _ _
  · next other => exact absurd kind (other a)
end

section
variable {s : State} {k a : Nat} (kind : (mget s.ops k).kind = .acommit a)
include kind

/-- A commit is over when every segment has been applied; a refused NaN counts once (R82, R85, R270). -/
theorem acommitCompletion_eq (out : (mget s.ops k).readOut = true)
    (all : ∀ g < tileSegs (mget s.ops k).form.ranked, mget (mget s.ops k).applied g = true) :
    let op := mget s.ops k
    let c := s.core op.core
    exec (.acommitCompletion k) s = .next ((s.setCore op.core { c with mxnan := c.mxnan + (if op.refusedNan then 1 else 0) }).endOp k
      (if op.orphan then 5 else 0) 0 0) := by
  have applied : (List.range (tileSegs (mget s.ops k).form.ranked)).all (mget (mget s.ops k).applied) = true := by
    simpa [List.all_eq_true] using all
  rw [exec_acommitCompletion, execAcommitCompletion]
  dsimp only
  split
  · exact if_pos (by rw [out, applied]; rfl)
  · next other => exact absurd kind (other a)
end

/-! Loads of accumulators. -/

theorem useLines_crew (s : State) (core : Nat) (lines : List Nat) (u : Nat) : (s.useLines core lines).crew u = s.crew u := rfl
theorem useLines_mem (s : State) (core : Nat) (lines : List Nat) : (s.useLines core lines).mem = s.mem := rfl
theorem useArray_crew (s : State) (core t u : Nat) : (s.useArray core t).crew u = s.crew u := rfl

/-- The crew of an ALOAD with the tile in its accumulator (R271). -/
def Crew.loaded (c : Crew) (a : Nat) (b : List Byte) : Crew :=
  if (c.accForm a).ranked then { c with ranked := mput c.ranked (128 * a) (loadLists (c.accForm a) b) }
  else { c with acc := mput c.acc (accSize * a) ((List.range accSize).map (fun i => BitVec.ofNat 32 (leNat ((b.drop (4 * i)).take 4)))) }

/-- A plain accumulator that has been loaded. -/
theorem loaded_plain {c : Crew} {a : Nat} (plain : (c.accForm a).ranked = false) (b : List Byte) :
    (∀ i < 32768, mget (c.loaded a b).acc (32768 * a + i) = BitVec.ofNat 32 (leNat ((b.drop (4 * i)).take 4))) ∧
    (mwf c.acc = true → ∀ p, p < 32768 * a ∨ 32768 * (a + 1) ≤ p → mget (c.loaded a b).acc p = mget c.acc p) := by
  have acc : (c.loaded a b).acc = mput c.acc (32768 * a) ((List.range accSize).map (fun i => BitVec.ofNat 32 (leNat ((b.drop (4 * i)).take 4)))) := by
    rw [Crew.loaded, plain]; rfl
  have size : ((List.range accSize).map (fun i => BitVec.ofNat 32 (leNat ((b.drop (4 * i)).take 4)))).length = 32768 := by
    rw [List.length_map, List.length_range]; rfl
  rw [acc]
  refine ⟨fun i hi => ?_, fun wf p hp => mget_mput_out wf _ _ (by rw [size]; omega)⟩
  rw [mget_mput_in _ _ _ (by rw [size]; exact hi), List.getElem_map, List.getElem_range]

/-- A ranked one. -/
theorem loaded_ranked {c : Crew} {a : Nat} (ranked : (c.accForm a).ranked = true) (b : List Byte) :
    (∀ i < 128, (c.loaded a b).rankRow a i = (rankOffers (c.accForm a).len []
      ((slotPairs ((b.drop (256 * i)).take 256)).filter (fun p => decide (p ≠ (0xFFFFFFFF, 0xFFFFFFFF))))).1) ∧
    (c.loaded a b).acc = c.acc := by
  have crew : c.loaded a b = { c with ranked := mput c.ranked (128 * a) (loadLists (c.accForm a) b) } := by
    rw [Crew.loaded, ranked]; rfl
  have size : (loadLists (c.accForm a) b).length = 128 := by rw [loadLists, List.length_map, List.length_range]
  rw [crew]
  refine ⟨fun i hi => ?_, rfl⟩
  rw [Crew.rankRow, mget_mput_in _ _ _ (by rw [size]; exact hi)]
  simp only [loadLists, List.getElem_map, List.getElem_range]

section
variable {s : State} {k a : Nat} (kind : (mget s.ops k).kind = .aload a) (turn : s.arrayTurn k = true)
include kind turn

theorem aloadCompletion_misaligned (bad : (mget s.ops k).a.toNat % tileBytesOf ((s.crew (mget s.ops k).crew).accForm a).ranked ≠ 0) :
    exec (.aloadCompletion k) s = .next (s.endOp k 2 0 0) := by
  rw [exec_aloadCompletion, execAloadCompletion]
  simp only [kind, turn, Bool.not_true, Bool.false_eq_true, if_false]
  exact if_pos bad

section
variable (aligned : (mget s.ops k).a.toNat % tileBytesOf ((s.crew (mget s.ops k).crew).accForm a).ranked = 0)
  (walked : s.pagesWalked k (mget s.ops k) [((mget s.ops k).a.toNat, tileBytesOf ((s.crew (mget s.ops k).crew).accForm a).ranked)])
include aligned walked

theorem aloadCompletion_faults {cause off : Nat} (read : s.rdVirt (mget s.ops k).core (mget s.ops k).part (mget s.ops k).space (mget s.ops k).a.toNat
      (tileBytesOf ((s.crew (mget s.ops k).crew).accForm a).ranked) = .fault cause off) :
    exec (.aloadCompletion k) s = .next ((s.walksDone (opToken k)).endOp k 3 cause 0) := by
  rw [exec_aloadCompletion, execAloadCompletion]
  simp only [kind, turn, Bool.not_true, Bool.false_eq_true, if_false]
  rw [if_neg (not_not.2 aligned), withWalks_walked _ walked.2]
  have same : (s.walksDone (opToken k)).rdVirt = s.rdVirt := rfl
  simp only [same, read]

theorem aloadCompletion_loads {b : List Byte} (read : s.rdVirt (mget s.ops k).core (mget s.ops k).part (mget s.ops k).space (mget s.ops k).a.toNat
      (tileBytesOf ((s.crew (mget s.ops k).crew).accForm a).ranked) = .ok b) (past : s.arrayEnd (mget s.ops k) 0 ≤ s.time)
    {lines : List Nat} (reads : s.virtLines (mget s.ops k).core (mget s.ops k).part (mget s.ops k).space (mget s.ops k).a.toNat
      (tileBytesOf ((s.crew (mget s.ops k).crew).accForm a).ranked) permR = lines) (way : s.wayOpen (mget s.ops k).core lines = true) :
    let op := mget s.ops k
    exec (.aloadCompletion k) s = .next (((((s.walksDone (opToken k)).setCrew op.crew ((s.crew op.crew).loaded a b)).useArray op.core
      (s.arrayEnd op 0)).useLines op.core lines).endOp k 0 0 0) := by
  rw [exec_aloadCompletion, execAloadCompletion]
  simp only [kind, turn, Bool.not_true, Bool.false_eq_true, if_false]
  rw [if_neg (not_not.2 aligned), withWalks_walked _ walked.2]
  have same : (s.walksDone (opToken k)).rdVirt = s.rdVirt := rfl
  have array : (s.walksDone (opToken k)).arrayEnd = s.arrayEnd := rfl
  have lines : (s.walksDone (opToken k)).virtLines = s.virtLines := rfl
  have opens : (s.walksDone (opToken k)).wayOpen = s.wayOpen := rfl
  have time : (s.walksDone (opToken k)).time = s.time := rfl
  simp only [same, read, array, lines, opens, time, reads, way, Nat.not_lt.2 past, Bool.not_true, Bool.false_eq_true, if_false]
  rfl

theorem aloadCompletion_done (hk : k < 2 ^ 64) {b : List Byte} (read : s.rdVirt (mget s.ops k).core (mget s.ops k).part (mget s.ops k).space
      (mget s.ops k).a.toNat (tileBytesOf ((s.crew (mget s.ops k).crew).accForm a).ranked) = .ok b) (past : s.arrayEnd (mget s.ops k) 0 ≤ s.time)
    (way : s.wayOpen (mget s.ops k).core (s.virtLines (mget s.ops k).core (mget s.ops k).part (mget s.ops k).space (mget s.ops k).a.toNat
      (tileBytesOf ((s.crew (mget s.ops k).crew).accForm a).ranked) permR) = true) :
    let u := (mget s.ops k).crew
    ∃ t, exec (.aloadCompletion k) s = .next t ∧ Resolved k 0 0 0 t ∧ t.mem = s.mem ∧ t.crew u = (s.crew u).loaded a b := by
  refine ⟨_, aloadCompletion_loads kind turn aligned walked read past rfl way, resolved_endOp hk .., ?_, ?_⟩
  · rw [endOp_mem, useLines_mem, useArray_mem]
    rfl
  · rw [endOp_crew, useLines_crew, useArray_crew, State.crew_setCrew, if_pos rfl]
end
end

end Sys2Proof.Machine
end

section
open Sys2Proof Sys2Proof.Machine

/-- Settles O41: the completions of MMA, the read-out, the segments and the completion of a commit, and ALOAD, each by its equation; what they do to
accumulators is `mmaCrew_plain`, `mmaCrew_ranked`, `loaded_plain` and `loaded_ranked`, and to memory `applySegment_bytes`. -/
theorem arraySteps : Obligations.ArraySteps := by
  refine ⟨?_, ?_, ?_⟩
  · intro s k f hk op c form slotA slotB kind turn
    refine ⟨fun skips => ?_, fun runs plain past => ?_, fun runs ranked past => ?_⟩
    · refine ⟨_, mmaCompletion_skips kind turn skips, resolved_endOp hk .., rfl, rfl, ?_⟩
      rw [endOp_core, State.core_setCore, if_pos rfl]
    · obtain ⟨m, crews, same, t, answer, done, mem, ⟨fl, crew⟩, cells⟩ := mmaCompletion_done kind turn hk runs
        (by rw [show ((s.crew op.crew).accForm f.acc.val).ranked = false from plain]; exact past)
      have hc : m.crew op.crew = c := congrArg (mget · op.crew) crews
      obtain ⟨elements, others⟩ := mmaCrew_plain (s := m) (f := f) (op := op) (by rw [hc]; exact plain)
      rw [hc] at others
      refine ⟨t, answer, done, mem, fun i hi j hj => ?_, fun wf p hp => ?_, ?_, cells⟩
      · rw [crew, weaveFlags_acc, elements i hi j hj, same, State.mmaElement, mmaOld, plain]
        rfl
      · rw [crew, weaveFlags_acc, others wf p hp]
      · rw [crew, weaveFlags_tile, mmaCrew_tile, hc]
    · obtain ⟨m, crews, same, t, answer, done, mem, ⟨fl, crew⟩, cells⟩ := mmaCompletion_done kind turn hk runs
        (by rw [show ((s.crew op.crew).accForm f.acc.val).ranked = true from ranked]; exact past)
      have hc : m.crew op.crew = c := congrArg (mget · op.crew) crews
      obtain ⟨lists, acc⟩ := mmaCrew_ranked (s := m) (f := f) (op := op) (by rw [hc]; exact ranked)
      refine ⟨t, answer, done, mem, fun i hi => ?_, ?_, ?_⟩
      · have values : (fun j => BitVec.ofNat 32 (m.mmaElement f op i j).1) = _ := funext fun j => by
          rw [same, State.mmaElement, mmaOld, show ((s.crew op.crew).accForm f.acc.val).ranked = true from ranked]
        have row := lists i hi
        rw [hc, values] at row
        rw [Crew.rankRow, crew, weaveFlags_ranked]
        exact row
      · rw [crew, weaveFlags_acc, acc, hc]
      · rw [crew, weaveFlags_tile, mmaCrew_tile, hc]
  · intro s k a hk op c form kind
    refine ⟨fun first turn => ⟨fun bad => ?_, fun p ps aligned xl walked past room => ?_⟩, fun seg out own hs up router => ⟨?_, ?_⟩,
      fun seg out hs all => ?_, fun seg out orphan late hs ⟨g, hg, missing⟩ => ?_, ?_, ?_, fun seg held => applySegment_waits held, fun out all => ?_⟩
    · exact ⟨_, readOutDone_misaligned kind first turn bad, resolved_endOp hk .., rfl, rfl⟩
    · exact ⟨_, readOutDone_reads kind first turn aligned xl walked rfl past room, rfl, rfl, rfl, mget_mset_same ..⟩
    · rintro ⟨g, hg, other, missing⟩
      have here : ((mget s.ops k).withSegment seg).allHere = false := allHere_false hg ((mget_mset_ne _ _ other).trans missing)
      refine ⟨_, segmentArrival_eq kind out hs (allHere_false hg missing) own up router, ?_⟩
      simp only [here, Bool.false_eq_true, if_false]
      exact ⟨rfl, rfl, rfl, mget_mset_same ..⟩
    · intro missing others op1 s1
      have here : ((mget s.ops k).withSegment seg).allHere = true := (allHere_iff _).2 fun g hg => by
        by_cases same : g = seg
        · rw [same]; exact mget_mset_same ..
        · exact (mget_mset_ne _ _ same).trans (others g hg same)
      have arrives := segmentArrival_eq kind out hs (allHere_false hs missing) own up router
      simp only [here, if_true] at arrives
      refine ⟨fun poisoned => ⟨s1.endOp k 3 3 0, arrives.trans ?_, resolved_endOp hk .., rfl⟩, fun sound => ⟨_, arrives.trans ?_, rfl⟩⟩
      · exact congrArg Host.Outcome.next ((if_pos poisoned).trans (commitFails_own own ..))
      · exact congrArg Host.Outcome.next (if_neg (Bool.eq_false_iff.1 sound))
    · exact ⟨_, segmentArrival_here kind out hs ((allHere_iff _).2 all), rfl⟩
    · exact ⟨_, segmentArrival_lost kind out hs (allHere_false hg missing) orphan late, resolved_endOp hk .., rfl⟩
    · intro seg ranked small fresh may awake pa t
      exact ⟨fun i hi => applySegment_ranked fresh may awake ranked small hi, (applySegment_bytes fresh may awake fun _ => small).2,
        (applySegment_mem fresh may awake).2⟩
    · intro seg plain fresh may awake pa t
      exact ⟨fun i hi => applySegment_plain fresh may awake plain hi,
        (applySegment_bytes fresh may awake fun ranked => absurd ranked (Bool.eq_false_iff.1 plain)).2, (applySegment_mem fresh may awake).2⟩
    · refine ⟨_, acommitCompletion_eq kind out all, resolved_endOp hk .., rfl, rfl, ?_⟩
      rw [endOp_core, State.core_setCore, if_pos rfl]
  · intro s k a hk op c n kind turn
    refine ⟨fun bad => ?_, fun aligned walked => ⟨fun cause off read => ?_, fun b read past way => ?_⟩⟩
    · exact ⟨_, aloadCompletion_misaligned kind turn bad, resolved_endOp hk .., rfl, rfl⟩
    · exact ⟨_, aloadCompletion_faults kind turn aligned walked read, resolved_endOp hk .., rfl, rfl⟩
    · obtain ⟨t, answer, done, mem, crew⟩ := aloadCompletion_done kind turn aligned walked hk read past way
      exact ⟨fun plain => ⟨t, answer, done, mem, by rw [crew]; exact loaded_plain plain b⟩,
        fun ranked => ⟨t, answer, done, mem, by rw [crew]; exact loaded_ranked ranked b⟩⟩
end

section
/-! The issue period of a crew: its YIELDs and WAITs that are over complete, and its weaves regang (R33, R183, R184, R191). -/

namespace Sys2Proof.Machine

/-! Strands and crews. -/

/-- The size, place and contexts of a crew, which no issue period changes. -/
def Crew.frame (c : Crew) : Bool × Nat × Nat × FMap Nat := (c.resident, c.weaves, c.strands, c.ctx)

theorem keys_of_frame {c d : Crew} (h : d.frame = c.frame) : d.keys = c.keys := by
  have weaves : d.weaves = c.weaves := congrArg (·.2.1) h
  have strands : d.strands = c.strands := congrArg (·.2.2.1) h
  rw [Crew.keys, weaves, strands, ← Crew.keys]

/-- A fold that puts strands in their places. -/
theorem st_foldl_setSt (g : Nat → Strand) (j : Nat) : ∀ (l : List Nat) (c : Crew),
    (l.foldl (fun x k => x.setSt k (g k)) c).st j = (if j ∈ l then g j else c.st j) ∧ (l.foldl (fun x k => x.setSt k (g k)) c).frame = c.frame
  | [], c => ⟨(if_neg List.not_mem_nil).symm, rfl⟩
  | k :: r, c => by
    obtain ⟨st, frame⟩ := st_foldl_setSt g j r (c.setSt k (g k))
    refine ⟨?_, frame⟩
    rw [List.foldl_cons, st, Crew.st_setSt]
    by_cases hk : j = k <;> simp [hk]

/-- What the steps of an issue period leave of a strand that completes nothing: its registers, its place, and what it waits for. -/
def Strand.stays (a b : Strand) : Prop := a.sameRegs b ∧ a.pc = b.pc ∧ a.loops = b.loops ∧ (b.wait ≠ .ready → a.wait = b.wait)

theorem Strand.stays_refl (a : Strand) : a.stays a := ⟨⟨rfl, rfl, rfl, rfl, rfl, rfl, rfl, rfl, rfl, rfl, rfl, rfl, rfl, rfl⟩, rfl, rfl, fun _ => rfl⟩

/-! The regang of a weave. -/

/-- Crew x has the size of c, and the strands of weave w as they are in c. -/
def Crew.agrees (x c : Crew) (w : Nat) : Prop := x.frame = c.frame ∧ ∀ k, weaveOf k = w → x.st k = c.st k

theorem Crew.agrees_refl (c : Crew) (w : Nat) : c.agrees c w := ⟨rfl, fun _ _ => rfl⟩

theorem Crew.agrees.trans {x y c : Crew} {w : Nat} (h : y.agrees x w) (g : x.agrees c w) : y.agrees c w :=
  ⟨h.1.trans g.1, fun k hk => (h.2 k hk).trans (g.2 k hk)⟩

theorem Crew.agrees.weaveLive {x c : Crew} {w : Nat} (h : x.agrees c w) : x.weaveLive w = c.weaveLive w := by
  unfold Crew.weaveLive
  rw [keys_of_frame h.1]
  refine List.filter_congr fun k _ => ?_
  by_cases hk : weaveOf k = w
  · rw [h.2 k hk]
  · simp [hk]

theorem mem_weaveLive {c : Crew} {w k : Nat} : k ∈ c.weaveLive w ↔ k ∈ c.liveKeys ∧ weaveOf k = w := by
  simp only [Crew.weaveLive, Crew.liveKeys, List.mem_filter, Bool.and_eq_true, decide_eq_true_eq]
  tauto

theorem Crew.agrees.gangOf {x c : Crew} {k : Nat} (h : x.agrees c (weaveOf k)) : x.gangOf k = c.gangOf k := by
  unfold Crew.gangOf
  rw [h.weaveLive, h.2 k rfl]
  exact List.filter_congr fun j hj => by rw [h.2 j (mem_weaveLive.1 hj).2]

theorem st_regang (c : Crew) (w j : Nat) : (c.regang w).st j = if j ∈ c.weaveLive w then c.reganged j else c.st j := (st_foldl_setSt ..).1
theorem frame_regang (c : Crew) (w : Nat) : (c.regang w).frame = c.frame := (st_foldl_setSt c.reganged 0 ..).2

theorem regang_agrees (c : Crew) {v w : Nat} (h : v ≠ w) : (c.regang v).agrees c w :=
  ⟨frame_regang c v, fun k hk => by rw [st_regang, if_neg fun hv => h ((mem_weaveLive.1 hv).2.symm.trans hk)]⟩

theorem reganged_stays (c : Crew) (k : Nat) : (c.reganged k).stays (c.st k) := by
  unfold Crew.reganged
  dsimp only
  split
  · exact ⟨⟨rfl, rfl, rfl, rfl, rfl, rfl, rfl, rfl, rfl, rfl, rfl, rfl, rfl, rfl⟩, rfl, rfl, fun _ => rfl⟩
  · refine ⟨⟨rfl, rfl, rfl, rfl, rfl, rfl, rfl, rfl, rfl, rfl, rfl, rfl, rfl, rfl⟩, rfl, rfl, fun busy => if_neg ?_⟩
    simp [busy]

theorem gang_reganged (c : Crew) (k : Nat) : (c.reganged k).gang =
    if (c.st k).handler || (c.st k).pending.isSome then ownGang k else sidOf ((c.peers k).headD k) := by
  unfold Crew.reganged
  dsimp only
  split <;> rfl

/-- A strand at level 1 or with a trap due is its own sub-gang (R33). -/
theorem gang_reganged_apart {c : Crew} {k : Nat} (apart : (c.st k).handler = true ∨ (c.st k).pending ≠ none) :
    (c.reganged k).gang = 16 + sidOf k := by
  rw [gang_reganged, if_pos]
  · rfl
  · simpa [Option.isSome_iff_ne_none] using apart

/-- A strand that may regang has the number of the lowest strand of its weave with its key. -/
theorem gang_reganged_merged {c : Crew} {k : Nat} {key : VAddr × Nat × Nat} (merges : c.mergeKey k = some key) :
    (c.reganged k).gang = sidOf (((c.weaveLive (weaveOf k)).filter (fun j => decide (c.mergeKey j = some key))).headD k) := by
  have own : ((c.st k).handler || (c.st k).pending.isSome) = false := by
    refine Bool.eq_false_iff.2 fun apart => ?_
    rw [Crew.mergeKey, if_neg] at merges
    · cases merges
    · cases hh : (c.st k).handler <;> cases hp : (c.st k).pending <;> simp_all
  rw [gang_reganged, Crew.peers, own, merges]
  rfl

/-- Two strands of a weave that may regang come into one sub-gang just when their keys are equal (R33). -/
theorem gang_reganged_iff {c : Crew} {w j k : Nat} (hj : j ∈ c.weaveLive w) (hk : k ∈ c.weaveLive w) {a b : VAddr × Nat × Nat}
    (ma : c.mergeKey j = some a) (mb : c.mergeKey k = some b) : (c.reganged j).gang = (c.reganged k).gang ↔ a = b := by
  obtain ⟨_, wj⟩ := mem_weaveLive.1 hj
  obtain ⟨_, wk⟩ := mem_weaveLive.1 hk
  rw [gang_reganged_merged ma, gang_reganged_merged mb, wj, wk]
  have head : ∀ {i : Nat} {key : VAddr × Nat × Nat}, i ∈ c.weaveLive w → c.mergeKey i = some key →
      ∃ h r, (c.weaveLive w).filter (fun n => decide (c.mergeKey n = some key)) = h :: r ∧ weaveOf h = w ∧ c.mergeKey h = some key := by
    intro i key hi mi
    have mem : i ∈ (c.weaveLive w).filter (fun n => decide (c.mergeKey n = some key)) := List.mem_filter.2 ⟨hi, decide_eq_true mi⟩
    cases e : (c.weaveLive w).filter (fun n => decide (c.mergeKey n = some key)) with
    | nil => rw [e] at mem; cases mem
    | cons h r =>
      obtain ⟨hh, mh⟩ := List.mem_filter.1 (e ▸ List.mem_cons_self : h ∈ (c.weaveLive w).filter _)
      exact ⟨h, r, rfl, (mem_weaveLive.1 hh).2, of_decide_eq_true mh⟩
  obtain ⟨h, r, ea, wh, mh⟩ := head hj ma
  obtain ⟨g, q, eb, wg, mg⟩ := head hk mb
  refine ⟨fun same => ?_, fun same => ?_⟩
  · rw [ea, eb] at same
    simp only [List.headD_cons, sidOf] at same
    unfold weaveOf at wh wg
    have e : h = g := by omega
    rw [e, mg] at mh
    exact (Option.some.inj mh).symm
  · rw [same] at ea ⊢
    rw [ea]
    rfl

/-! The regangs of all weaves. -/

/-- The crew after the regangs of its first n weaves. -/
def Crew.regangs (c : Crew) (n : Nat) : Crew := (List.range n).foldl Crew.regang c

theorem regangs_succ (c : Crew) (n : Nat) : c.regangs (n + 1) = (c.regangs n).regang n := by
  rw [Crew.regangs, List.range_succ, List.foldl_append]
  rfl

/-- A weave that has not had its turn is as it was. -/
theorem regangs_agrees (c : Crew) {w : Nat} : ∀ {n : Nat}, n ≤ w → (c.regangs n).agrees c w
  | 0, _ => c.agrees_refl w
  | n + 1, h => by
    rw [regangs_succ]
    exact (regang_agrees _ (by omega)).trans (regangs_agrees c (by omega))

/-- A weave that has had its turn is as its own regang has left it, from the strands that it had before. -/
theorem regangs_weave (c : Crew) {w : Nat} : ∀ {n : Nat}, w < n →
    ∃ x : Crew, x.agrees c w ∧ ∀ k, weaveOf k = w → (c.regangs n).st k = (x.regang w).st k
  | n + 1, h => by
    by_cases last : w = n
    · subst last
      exact ⟨_, regangs_agrees c (le_refl w), fun k _ => by rw [regangs_succ]⟩
    · obtain ⟨x, agrees, strands⟩ := regangs_weave c (show w < n by omega)
      refine ⟨x, agrees, fun k hk => ?_⟩
      rw [regangs_succ, (regang_agrees _ (Ne.symm last)).2 k hk, strands k hk]

theorem frame_regangs (c : Crew) : ∀ n, (c.regangs n).frame = c.frame
  | 0 => rfl
  | n + 1 => by rw [regangs_succ, frame_regang, frame_regangs c n]

theorem regangs_stays (c : Crew) (n k : Nat) : ((c.regangs n).st k).stays (c.st k) := by
  by_cases h : weaveOf k < n
  · obtain ⟨x, agrees, strands⟩ := regangs_weave c h
    rw [strands k rfl, st_regang, ← agrees.2 k rfl]
    split
    · exact reganged_stays x k
    · exact Strand.stays_refl _
  · rw [(regangs_agrees c (Nat.le_of_not_lt h)).2 k rfl]
    exact Strand.stays_refl _

theorem regangs_apart {c : Crew} {n k : Nat} (live : k ∈ c.liveKeys) (h : weaveOf k < n)
    (apart : (c.st k).handler = true ∨ (c.st k).pending ≠ none) : ((c.regangs n).st k).gang = 16 + sidOf k := by
  obtain ⟨x, agrees, strands⟩ := regangs_weave c h
  rw [strands k rfl, st_regang, if_pos (by rw [agrees.weaveLive]; exact mem_weaveLive.2 ⟨live, rfl⟩)]
  exact gang_reganged_apart (by rwa [agrees.2 k rfl])

/-- Strand k of a crew and the strands of its sub-gang are between instructions (R33). -/
def Crew.settled (c : Crew) (k : Nat) : Prop :=
  k ∈ c.liveKeys ∧ (c.st k).handler = false ∧ (c.st k).pending = none ∧
    ∀ j ∈ c.gangOf k, (c.st j).handler = false → (c.st j).pending = none → (c.st j).wait = .ready

theorem mergeKey_of_settled {c x : Crew} {k : Nat} (agrees : x.agrees c (weaveOf k)) (h : c.settled k) : x.mergeKey k = some (c.st k).key := by
  obtain ⟨_, level, trap, ready⟩ := h
  refine (if_pos (Bool.and_eq_true_iff.2 ⟨?_, Bool.or_eq_true_iff.2 (.inl (List.all_eq_true.2 fun j hj => ?_))⟩)).trans
    (congrArg (fun st => some (Strand.key st)) (agrees.2 k rfl))
  · dsimp only
    rw [agrees.2 k rfl, level, trap]
    rfl
  obtain ⟨mem, own⟩ := List.mem_filter.1 hj
  rw [agrees.gangOf] at mem
  have same := agrees.2 j (mem_weaveLive.1 (List.mem_filter.1 mem).1).2
  rw [same] at own ⊢
  simp only [Bool.and_eq_true, Bool.not_eq_true', Option.isNone_iff_eq_none] at own
  exact decide_eq_true (ready j mem own.1 own.2)

theorem regangs_gang_iff {c : Crew} {n w j k : Nat} (h : w < n) (wj : weaveOf j = w) (wk : weaveOf k = w) (sj : c.settled j) (sk : c.settled k) :
    ((c.regangs n).st j).gang = ((c.regangs n).st k).gang ↔ (c.st j).key = (c.st k).key := by
  obtain ⟨x, agrees, strands⟩ := regangs_weave c h
  have lj : j ∈ x.weaveLive w := by rw [agrees.weaveLive]; exact mem_weaveLive.2 ⟨sj.1, wj⟩
  have lk : k ∈ x.weaveLive w := by rw [agrees.weaveLive]; exact mem_weaveLive.2 ⟨sk.1, wk⟩
  rw [strands j wj, strands k wk, st_regang, st_regang, if_pos lj, if_pos lk]
  exact gang_reganged_iff lj lk (mergeKey_of_settled (wj ▸ agrees) sj) (mergeKey_of_settled (wk ▸ agrees) sk)

end Sys2Proof.Machine
end

section
/-! YIELDs and WAITs that are over, the issue period of each crew, and the order in which the weaves try (R25, R183, R184, R191). -/

namespace Sys2Proof.Machine

/-! Strands. -/

/-- What a strand waits for is over at a time: a YIELD or a WAIT (R183, R184). -/
def Strand.waitOver (st : Strand) (time : Nat) : Bool := match st.wait with
  | .yielded p => decide (p ≤ time / 16)
  | .deadline t => decide (t ≤ time / 8)
  | _ => false

theorem waitOver_iff (st : Strand) (time : Nat) : st.waitOver time = true ↔
    (∃ p, st.wait = .yielded p ∧ p ≤ time / 16) ∨ ∃ p, st.wait = .deadline p ∧ p ≤ time / 8 := by
  unfold Strand.waitOver
  cases st.wait <;> simp

/-- Where a strand goes on, its latches aside, when its instruction retires in line. -/
theorem seq_keeps (st : Strand) : st.seq.sameRegs st ∧ st.seq.wait = .ready ∧ st.seq.handler = st.handler ∧ st.seq.pending = st.pending := by
  unfold Strand.seq Strand.inline
  dsimp only
  split <;> exact ⟨⟨rfl, rfl, rfl, rfl, rfl, rfl, rfl, rfl, rfl, rfl, rfl, rfl, rfl, rfl⟩, rfl, rfl, rfl⟩

theorem live_of_sameRegs {a b : Strand} (h : a.sameRegs b) : a.live = b.live := by
  obtain ⟨-, -, -, -, -, -, -, -, -, live, -⟩ := h
  exact live

theorem sameRegs_trans {a b c : Strand} (h : a.sameRegs b) (g : b.sameRegs c) : a.sameRegs c := by
  unfold Strand.sameRegs at *
  simp_all only [and_self]

theorem waitOver_seq (st : Strand) (time : Nat) : st.seq.waitOver time = false := by
  unfold Strand.waitOver
  rw [(seq_keeps st).2.1]

/-! The waits of a crew. -/

/-- The wait of strand k ends when it is over, unless the crew is being pre-empted (R191). -/
def Crew.passWait (time : Nat) (c : Crew) (k : Nat) : Crew :=
  if (c.st k).waitOver time && decide (c.preempt = 0) then c.setSt k (c.st k).seq else c

/-- The strand after the end of its wait, if that is over. -/
def Strand.pastWait (st : Strand) (time : Nat) : Strand := if st.waitOver time then st.seq else st

theorem pastWait_twice (st : Strand) (time : Nat) : (st.pastWait time).pastWait time = st.pastWait time := by
  unfold Strand.pastWait
  cases h : st.waitOver time <;> simp [h, waitOver_seq]

theorem st_passWait (time : Nat) (c : Crew) (i k : Nat) :
    (c.passWait time i).st k = if k = i ∧ c.preempt = 0 then (c.st k).pastWait time else c.st k := by
  unfold Crew.passWait Strand.pastWait
  by_cases hk : k = i
  · subst hk
    cases (c.st k).waitOver time <;> by_cases hp : c.preempt = 0 <;> simp [hp]
  · rw [if_neg (fun h : k = i ∧ _ => hk h.1)]
    split
    · rw [Crew.st_setSt, if_neg hk]
    · rfl

theorem frame_passWait (time : Nat) (c : Crew) (i : Nat) : (c.passWait time i).frame = c.frame ∧ (c.passWait time i).preempt = c.preempt := by
  unfold Crew.passWait
  split <;> exact ⟨rfl, rfl⟩

theorem foldl_passWait (time k : Nat) : ∀ (l : List Nat) (c : Crew),
    (l.foldl (Crew.passWait time) c).st k = (if k ∈ l ∧ c.preempt = 0 then (c.st k).pastWait time else c.st k) ∧
    (l.foldl (Crew.passWait time) c).frame = c.frame
  | [], c => ⟨(if_neg fun h => List.not_mem_nil h.1).symm, rfl⟩
  | i :: r, c => by
    obtain ⟨frameOne, preempt⟩ := frame_passWait time c i
    obtain ⟨st, frame⟩ := foldl_passWait time k r (c.passWait time i)
    refine ⟨?_, frame.trans frameOne⟩
    rw [List.foldl_cons, st, st_passWait, preempt]
    by_cases hp : c.preempt = 0
    · by_cases hk : k = i
      · simp [hp, hk, pastWait_twice]
      · simp [hp, hk]
    · simp [hp]

/-- A restore is over when the issue period begins (R312). -/
def Crew.resumed (c : Crew) : Crew := if c.preempt = 3 then { c with preempt := 0 } else c

theorem resumed_keeps (c : Crew) : c.resumed.strand = c.strand ∧ c.resumed.frame = c.frame ∧ c.resumed.liveKeys = c.liveKeys := by
  unfold Crew.resumed
  split <;> exact ⟨rfl, rfl, rfl⟩

theorem preempt_resumed (c : Crew) : c.resumed.preempt = 0 ↔ c.preempt = 0 ∨ c.preempt = 3 := by
  unfold Crew.resumed
  by_cases h : c.preempt = 3 <;> simp [h]

/-- The crew with the YIELDs and WAITs that are over complete. -/
def Crew.waited (c : Crew) (time : Nat) : Crew := c.resumed.liveKeys.foldl (Crew.passWait time) c.resumed

/-- The wait of strand k of the crew ends at a time: the crew is not being pre-empted (R183, R184, R191). -/
def Crew.ends (c : Crew) (time k : Nat) : Prop := (c.preempt = 0 ∨ c.preempt = 3) ∧ k ∈ c.liveKeys ∧ (c.st k).waitOver time = true

theorem st_waited_ends {c : Crew} {time k : Nat} (h : c.ends time k) : (c.waited time).st k = (c.st k).seq := by
  obtain ⟨preempt, live, past⟩ := h
  obtain ⟨strand, -, keys⟩ := resumed_keeps c
  rw [Crew.waited, (foldl_passWait time k _ _).1, keys, if_pos ⟨live, (preempt_resumed c).2 preempt⟩, Crew.st, strand]
  exact if_pos past

theorem st_waited_other {c : Crew} {time k : Nat} (h : ¬c.ends time k) : (c.waited time).st k = c.st k := by
  obtain ⟨strand, -, keys⟩ := resumed_keeps c
  have same : c.resumed.st k = c.st k := congrArg (mget · k) strand
  rw [Crew.waited, (foldl_passWait time k _ _).1, keys, same]
  split
  · next now => exact if_neg fun past => h ⟨(preempt_resumed c).1 now.2, now.1, past⟩
  · rfl

theorem frame_waited (c : Crew) (time : Nat) : (c.waited time).frame = c.frame :=
  (foldl_passWait time 0 _ _).2.trans (resumed_keeps c).2.1

theorem waited_keeps (c : Crew) (time k : Nat) :
    ((c.waited time).st k).sameRegs (c.st k) ∧ ((c.waited time).st k).handler = (c.st k).handler ∧
    ((c.waited time).st k).pending = (c.st k).pending := by
  by_cases h : c.ends time k
  · obtain ⟨regs, -, handler, pending⟩ := seq_keeps (c.st k)
    rw [st_waited_ends h]
    exact ⟨regs, handler, pending⟩
  · rw [st_waited_other h]
    exact ⟨(Strand.stays_refl _).1, rfl, rfl⟩

theorem liveKeys_waited (c : Crew) (time : Nat) : (c.waited time).liveKeys = c.liveKeys := by
  unfold Crew.liveKeys
  rw [keys_of_frame (frame_waited c time)]
  exact List.filter_congr fun k _ => by rw [live_of_sameRegs (waited_keeps c time k).1]

/-- When no wait of the crew ends, what is settled stays so. -/
theorem settled_waited {c : Crew} {time k : Nat} (none : ∀ i, ¬c.ends time i) (h : c.settled k) : (c.waited time).settled k := by
  have agrees : (c.waited time).agrees c (weaveOf k) := ⟨frame_waited c time, fun i _ => st_waited_other (none i)⟩
  unfold Crew.settled
  rw [liveKeys_waited, agrees.gangOf, st_waited_other (none k)]
  refine ⟨h.1, h.2.1, h.2.2.1, fun j hj => ?_⟩
  rw [st_waited_other (none j)]
  exact h.2.2.2 j hj

/-! The issue period of a crew. -/

/-- The crew at the beginning of an issue period. -/
def Crew.period (c : Crew) (time : Nat) : Crew := (c.waited time).regangs (c.waited time).weaves

theorem weaves_waited (c : Crew) (time : Nat) : (c.waited time).weaves = c.weaves := congrArg (·.2.1) (frame_waited c time)

theorem frame_period (c : Crew) (time : Nat) : (c.period time).frame = c.frame := (frame_regangs _ _).trans (frame_waited c time)

/-- A strand at the beginning of an issue period: its wait is over, or it stays where it is. -/
theorem period_stays (c : Crew) (time k : Nat) : ((c.period time).st k).stays ((c.waited time).st k) := regangs_stays ..

theorem period_apart {c : Crew} {time k : Nat} (live : k ∈ c.liveKeys) (h : weaveOf k < c.weaves)
    (apart : (c.st k).handler = true ∨ (c.st k).pending ≠ none) : ((c.period time).st k).gang = 16 + sidOf k := by
  obtain ⟨-, handler, pending⟩ := waited_keeps c time k
  exact regangs_apart (by rwa [liveKeys_waited]) (by rwa [weaves_waited]) (by rwa [handler, pending])

theorem period_gang_iff {c : Crew} {time w j k : Nat} (none : ∀ i, ¬c.ends time i) (h : w < c.weaves) (wj : weaveOf j = w) (wk : weaveOf k = w)
    (sj : c.settled j) (sk : c.settled k) : ((c.period time).st j).gang = ((c.period time).st k).gang ↔ (c.st j).key = (c.st k).key := by
  rw [← st_waited_other (none j), ← st_waited_other (none k)]
  exact regangs_gang_iff (by rwa [weaves_waited]) wj wk (settled_waited none sj) (settled_waited none sk)

/-! Only a crew. -/

theorem OnlyCrew.refl (s : State) (u : Nat) : OnlyCrew s u (s.crew u) s := ⟨rfl, fun _ _ => rfl, rfl⟩

theorem onlyCrew_setCrew (s : State) (u : Nat) (c : Crew) : OnlyCrew s u c (s.setCrew u c) :=
  ⟨(State.crew_setCrew ..).trans (if_pos rfl), fun _ h => (State.crew_setCrew ..).trans (if_neg h), rfl⟩

theorem OnlyCrew.trans {s t r : State} {u : Nat} {c d : Crew} (h : OnlyCrew s u c t) (g : OnlyCrew t u d r) : OnlyCrew s u d r :=
  ⟨g.1, fun v hv => (g.2.1 v hv).trans (h.2.1 v hv), g.2.2.trans h.2.2⟩

theorem OnlyCrew.time {s t : State} {u : Nat} {c : Crew} (h : OnlyCrew s u c t) : t.time = s.time := (congrArg State.time h.2.2 :)

theorem yieldOver_eq (s : State) (u k : Nat) : s.yieldOver u k =
    if (s.strand u k).waitOver s.time && decide ((s.crew u).preempt = 0) then s.setStrand u k (s.strand u k).seq else s := rfl

theorem onlyCrew_yieldOver (s : State) (u k : Nat) : OnlyCrew s u ((s.crew u).passWait s.time k) (s.yieldOver u k) := by
  rw [yieldOver_eq, Crew.passWait, State.strand]
  split
  · exact onlyCrew_setCrew ..
  · exact .refl s u

theorem onlyCrew_yieldsOver (u : Nat) : ∀ (l : List Nat) (s : State),
    OnlyCrew s u (l.foldl (Crew.passWait s.time) (s.crew u)) (l.foldl (fun x k => x.yieldOver u k) s)
  | [], s => .refl s u
  | k :: r, s => by
    have one := onlyCrew_yieldOver s u k
    have rest := onlyCrew_yieldsOver u r (s.yieldOver u k)
    rw [one.1, one.time] at rest
    exact one.trans rest

theorem onlyCrew_crewPeriod (s : State) (u : Nat) : OnlyCrew s u ((s.crew u).period s.time) (s.crewPeriod u) := by
  obtain ⟨s0, hs0⟩ : ∃ s0, s0 = if (s.crew u).preempt = 3 then s.setCrew u { s.crew u with preempt := 0 } else s := ⟨_, rfl⟩
  have begun : OnlyCrew s u (s.crew u).resumed s0 := by
    rw [hs0, Crew.resumed]
    split
    · exact onlyCrew_setCrew ..
    · exact .refl s u
  have past := begun.trans (onlyCrew_yieldsOver u (s0.crew u).liveKeys s0)
  rw [begun.1, begun.time] at past
  unfold State.crewPeriod
  rw [← hs0]
  dsimp only
  rw [begun.1, past.1]
  exact past.trans (onlyCrew_setCrew ..)

theorem mwf_foldl_yieldOver (u : Nat) : ∀ (l : List Nat) (s : State), mwf s.crews = true → mwf (l.foldl (fun x k => x.yieldOver u k) s).crews = true
  | [], _, h => h
  | k :: r, s, h => by
    refine mwf_foldl_yieldOver u r _ ?_
    dsimp only
    rw [yieldOver_eq]
    split
    · exact mwf_mset _ _ _ h
    · exact h

theorem mwf_crewPeriod {s : State} (u : Nat) (h : mwf s.crews = true) : mwf (s.crewPeriod u).crews = true := by
  refine mwf_mset _ _ _ (mwf_foldl_yieldOver u _ _ ?_)
  split
  · exact mwf_mset _ _ _ h
  · exact h

/-! The issue periods of the crews. -/

/-- Of the crews of s, those of a list have changed in t, each to the beginning of its issue period. -/
structure PeriodBegins (s : State) (l : List Nat) (t : State) : Prop where
  begun : ∀ u ∈ l, t.crew u = (s.crew u).period s.time
  others : ∀ u, u ∉ l → t.crew u = s.crew u
  wf : mwf s.crews = true → mwf t.crews = true

theorem periodBegins : ∀ (l : List Nat) (s : State), l.Nodup → PeriodBegins s l (l.foldl State.crewPeriod s)
  | [], s, _ => ⟨fun _ h => absurd h List.not_mem_nil, fun _ _ => rfl, id⟩
  | v :: r, s, distinct => by
    obtain ⟨new, distinct⟩ := List.nodup_cons.1 distinct
    obtain ⟨own, kept, rest⟩ := onlyCrew_crewPeriod s v
    have later := periodBegins r (s.crewPeriod v) distinct
    have time : (s.crewPeriod v).time = s.time := (congrArg State.time rest :)
    refine ⟨fun u hu => ?_, fun u hu => ?_, fun wf => later.wf (mwf_crewPeriod v wf)⟩
    · rcases List.mem_cons.1 hu with rfl | hu
      · exact (later.others u new).trans own
      · rw [List.foldl_cons, later.begun u hu, kept u fun h => new (h ▸ hu), time]
    · exact (later.others u fun h => hu (List.mem_cons_of_mem v h)).trans (kept u fun h => hu (h ▸ List.mem_cons_self))

/-- The keys of a table in canonical form are distinct. -/
theorem nodup_mkeys {α : Type} [Inhabited α] [DecidableEq α] : ∀ (m : FMap α) (lo : Nat), mwfAbove lo m = true → (mkeys m).Nodup
  | [], _, _ => List.nodup_nil
  | (a, x) :: r, lo, h => by
    simp only [mwfAbove, Bool.and_eq_true, decide_eq_true_eq] at h
    refine List.nodup_cons.2 ⟨fun mem => ?_, nodup_mkeys r (a + 1) h.2⟩
    obtain ⟨e, he, key⟩ := List.mem_map.1 mem
    have listed := (mwfAbove_mem r (a + 1) e h.2 he).1
    exact absurd (show e.1 = a from key) (by omega)

/-- The crews that are resident. -/
def State.residentCrews (s : State) : List Nat := mkeys (s.crews.filter (fun e => e.2.resident))

theorem nodup_residentCrews {s : State} (wf : mwf s.crews = true) : s.residentCrews.Nodup :=
  (nodup_mkeys s.crews 0 wf).sublist (List.filter_sublist.map _)

theorem mem_residentCrews {s : State} (wf : mwf s.crews = true) (u : Nat) : u ∈ s.residentCrews ↔ (s.crew u).resident = true := by
  refine ⟨fun h => ?_, fun h => ?_⟩
  · obtain ⟨e, he, rfl⟩ := List.mem_map.1 h
    obtain ⟨mem, resident⟩ := List.mem_filter.1 he
    rw [State.crew, mget_mem s.crews 0 e wf mem]
    exact resident
  · have listed : mget s.crews u ≠ default := fun none => by rw [State.crew, none] at h; cases h
    exact List.mem_map.2 ⟨_, List.mem_filter.2 ⟨mem_of_mget s.crews u listed, h⟩, rfl⟩

/-! The order of the weaves. -/

/-- The weaves of the resident crews, with their context indices. -/
def State.weavesOf (s : State) : List (Nat × Nat × Nat) :=
  s.crews.flatMap (fun e => if e.2.resident then (List.range e.2.weaves).map (fun w => (mget e.2.ctx w, e.1, w)) else [])

theorem mem_weavesOf {s : State} (wf : mwf s.crews = true) {x : Nat × Nat × Nat} (h : x ∈ s.weavesOf) :
    (s.crew x.2.1).resident = true ∧ x.2.2 < (s.crew x.2.1).weaves ∧ mget (s.crew x.2.1).ctx x.2.2 = x.1 := by
  obtain ⟨e, he, hx⟩ := List.mem_flatMap.1 h
  split at hx
  · next resident =>
    obtain ⟨w, hw, rfl⟩ := List.mem_map.1 hx
    have crew : s.crew e.1 = e.2 := mget_mem s.crews 0 e wf he
    rw [crew]
    exact ⟨resident, List.mem_range.1 hw, rfl⟩
  · cases hx

/-- The turn of a weave in a period: how many context indices come before its own (R25). -/
def State.turn (s : State) (period : Nat) (i : Issue) : Nat := (mget (s.crew i.crew).ctx i.weave + 4 - period % 4) % 4

/-- The weaves whose turn is j. -/
def State.issueTurn (s : State) (j : Nat) : List Issue :=
  (s.weavesOf.filter (fun x => decide (x.1 = (s.period + j) % 4))).map (fun x => ⟨x.2.1, x.2.2, []⟩)

theorem issueOrder_eq (s : State) : s.issueOrder = (List.range 4).flatMap s.issueTurn := rfl

theorem mem_issueTurn {s : State} (wf : mwf s.crews = true) {j : Nat} (hj : j < 4) {i : Issue} (h : i ∈ s.issueTurn j) :
    (i.strands = [] ∧ (s.crew i.crew).resident = true ∧ i.weave < (s.crew i.crew).weaves) ∧ s.turn s.period i = j := by
  obtain ⟨x, hx, rfl⟩ := List.mem_map.1 h
  obtain ⟨mem, turn⟩ := List.mem_filter.1 hx
  obtain ⟨resident, weave, ctx⟩ := mem_weavesOf wf mem
  refine ⟨⟨rfl, resident, weave⟩, ?_⟩
  rw [State.turn, ctx, of_decide_eq_true turn]
  omega

theorem mem_issueOrder {s : State} (wf : mwf s.crews = true) {i : Issue} (h : i ∈ s.issueOrder) :
    i.strands = [] ∧ (s.crew i.crew).resident = true ∧ i.weave < (s.crew i.crew).weaves := by
  obtain ⟨j, hj, mem⟩ := List.mem_flatMap.1 h
  exact (mem_issueTurn wf (List.mem_range.1 hj) mem).1

/-- The weaves try in the order of their context indices, from p mod 4 on (R25). -/
theorem pairwise_issueOrder {s : State} (wf : mwf s.crews = true) :
    s.issueOrder.Pairwise (fun i j => s.turn s.period i ≤ s.turn s.period j) := by
  rw [issueOrder_eq, List.pairwise_flatMap]
  refine ⟨fun j hj => List.pairwise_of_forall_mem_list fun x hx y hy => ?_, ?_⟩
  · rw [(mem_issueTurn wf (List.mem_range.1 hj) hx).2, (mem_issueTurn wf (List.mem_range.1 hj) hy).2]
  · refine List.pairwise_lt_range.imp_of_mem fun {j n} hj hn less x hx y hy => ?_
    rw [(mem_issueTurn wf (List.mem_range.1 hj) hx).2, (mem_issueTurn wf (List.mem_range.1 hn) hy).2]
    exact less.le

end Sys2Proof.Machine
end

section
/-! The end of an issue period: idle slices, requests at router ports, and the replies of L1 (R25, R232, R332, R379). -/

namespace Sys2Proof.Machine

/-- What no count, no packet that leaves and no reply changes. -/
def State.inner (s : State) : Nat × FMap Bool × FMap Byte × FMap Op × FMap Launch := (s.time, s.taken, s.mem, s.ops, s.launches)

theorem foldl_keeps {α β : Type} (g : State → β) {f : State → α → State} (h : ∀ s a, g (f s a) = g s) : ∀ (l : List α) (s : State), g (l.foldl f s) = g s
  | [], _ => rfl
  | a :: r, s => (foldl_keeps g h r (f s a)).trans (h s a)

/-- A fold none of whose steps does anything. -/
theorem foldl_idle {α : Type} {f : State → α → State} {s : State} : ∀ {l : List α}, (∀ a ∈ l, f s a = s) → l.foldl f s = s
  | [], _ => rfl
  | a :: r, h => by
    rw [List.foldl_cons, h a List.mem_cons_self]
    exact foldl_idle fun b hb => h b (List.mem_cons_of_mem a hb)

/-! Idle slices. -/

/-- The count of idle slices changes cores only (R332). -/
theorem countIdle_eq (s : State) (core : Nat) : ∃ c, s.countIdle core = s.setCore core c := by
  unfold State.countIdle
  dsimp only
  split <;> exact ⟨_, rfl⟩

theorem countsIdle_eq : ∀ (l : List Nat) (s : State), ∃ cores, l.foldl State.countIdle s = { s with cores := cores }
  | [], s => ⟨s.cores, rfl⟩
  | core :: r, s => by
    obtain ⟨c, one⟩ := countIdle_eq s core
    obtain ⟨cores, rest⟩ := countsIdle_eq r (s.setCore core c)
    exact ⟨cores, by rw [List.foldl_cons, one, rest]; rfl⟩

/-! Requests at router ports. -/

/-- What a request that leaves keeps: time, memory, operations, launches, and the replies on their way. -/
def State.inland (s : State) : (Nat × FMap Bool × FMap Byte × FMap Op × FMap Launch) × FMap Req := (s.inner, s.back)

@[simp] theorem inland_leaveBy (s : State) (id port : Nat) (x : Sent) : (s.leaveBy id port x).inland = s.inland := by
  unfold State.leaveBy
  split <;> rfl

theorem inland_ite {p : Prop} [Decidable p] {s t r : State} (h : t.inland = s.inland) (g : r.inland = s.inland) :
    (if p then t else r).inland = s.inland := by
  split
  · exact h
  · exact g

theorem inland_joinCopy (s : State) (j m id : Nat) : (s.joinCopy j m id).inland = s.inland := inland_ite rfl rfl

/-- A request that leaves, or is held at its source, changes the network only (R352, R355, R356). -/
theorem inland_depart (s : State) (id : Nat) (r : Req) : (s.depart id r).inland = s.inland := by
  have counted : (if r.counted then s.pathCount r.pathKey (· - 1) else s).inland = s.inland := inland_ite rfl rfl
  unfold State.depart
  dsimp only
  split
  · refine inland_ite rfl (.trans (inland_ite rfl rfl) ?_)
    split
    · exact (inland_joinCopy ..).trans counted
    · exact (inland_leaveBy ..).trans counted
  · exact inland_ite rfl (.trans (inland_ite rfl rfl) counted)

theorem inland_sendOn (s : State) (id : Nat) (r : Req) : (s.sendOn id r).inland = s.inland := by
  unfold State.sendOn
  dsimp only
  split
  · rfl
  · exact inland_depart ..

theorem inland_wakeRouter (s : State) (port : Nat) : (s.wakeRouter port).inland = s.inland := by
  unfold State.wakeRouter
  split <;> rfl

/-- Requests that go on from a router port change nothing inside (R379). -/
theorem inland_routerRetry (s : State) : s.routerRetry.inland = s.inland := by
  refine foldl_keeps State.inland (fun x e => ?_) s.net s
  split
  · split
    · exact inland_sendOn ..
    · exact inland_wakeRouter ..
  · rfl

/-- With no request at a router port none goes on. -/
theorem routerRetry_none {s : State} (none : ∀ e ∈ s.net, e.2.path = pathRouter → e.2.left = true ∨ e.2.kind = .none) : s.routerRetry = s := by
  refine foldl_idle fun e he => if_neg ?_
  simp only [Bool.and_eq_true, decide_eq_true_eq, Bool.not_eq_true']
  rintro ⟨⟨port, here⟩, kind⟩
  rcases none e he port with left | gone
  · rw [left] at here; cases here
  · exact kind gone

/-! The replies of L1. -/

theorem deliverReply_keeps (s : State) (k : Nat) (r : Req) :
    (s.deliverReply k r).inner = s.inner ∧ (s.deliverReply k r).back = mset s.back k default := by
  unfold State.deliverReply
  dsimp only
  split <;> exact ⟨rfl, rfl⟩

/-- A line that L1 has answered by now (R232). -/
def Req.answered (r : Req) (time : Nat) : Prop := r.kind = .load ∧ r.readyAt ≠ 0 ∧ r.readyAt ≤ time

/-- The reply of an entry reaches its strand when L1 has answered it. -/
def State.l1Reply (s : State) (e : Nat × Req) : State :=
  if decide (e.2.kind = .load) && decide (e.2.readyAt ≠ 0) && decide (e.2.readyAt ≤ s.time) then s.deliverReply e.1 e.2 else s

theorem l1Replies_eq (s : State) : s.l1Replies = s.back.foldl State.l1Reply s := rfl

theorem l1Reply_answered {s : State} {e : Nat × Req} (h : e.2.answered s.time) : s.l1Reply e = s.deliverReply e.1 e.2 := by
  obtain ⟨kind, ready, due⟩ := h
  exact if_pos (by simp [kind, ready, due])

theorem l1Reply_other {s : State} {e : Nat × Req} (h : ¬e.2.answered s.time) : s.l1Reply e = s := by
  refine if_neg fun due => h ?_
  simp only [Bool.and_eq_true, decide_eq_true_eq] at due
  exact ⟨due.1.1, due.1.2, due.2⟩

theorem inner_l1Reply (s : State) (e : Nat × Req) : (s.l1Reply e).inner = s.inner := by
  unfold State.l1Reply
  split
  · exact (deliverReply_keeps ..).1
  · rfl

theorem inner_l1Replies (s : State) : s.l1Replies.inner = s.inner := by
  rw [l1Replies_eq]
  exact foldl_keeps State.inner inner_l1Reply s.back s

/-- What is no longer on its way back stays so. -/
theorem back_l1Reply_gone {s : State} {k : Nat} (gone : mget s.back k = default) (e : Nat × Req) : mget (s.l1Reply e).back k = default := by
  unfold State.l1Reply
  split
  · rw [(deliverReply_keeps ..).2, mget_mset]
    split
    · rfl
    · exact gone
  · exact gone

theorem back_l1Reply_answered {s : State} {e : Nat × Req} (h : e.2.answered s.time) : mget (s.l1Reply e).back e.1 = default := by
  rw [l1Reply_answered h, (deliverReply_keeps ..).2, mget_mset_same]

theorem foldl_l1Reply_gone {k : Nat} : ∀ (l : List (Nat × Req)) {s : State}, mget s.back k = default → mget (l.foldl State.l1Reply s).back k = default
  | [], _, h => h
  | e :: r, _, h => foldl_l1Reply_gone r (back_l1Reply_gone h e)

theorem foldl_l1Reply_answered {e : Nat × Req} : ∀ (l : List (Nat × Req)) {s : State}, e ∈ l → e.2.answered s.time →
    mget (l.foldl State.l1Reply s).back e.1 = default
  | d :: r, s, mem, due => by
    rcases List.mem_cons.1 mem with rfl | mem
    · exact foldl_l1Reply_gone r (back_l1Reply_answered due)
    · have time : (s.l1Reply d).time = s.time := congrArg (·.1) (inner_l1Reply s d)
      exact foldl_l1Reply_answered r mem (time ▸ due)

/-- Every line that L1 has answered is delivered (R232). -/
theorem back_l1Replies {s : State} {k : Nat} (due : (mget s.back k).answered s.time) : mget s.l1Replies.back k = default := by
  rw [l1Replies_eq]
  by_cases none : mget s.back k = default
  · exact foldl_l1Reply_gone s.back none
  · exact foldl_l1Reply_answered (e := (k, mget s.back k)) s.back (mem_of_mget s.back k none) due

theorem l1Replies_none {s : State} (none : ∀ e ∈ s.back, ¬e.2.answered s.time) : s.l1Replies = s := by
  rw [l1Replies_eq]
  exact foldl_idle fun e he => l1Reply_other (none e he)

end Sys2Proof.Machine
end

section
/-! ISSUE_PERIOD as a whole, and the steps that end the wait of one strand (R25, R183, R184, R194, R262, R268, R301). -/

namespace Sys2Proof.Machine

/-! ISSUE_PERIOD. -/

/-- The state in which the crews begin a period: time has passed, and what was due at routers and L1 has moved. -/
def State.periodStart (s : State) (cores : FMap Core) (ports : FMap Port) : State :=
  ({ s with cores := cores, ports := ports, time := s.time + 16, taken := [] } : State).routerRetry.l1Replies

/-- The crews begin a period. -/
def State.crewsBegin (s : State) : State := s.residentCrews.foldl State.crewPeriod s

theorem issuePeriod_eq (s : State) : ∃ cores ports,
    let t := (s.periodStart cores ports).crewsBegin
    exec .issuePeriod s = .next { t with issueQ := t.issueOrder } := by
  obtain ⟨cores, idle⟩ := countsIdle_eq (List.range coreCount) s
  rw [exec_issuePeriod, execIssuePeriod, idle]
  exact ⟨cores, _, rfl⟩

theorem crewsBegin_rest (s : State) : { s.crewsBegin with crews := [] } = { s with crews := [] } :=
  foldl_keeps (fun x : State => { x with crews := [] }) (fun x u => (onlyCrew_crewPeriod x u).2.2) s.residentCrews s

theorem inner_crewsBegin (s : State) : s.crewsBegin.inner = s.inner := (congrArg State.inner (crewsBegin_rest s) :)
theorem net_crewsBegin (s : State) : s.crewsBegin.net = s.net := (congrArg State.net (crewsBegin_rest s) :)
theorem back_crewsBegin (s : State) : s.crewsBegin.back = s.back := (congrArg State.back (crewsBegin_rest s) :)

theorem inner_periodStart (s : State) (cores : FMap Core) (ports : FMap Port) :
    (s.periodStart cores ports).inner = (s.time + 16, [], s.mem, s.ops, s.launches) :=
  (inner_l1Replies _).trans (congrArg (·.1) (inland_routerRetry _))

/-- The lines that L1 has answered when the period begins are delivered (R232). -/
theorem back_periodStart {s : State} {k : Nat} (due : (mget s.back k).answered (s.time + 16)) (cores : FMap Core) (ports : FMap Port) :
    mget (s.periodStart cores ports).back k = default := by
  obtain ⟨s1, hs1⟩ : ∃ s1 : State, s1 = { s with cores := cores, ports := ports, time := s.time + 16, taken := [] } := ⟨_, rfl⟩
  have kept := inland_routerRetry s1
  have time : s1.routerRetry.time = s.time + 16 := (congrArg (·.1.1) kept).trans (congrArg State.time hs1)
  have back : s1.routerRetry.back = s.back := (congrArg (·.2) kept).trans (congrArg State.back hs1)
  rw [State.periodStart, ← hs1]
  exact back_l1Replies (by rwa [time, back])

/-- With nothing due at routers and L1, only time passes until the crews begin. -/
theorem periodStart_quiet {s : State} (quiet : s.quiet) (cores : FMap Core) (ports : FMap Port) :
    s.periodStart cores ports = { s with cores := cores, ports := ports, time := s.time + 16, taken := [] } := by
  obtain ⟨replies, requests⟩ := quiet
  rw [State.periodStart, routerRetry_none]
  · refine l1Replies_none fun e he due => ?_
    obtain ⟨kind, ready, past⟩ := due
    exact absurd (replies e he kind ready) (Nat.not_lt.2 past)
  · exact requests

/-- In t the resident crews of s have begun a period at a time, and the others are as in s. -/
structure Began (s : State) (time : Nat) (t : State) : Prop where
  wf : mwf t.crews = true
  resident : ∀ u, (s.crew u).resident = true → t.crew u = (s.crew u).period time
  away : ∀ u, (s.crew u).resident = false → t.crew u = s.crew u

theorem began_crewsBegin {s : State} (wf : mwf s.crews = true) : Began s s.time s.crewsBegin := by
  have begins := periodBegins s.residentCrews s (nodup_residentCrews wf)
  refine ⟨begins.wf wf, fun u h => begins.begun u ((mem_residentCrews wf u).2 h), fun u h => begins.others u fun mem => ?_⟩
  rw [(mem_residentCrews wf u).1 mem] at h
  cases h

/-- With nothing due at routers and L1, the crews begin the period as they are. -/
theorem began_issuePeriod {s : State} (wf : mwf s.crews = true) (quiet : s.quiet) (cores : FMap Core) (ports : FMap Port) :
    Began s (s.time + 16) (s.periodStart cores ports).crewsBegin := by
  rw [periodStart_quiet quiet]
  obtain ⟨wf, resident, away⟩ := began_crewsBegin (s := { s with cores := cores, ports := ports, time := s.time + 16, taken := [] }) wf
  exact ⟨wf, resident, away⟩

theorem Began.frame {s t : State} {time : Nat} (h : Began s time t) (u : Nat) : (t.crew u).frame = (s.crew u).frame := by
  cases r : (s.crew u).resident with
  | true => rw [h.resident u r, frame_period]
  | false => rw [h.away u r]

theorem ripe_iff (s : State) (u k : Nat) : s.ripe u k ↔ (s.crew u).resident = true ∧ (s.crew u).ends (s.time + 16) k := by
  have period : (s.time + 16) / 16 = s.time / 16 + 1 := by omega
  unfold State.ripe Crew.ends
  rw [waitOver_iff, period, State.strand]

section
variable {s t : State} (began : Began s (s.time + 16) t)
include began

/-- A strand whose wait is over goes on in line. -/
theorem Began.ripe {u k : Nat} (h : s.ripe u k) : (t.strand u k).stays (s.strand u k).seq := by
  obtain ⟨resident, ends⟩ := (ripe_iff s u k).1 h
  rw [State.strand, State.strand, began.resident u resident, ← st_waited_ends ends]
  exact period_stays ..

/-- Any other stays where it is. -/
theorem Began.notRipe {u k : Nat} (h : ¬s.ripe u k) : (t.strand u k).stays (s.strand u k) := by
  rw [State.strand, State.strand]
  cases r : (s.crew u).resident with
  | true =>
    rw [began.resident u r, ← st_waited_other fun ends => h ((ripe_iff s u k).2 ⟨r, ends⟩)]
    exact period_stays ..
  | false =>
    rw [began.away u r]
    exact Strand.stays_refl _

theorem Began.sameRegs (u k : Nat) : (t.strand u k).sameRegs (s.strand u k) := by
  by_cases h : s.ripe u k
  · exact sameRegs_trans (began.ripe h).1 (seq_keeps _).1
  · exact (began.notRipe h).1

theorem Began.gang_iff {u w j k : Nat} (none : ∀ i, ¬s.ripe u i) (weave : w < (s.crew u).weaves) (wj : weaveOf j = w) (wk : weaveOf k = w)
    (mj : s.merges u j) (mk : s.merges u k) : (t.strand u j).gang = (t.strand u k).gang ↔ (s.strand u j).key = (s.strand u k).key := by
  obtain ⟨resident, sj⟩ := mj
  obtain ⟨-, sk⟩ := mk
  rw [State.strand, State.strand, began.resident u resident]
  exact period_gang_iff (fun i ends => none i ((ripe_iff s u i).2 ⟨resident, ends⟩)) weave wj wk sj sk

theorem Began.gang_apart {u k : Nat} (resident : (s.crew u).resident = true) (live : k ∈ (s.crew u).liveKeys) (weave : weaveOf k < (s.crew u).weaves)
    (apart : (s.strand u k).handler = true ∨ (s.strand u k).pending ≠ none) : (t.strand u k).gang = 16 + sidOf k := by
  rw [State.strand, began.resident u resident]
  exact period_apart live weave apart

theorem Began.issue {i : Issue} (h : i ∈ t.issueOrder) :
    i.strands = [] ∧ (s.crew i.crew).resident = true ∧ i.weave < (s.crew i.crew).weaves := by
  obtain ⟨strands, resident, weave⟩ := mem_issueOrder began.wf h
  have same : (t.crew i.crew).resident = (s.crew i.crew).resident := congrArg (·.1) (began.frame i.crew)
  have weaves : (t.crew i.crew).weaves = (s.crew i.crew).weaves := congrArg (·.2.1) (began.frame i.crew)
  exact ⟨strands, same ▸ resident, weaves ▸ weave⟩

theorem Began.turn (p : Nat) (i : Issue) : t.turn p i = s.turn p i := by
  have ctx : (t.crew i.crew).ctx = (s.crew i.crew).ctx := congrArg (·.2.2.2) (began.frame i.crew)
  rw [State.turn, State.turn, ctx]
end

/-! Only a strand. -/

theorem onlyStrand_setStrand (s : State) (u k : Nat) (st : Strand) : OnlyStrand s u k st (s.setStrand u k st) :=
  ⟨(State.strand_setStrand ..).trans (if_pos ⟨rfl, rfl⟩), fun _ _ h => (State.strand_setStrand ..).trans (if_neg h),
    fun v => State.crew_setStrand_rest s u k v st, rfl⟩

theorem yieldOver_ends {s : State} {u k : Nat} (past : (s.strand u k).waitOver s.time = true) (runs : (s.crew u).preempt = 0) :
    s.yieldOver u k = s.setStrand u k (s.strand u k).seq := by
  rw [yieldOver_eq, past, runs]
  rfl

theorem yieldOver_waits {s : State} {u k : Nat} (h : (s.strand u k).waitOver s.time = false ∨ (s.crew u).preempt ≠ 0) : s.yieldOver u k = s := by
  rw [yieldOver_eq]
  refine if_neg fun now => ?_
  obtain ⟨past, runs⟩ := Bool.and_eq_true_iff.1 now
  rcases h with waits | stops
  · rw [waits] at past; cases past
  · exact stops (of_decide_eq_true runs)

theorem waitOver_yielded {st : Strand} {p : Nat} (h : st.wait = .yielded p) (time : Nat) : st.waitOver time = decide (p ≤ time / 16) := by
  rw [Strand.waitOver, h]

theorem waitOver_deadline {st : Strand} {p : Nat} (h : st.wait = .deadline p) (time : Nat) : st.waitOver time = decide (p ≤ time / 8) := by
  rw [Strand.waitOver, h]

theorem yieldExpiry_eq {s : State} {u k p : Nat} (h : (s.strand u k).wait = .yielded p) : exec (.yieldExpiry u k) s = .next (s.yieldOver u k) := by
  rw [exec_yieldExpiry, execYieldExpiry, h]

theorem waitDeadline_eq {s : State} {u k p : Nat} (h : (s.strand u k).wait = .deadline p) : exec (.waitDeadline u k) s = .next (s.yieldOver u k) := by
  rw [exec_waitDeadline, execWaitDeadline, h]

theorem trapEntry_eq {s : State} {u k : Nat} {tr : Trap} (h : (s.strand u k).pending = some tr) :
    exec (.trapEntry u k) s = .next (s.takeTrap u k tr) := by
  rw [exec_trapEntry, execTrapEntry, h]

end Sys2Proof.Machine
end

section
open Sys2Proof Sys2Proof.Machine

/-- Settles O36: what passes before the crews begin is `inner_periodStart`, `back_periodStart` and `periodStart_quiet`; the crews begin by
`began_crewsBegin`, their strands by `Began.ripe` and `Began.notRipe`, their sub-gangs by `Began.gang_iff`, and the weaves try by `issueOrder`. -/
theorem periodsAndStrandSteps : Obligations.PeriodsAndStrandSteps := by
  refine ⟨fun s tidy => ?_, ?_⟩
  · obtain ⟨cores, ports, answer⟩ := issuePeriod_eq s
    have inner := (inner_crewsBegin _).trans (inner_periodStart s cores ports)
    have back := fun k => congrArg (mget · k) (back_crewsBegin (s.periodStart cores ports))
    refine ⟨_, answer, congrArg (·.1) inner, congrArg (·.2.1) inner, congrArg (·.2.2.1) inner, congrArg (·.2.2.2.1) inner, congrArg (·.2.2.2.2) inner,
      fun k r here kind ready past => (back k).trans (back_periodStart (here ▸ ⟨kind, ready, past⟩) cores ports), fun quiet => ?_⟩
    obtain ⟨-, crews, -⟩ := tidy
    have began := began_issuePeriod crews quiet cores ports
    refine ⟨?_, ?_, fun u k => ⟨began.sameRegs u k, fun ripe => ?_, fun waits => ?_, fun waits busy => ?_⟩, fun u w j k => began.gang_iff,
      fun u k => began.gang_apart, fun i => began.issue, ?_⟩
    · exact (net_crewsBegin _).trans (congrArg State.net (periodStart_quiet quiet cores ports) :)
    · exact (back_crewsBegin _).trans (congrArg State.back (periodStart_quiet quiet cores ports) :)
    · obtain ⟨-, pc, loops, -⟩ := began.ripe ripe
      exact ⟨pc, loops⟩
    · obtain ⟨-, pc, loops, -⟩ := began.notRipe waits
      exact ⟨pc, loops⟩
    · obtain ⟨-, -, -, wait⟩ := began.notRipe waits
      exact wait busy
    · refine (pairwise_issueOrder began.wf).imp fun {i j} ordered => ?_
      rw [began.turn, began.turn] at ordered
      exact ordered
  · intro s u k st
    refine ⟨⟨_, rfl, onlyStrand_setStrand ..⟩, fun p wait runs past => ⟨_, yieldExpiry_eq wait, ?_⟩, fun p wait held => (yieldExpiry_eq wait).trans ?_,
      fun p wait runs past => ⟨_, waitDeadline_eq wait, ?_⟩, fun p wait held => (waitDeadline_eq wait).trans ?_, fun tr => trapEntry_eq,
      fun busy past => ⟨_, if_pos (by simp [busy, past]), onlyCrew_setCrew ..⟩,
      fun busy past => ⟨_, if_pos (by simp [busy, past]), onlyCrew_setCrew ..⟩⟩
    · rw [yieldOver_ends ((waitOver_yielded wait _).trans (decide_eq_true past)) runs]
      exact onlyStrand_setStrand ..
    · rw [yieldOver_waits (held.imp_left fun h => (waitOver_yielded wait _).trans (decide_eq_false (Nat.not_le.2 h)))]
    · rw [yieldOver_ends ((waitOver_deadline wait _).trans (decide_eq_true past)) runs]
      exact onlyStrand_setStrand ..
    · rw [yieldOver_waits (held.imp_left fun h => (waitOver_deadline wait _).trans (decide_eq_false (Nat.not_le.2 h)))]
end

section
/-! The shared runner where every strand traps, completes or waits (R34, R157, R299). -/

namespace Sys2Proof.Machine

/-! The runner where every strand traps. -/

/-- An instruction that raises a trap in every strand of the sub-gang, for reasons of its own, does nothing else. -/
theorem traps_of_trapOf {i : Instr} {m : Meaning} {s : State} {tr : Nat → Trap}
    (raises : ∀ k ∈ s.cur.strands, m.trapOf i s s.cur.crew s.cur.strands k = some (tr k)) : Traps s (runNext i m s) tr := by
  refine ⟨_, rfl, ?_⟩
  have taken : s.cur.strands.filterMap (fun k => (m.trapOf i s s.cur.crew s.cur.strands k).map (fun t => (k, t))) =
      s.cur.strands.map (fun k => (k, tr k)) := by
    rw [← List.filterMap_eq_map']
    exact List.filterMap_congr fun k here => by simp [raises k here]
  by_cases none : s.cur.strands = []
  · rw [runInstr_empty i m s none, none]
    exact ⟨rfl, fun _ => rfl⟩
  · have some : (s.cur.strands.map (fun k => (k, tr k))).isEmpty = false := by simpa using none
    have rest : ∀ t : State, s.cur.strands.filter (fun k => !((s.cur.strands.map (fun k => (k, tr k))).any (fun e => decide (e.1 = k))) &&
        decide ((t.strand s.cur.crew k).live ≠ 0)) = [] := fun t => by
      rw [List.filter_eq_nil_iff]
      intro k here
      simp [here]
    have e : runInstr i m s = s.takeTraps s.cur.crew (s.cur.strands.map (fun k => (k, tr k))) := by
      simp only [runInstr, taken, some, rest, if_false, Bool.false_eq_true]
      rfl
    rw [e, State.takeTraps, List.foldl_map]
    exact ⟨rfl, fun _ => rfl⟩

/-- In a clear state the traps of an instruction are those that depend on values. -/
theorem traps_of_clear {i : Instr} {m : Meaning} {s : State} {tr : Nat → Trap} (clear : s.clear m.use) (plain : m.posted = false)
    (raises : ∀ k ∈ s.cur.strands, m.trap ⟨s, s.cur.crew, k, s.crew s.cur.crew, s.reading m.use k⟩ = some (tr k)) :
    Traps s (runNext i m s) tr :=
  traps_of_trapOf fun k here => (clear_trapOf clear plain i here).trans (raises k here)

/-- A check of R157 that fails in every strand. -/
theorem traps_of_checked {i : Instr} {m : Meaning} {s : State} {c : Nat} (fails : ∀ k ∈ s.cur.strands, s.checked m.use k = c) (bad : c ≠ 0) :
    Traps s (runNext i m s) (fun k => wordTrap (s.strand s.cur.crew k) c (wordOf i)) :=
  traps_of_trapOf fun k here => by
    have h : m.use.cause (s.crew s.cur.crew) ((s.crew s.cur.crew).st k) (fun n => s.slotOf (s.crew s.cur.crew) n)
        (converged (s.crew s.cur.crew) s.cur.strands) = c := fails k here
    simp [Meaning.trapOf, h, bad, State.strand]

/-! The runner where every strand completes. -/

/-- An instruction whose traps depend on values and whose effect is one of the strand alone. -/
theorem completes_trapping (i : Instr) (x : Use) (trap : Site → Option Trap) (f : Strand → Strand) {s : State} (clear : s.clear x)
    (safe : ∀ k ∈ s.cur.strands, trap ⟨s, s.cur.crew, k, s.crew s.cur.crew, s.reading x k⟩ = none) :
    Completes s (runNext i { use := x, trap := trap, act := onStrand x (fun a => f a.st) } s) (fun k => f (s.reading x k)) :=
  completes_onStrand i { use := x, trap := trap, act := onStrand x (fun a => f a.st) } _ s _ rfl rfl clear safe (fun _ _ => rfl)
    (fun _ _ _ _ _ => rfl)

/-- An instruction that neither traps nor waits and whose effect is one of the strand alone. -/
theorem completes_plain (i : Instr) (x : Use) (f : Strand → Strand) {s : State} (clear : s.clear x) :
    Completes s (runNext i { use := x, act := onStrand x (fun a => f a.st) } s) (fun k => f (s.reading x k)) :=
  completes_trapping i x _ f clear (fun _ _ => rfl)

theorem Completes.congr {s : State} {o : Host.Outcome State Fault Refusal} {f g : Nat → Strand} (done : Completes s o f)
    (same : ∀ k ∈ s.cur.strands, f k = g k) : Completes s o g := by
  obtain ⟨t, next, own, rest⟩ := done
  exact ⟨t, next, fun k here => (own k here).trans (same k here), rest⟩

/-! The runner where every strand waits. -/

/-- Setting the waits of strands of a crew changes those strands only. -/
theorem foldl_setWait (u : Nat) (w : Nat → Wait) {s : State} {ks : List Nat} (nd : ks.Nodup) :
    let t := ks.foldl (fun x k => x.setStrand u k { x.strand u k with wait := w k }) s
    (∀ k ∈ ks, t.strand u k = { s.strand u k with wait := w k }) ∧ (∀ v j, ¬(v = u ∧ j ∈ ks) → t.strand v j = s.strand v j) ∧ Same s t :=
  fold_strands Same Same.refl Same.trans _ (fun k st => st = { s.strand u k with wait := w k }) u ks s nd fun x k _ _ here =>
    ⟨by simp [here], fun v j other => by simp [other], same_setStrand ..⟩

/-- An instruction that traps in no strand and waits in each does nothing else. -/
theorem waits_of_hold {i : Instr} {m : Meaning} {s : State} {w : Nat → Wait} (clear : s.clear m.use) (plain : m.posted = false)
    (quiet : ∀ t u ks, m.ask t u ks = t)
    (safe : ∀ k ∈ s.cur.strands, m.trap ⟨s, s.cur.crew, k, s.crew s.cur.crew, s.reading m.use k⟩ = none)
    (held : ∀ k ∈ s.cur.strands, m.hold ⟨s, s.cur.crew, k, s.crew s.cur.crew, s.reading m.use k⟩ = some (w k)) :
    Waits s (runNext i m s) w := by
  obtain ⟨own, others, rest, machine⟩ := foldl_setWait s.cur.crew w clear.1 (s := s)
  refine ⟨_, rfl, ?_⟩
  have none : s.cur.strands.filterMap (fun k => (m.trapOf i s s.cur.crew s.cur.strands k).map (fun t => (k, t))) = [] := by
    rw [List.filterMap_eq_nil_iff]
    intro k here
    simp [(clear_trapOf clear plain i here).trans (safe k here)]
  have wait (k : Nat) (here : k ∈ s.cur.strands) : m.waitOf s s.cur.crew k = some (w k) := (clear_waitOf clear plain here).trans (held k here)
  have all : m.waits s s.cur.crew s.cur.strands = s.cur.strands.map (fun k => (k, w k)) := by
    have each : s.cur.strands.filterMap (fun k => (m.waitOf s s.cur.crew k).map (fun x => (k, x))) = s.cur.strands.map (fun k => (k, w k)) := by
      rw [← List.filterMap_eq_map']
      exact List.filterMap_congr fun k here => by simp [wait k here]
    have joined : s.cur.strands.map (fun k => (k, (m.waitOf s s.cur.crew k).getD .joined)) = s.cur.strands.map (fun k => (k, w k)) :=
      List.map_congr_left fun k here => by simp [wait k here]
    simp only [Meaning.waits, each, joined, ite_self]
  have go : s.cur.strands.filter (fun k => !((s.cur.strands.map (fun k => (k, w k))).any (fun e => decide (e.1 = k)))) = [] := by
    rw [List.filter_eq_nil_iff]
    intro k here
    simp [here]
  have e : runInstr i m s = s.cur.strands.foldl (fun x k => x.setStrand s.cur.crew k { x.strand s.cur.crew k with wait := w k }) s := by
    by_cases empty : s.cur.strands = []
    · rw [runInstr_empty i m s empty, empty, List.foldl_nil]
    · have some : (s.cur.strands.map (fun k => (k, w k))).isEmpty = false := by simpa using empty
      simp only [runInstr, none, List.isEmpty_nil, if_true, all, some, go, quiet, State.setWaits, State.takeTraps, List.foldl_nil,
        List.foldl_map, Bool.false_eq_true, if_false]
  rw [e]
  exact ⟨own, ⟨others, rest⟩, machine⟩

/-- An effect on strands of one crew leaves every other crew as it is. -/
theorem crew_onStrand_other (x : Use) (f : Site → Strand) (u : Nat) {v : Nat} (other : v ≠ u) :
    ∀ (ks : List Nat) (s : State), (onStrand x f s u ks).crew v = s.crew v
  | [], _ => rfl
  | k :: ks, s => by
    refine (crew_onStrand_other x f u other ks _).trans ?_
    dsimp only [State.site]
    cases s.deliver ((s.crew u).st k) x.reads with
    | none => rfl
    | some st => exact (State.crew_setStrand ..).trans (if_neg other)

end Sys2Proof.Machine
end

section
/-! Branches, jumps, calls, loops and joins (R28, R29, R139, R166..R170, R172, R176). -/

namespace Sys2Proof.Machine

/-! Branches and transfers. -/

theorem branchStrand_eq (st : Strand) (h onTrue : Bool) (p : Nat) (tgt : VAddr) :
    branchStrand st h onTrue p tgt = afterBranch st h (branchTaken st onTrue p) tgt := rfl

/-- The effect of BR and BRN in a clear state (R28, R166). -/
theorem branchOp_completes (i : Instr) (onTrue h : Bool) (p : Fin 8) (o : BitVec 21) {s : State} (clear : s.clear (brUse onTrue p)) :
    Completes s (branchOp i onTrue h p o s) (fun k => let st := s.reading (brUse onTrue p) k
      afterBranch st h (branchTaken st onTrue p.val) (targetOf st o.toInt)) := by
  simp only [← branchStrand_eq]
  exact completes_plain i (brUse onTrue p) (fun st => branchStrand st h onTrue p.val (targetOf st o.toInt)) clear

theorem bruTaken_iff (c : Fin 4) (v : Word64) :
    bruTaken c.val v = true ↔ (c = 0 ∧ v.toInt = 0) ∨ (c = 1 ∧ v.toInt ≠ 0) ∨ (c = 2 ∧ v.toInt < 0) ∨ (c = 3 ∧ 0 ≤ v.toInt) := by
  have zero : v = 0#64 ↔ v.toInt = 0 := ⟨fun h => by simp [h], fun h => BitVec.eq_of_toInt_eq (by simpa using h)⟩
  match c with
  | 0 | 1 | 2 | 3 => simp [bruTaken, zero]

theorem targetTrap_good {st : Strand} {n : Nat} (good : goodTarget st n) : targetTrap st (st.sreg n) = none := by
  obtain ⟨aligned, low⟩ := good
  have even : (st.sreg n).toNat % 2 ^ 2 = 0 := aligned
  have top : (st.sreg n).toNat / 2 ^ 57 = 0 := Nat.div_eq_of_lt low
  simp [targetTrap, nbits, even, -Nat.reducePow, top]

theorem targetTrap_misaligned {st : Strand} {v : Word64} (h : v.toNat % 4 ≠ 0) : targetTrap st v = some (valueTrap st cMisalign v) := by
  simp [targetTrap, nbits, h]

theorem targetTrap_high {st : Strand} {v : Word64} (aligned : v.toNat % 4 = 0) (high : 2 ^ 57 ≤ v.toNat) :
    targetTrap st v = some (valueTrap st cFetch v) := by
  have even : v.toNat % 2 ^ 2 = 0 := aligned
  have top : v.toNat / 2 ^ 57 % 2 ^ 7 ≠ 0 := by have := v.isLt; omega
  simp [targetTrap, nbits, even, -Nat.reducePow, top]

/-- A register transfer at aligned targets below 2^57 (R169). -/
theorem jumpRegOp_completes (i : Instr) (x : Use) (n : Nat) (link : Bool) {s : State} (clear : s.clear x)
    (good : ∀ k ∈ s.cur.strands, goodTarget (s.reading x k) n) :
    Completes s (jumpRegOp i x n link s) (fun k =>
      let st := s.reading x k
      (if link then st.setS 31 ((st.pc + 4).setWidth 64) else st).jump ((st.sreg n).setWidth 57)) :=
  completes_trapping i x (fun a => targetTrap a.st (a.st.sreg n))
    (fun st => (if link then st.setS 31 ((st.pc + 4).setWidth 64) else st).jump ((st.sreg n).setWidth 57)) clear
    (fun k here => targetTrap_good (good k here))

/-- A register transfer at targets that it cannot take (R169). -/
theorem jumpRegOp_badTargets (i : Instr) (x : Use) (n : Nat) (link : Bool) {s : State} (clear : s.clear x) :
    BadTargets s x (jumpRegOp i x n link s) n :=
  ⟨fun odd => traps_of_clear clear rfl fun k here => targetTrap_misaligned (odd k here),
   fun high => traps_of_clear clear rfl fun k here => targetTrap_high (high k here).1 (high k here).2⟩

/-- A fetch that does not translate raises FETCH (R139). -/
theorem fetchWord_fault {s : State} {u k : Nat} (walked : (s.strand u k).walkFaults = [])
    (fault : ∃ e, s.xlate (s.crew u).core (domOf (s.crew u).core) (s.crewLaunch (s.crew u)).part (s.crewLaunch (s.crew u)).space
      (s.strand u k).pc.toNat permX = .fault e) : s.fetchWord u k = .trap cFetch := by
  obtain ⟨e, fault⟩ := fault
  have walked' : ((s.crew u).st k).walkFaults = [] := walked
  have fault' : s.xlate (s.crew u).core (domOf (s.crew u).core) (s.crewLaunch (s.crew u)).part (s.crewLaunch (s.crew u)).space
    ((s.crew u).st k).pc.toNat permX = .fault e := fault
  simp [State.fetchWord, walked', fault']

/-- A sub-gang whose fetch traps takes the trap in every strand, and does nothing else (R139, R299). -/
theorem issueStep_fetchTrap {s : State} {c : Nat} (h : s.fetchWord s.cur.crew (s.cur.strands.headD 0) = .trap c) :
    Traps s (issueStep s) (fun j => valueTrap (s.strand s.cur.crew j) c ((s.strand s.cur.crew j).pc.setWidth 64)) := by
  refine ⟨_, by rw [issueStep, State.fetchIssue, h], ?_⟩
  rw [State.gangTrap, State.takeTraps, List.foldl_map]
  exact ⟨rfl, fun _ => rfl⟩

theorem step_issues {s : State} {x : Issue × List Issue} (up : s.bootstat.getLsbD 8 = false) (free : s.agenda = [])
    (next : s.nextIssue = some x) : step s = issueStep (s.issuing x) := by
  simp only [step, up, free, next, Bool.false_eq_true, if_false]

/-! Loops. -/

/-- LOOP raises ILLEGAL_LOOP at this strand: a fifth loop, or an end beyond that of an enclosing loop (R172). -/
def loopBad (st : Strand) (len : Nat) : Bool :=
  decide (4 ≤ st.loops.length) || st.loops.any (fun l => decide (l.fin.toNat < (loopEnd st len).toNat))

theorem loopBad_eq_false {st : Strand} {len : Nat} (room : st.loops.length < 4) (inside : ∀ l ∈ st.loops, (loopEnd st len).toNat ≤ l.fin.toNat) :
    loopBad st len = false := by
  simp only [loopBad, Bool.or_eq_false_iff, decide_eq_false_iff_not, List.any_eq_false, decide_eq_true_eq]
  exact ⟨by omega, fun l here => by have := inside l here; omega⟩

theorem loopBad_of_deep {st : Strand} {len : Nat} (deep : 4 ≤ st.loops.length) : loopBad st len = true := by
  simp [loopBad, deep]

end Sys2Proof.Machine

open Sys2Proof Sys2Proof.Machine

/-- Settles O13: the branches by `branchOp_completes` and `bruTaken_iff`, the register transfers by `jumpRegOp_completes` and
`jumpRegOp_badTargets`, the fetch at a target that does not translate by `issueStep_fetchTrap`. -/
theorem branchesJumpsAndCalls : Obligations.BranchesJumpsAndCalls := by
  refine ⟨fun s => ⟨fun h p o => ⟨fun clear => ?_, fun clear => ?_⟩, fun r c o clear => ?_⟩,
    fun s => ⟨fun o => ⟨fun clear => ?_, fun clear => ?_⟩, fun clear => ⟨fun good => ?_, ?_⟩,
      fun r => ⟨fun clear => ⟨fun good => ?_, ?_⟩, fun clear => ⟨fun good => ?_, ?_⟩⟩⟩, fun s x up free next => ?_⟩
  · exact branchOp_completes (.br h p o) true h p o clear
  · exact branchOp_completes (.brn h p o) false h p o clear
  · simp only [← bruTaken_iff]
    exact completes_plain (.bru r c o) _ (fun st =>
      if bruTaken c.val (st.sreg r.val) then { st.jump (targetOf st o.toInt) with favoured := true } else st.seq) clear
  · exact completes_plain (.jmp o) _ (fun st => st.jump (targetOf st o.toInt)) clear
  · exact completes_plain (.call o) _ (fun st => (st.setS 31 ((st.pc + 4).setWidth 64)).jump (targetOf st o.toInt)) clear
  · exact jumpRegOp_completes .ret _ 31 false clear good
  · exact jumpRegOp_badTargets .ret _ 31 false clear
  · exact jumpRegOp_completes (.jr (.s r)) _ r.val false clear good
  · exact jumpRegOp_badTargets (.jr (.s r)) _ r.val false clear
  · exact jumpRegOp_completes (.callr (.s r)) _ r.val true clear good
  · exact jumpRegOp_badTargets (.callr (.s r)) _ r.val true clear
  · intro k st c l walked fault
    rw [step_issues up free next]
    exact issueStep_fetchTrap (s := s.issuing x) (fetchWord_fault (s := s.issuing x) walked fault)

/-- Settles O14: each instruction has its effect in every strand by `completes_trapping`, or the trap of a bad loop or of an empty stack in
every strand. -/
theorem loopsAndJoins : Obligations.LoopsAndJoins := by
  refine fun s => ⟨fun len c => ?_, fun clear => ⟨fun active => ?_, fun outside => ?_⟩, fun clear => ?_, fun empty => ?_⟩
  · intro x last clear
    refine ⟨fun inside => completes_trapping (.loop len (.s c)) x
      (fun a => if loopBad a.st len.val then some (wordTrap a.st cLoop (wordOf (.loop len (.s c)))) else none)
      (fun st => if (st.src (.s c) 0).toNat = 0 then st.inline (loopEnd st len.val) st.loops
        else { st.done with pc := st.next, loops := ⟨st.next, loopEnd st len.val, (st.src (.s c) 0).toNat⟩ :: st.loops }) clear
      (fun k here => ?_), fun deep => traps_of_clear clear rfl fun k here => ?_⟩
    · obtain ⟨room, ends⟩ := inside k here
      exact if_neg (by simp [loopBad_eq_false room ends])
    · exact if_pos (loopBad_of_deep (deep k here))
  · refine (completes_trapping .lbrk {} (fun a => if a.st.loops.isEmpty then some (wordTrap a.st cLoop (wordOf .lbrk)) else none)
      (fun st => match st.loops with | [] => st.seq | l :: r => st.inline l.fin r) clear (fun k here => ?_)).congr (fun k here => ?_)
    · simp [active k here]
    · cases h : (s.reading {} k).loops with
      | nil => exact absurd h (active k here)
      | cons l r => rfl
  · exact traps_of_clear clear rfl fun k here => by simp [outside k here]
  · exact completes_plain .join _ joinStrand clear
  · exact traps_of_checked empty (by decide)
end

section
/-! WCONV, where the weave meets, and EXIT, where threads and crews end (R31, R36, R40, R171, R187). -/

namespace Sys2Proof.Machine

theorem nodup_keys (c : Crew) : c.keys.Nodup := by
  rw [Crew.keys, List.nodup_flatMap]
  refine ⟨fun w _ => List.nodup_range.map fun x y h => by simpa [strandKey] using h, List.nodup_range.imp fun {w v} ne k => ?_⟩
  simp only [List.mem_map, List.mem_range, strandKey]
  rintro ⟨x, _, rfl⟩ ⟨y, _, same⟩
  omega

theorem nodup_weaveLive (c : Crew) (w : Nat) : (c.weaveLive w).Nodup := (nodup_keys c).filter _

/-! EXIT (R31, R40, R187). -/

/-- Strand k after its EXIT. -/
def exited (st : Strand) : Strand := if (st.endThreads st.umask).live = 0 then (st.endThreads st.umask).done else (st.endThreads st.umask).seq

theorem seq_live (st : Strand) : st.seq.live = st.live := by
  rw [Strand.seq, Strand.inline]
  dsimp only
  split <;> rfl

theorem exited_live (st : Strand) : (exited st).live = st.live &&& ~~~st.umask := by
  rw [exited]
  split
  · rfl
  · exact seq_live _

theorem lastExit_iff (s : State) : lastExit s s.cur.crew s.cur.strands = true ↔
    ∀ j ∈ (s.crew s.cur.crew).keys, (s.strand s.cur.crew j).live = 0 ∨ (j ∈ s.cur.strands ∧
      (s.strand s.cur.crew j).live &&& ~~~(s.strand s.cur.crew j).umask = 0) := by
  simp [lastExit, State.strand]

theorem crewDrained_iff (s : State) (u : Nat) : crewDrained s u = true ↔
    (∀ j ∈ (s.crew u).keys, (s.strand u j).unacked ≤ s.waitingFailures u j) ∧ ∀ o ∈ s.ops, o.2.crew = u → o.2.kind = .none := by
  simp [crewDrained, drained]

/-- What EXIT does where it takes effect. -/
def exitAct (s : State) (u : Nat) (ks : List Nat) : State := (onStrand {} (fun a => exited a.st) s u ks).checkRetire u

/-- EXIT that neither traps nor waits takes its effect in every strand. -/
theorem exit_acts {s : State} (clear : s.clear {}) (issues : s.cur.strands ≠ [])
    (free : lastExit s s.cur.crew s.cur.strands = false ∨ crewDrained s s.cur.crew = true ∧ s.crewRecord s.cur.crew = none) :
    exec .exit s = .next (exitAct s s.cur.crew s.cur.strands) := by
  have run := runInstr_clear .exit
    { hold := fun a => if lastExit a.s a.u a.s.cur.strands && !crewDrained a.s a.u then some .exitWait else none
      trap := fun a =>
        if lastExit a.s a.u a.s.cur.strands && crewDrained a.s a.u && decide (a.k = a.s.cur.strands.getLastD 0) then
          (a.s.crewRecord a.u).map (fun r => valueTrap a.st cStoreFault r.va)
        else none
      act := exitAct } s issues (fun k here => (clear_trapOf clear rfl _ here).trans ?_) (fun k here => (clear_waitOf clear rfl here).trans ?_)
  · exact congrArg Host.Outcome.next run
  · rcases free with h | ⟨_, h⟩ <;> simp [h]
  · rcases free with h | ⟨h, _⟩ <;> simp [h]

/-- The strands and the machine after the effect of EXIT, but for the mark on the crew. -/
theorem exit_strands {s : State} (clear : s.clear {}) : let t := onStrand {} (fun a => exited a.st) s s.cur.crew s.cur.strands
    (∀ k ∈ s.cur.strands, t.strand s.cur.crew k = exited (s.strand s.cur.crew k)) ∧ s.othersKept t ∧
      { t with crews := [] } = { s with crews := [] } := by
  obtain ⟨own, others, rest, machine⟩ := onStrand_spec {} (fun a => exited a.st) s s.cur.crew s.cur.strands
    (fun k => exited (s.strand s.cur.crew k)) clear.1 (fun k here => (clear.2 k here).2.2) (fun _ _ _ _ _ => rfl)
  exact ⟨own, ⟨others, rest⟩, machine⟩

theorem checkRetire_of_live {s : State} {u k : Nat} (key : k ∈ (s.crew u).keys) (alive : (s.strand u k).live ≠ 0) : s.checkRetire u = s :=
  if_neg fun all => alive (of_decide_eq_true (List.all_eq_true.1 all k key))

theorem checkRetire_of_ended {s : State} {u : Nat} (ended : ∀ k ∈ (s.crew u).keys, (s.strand u k).live = 0) :
    s.checkRetire u = s.setCrew u { s.crew u with retiring := true } :=
  if_pos (List.all_eq_true.2 fun k key => decide_eq_true (ended k key))

/-- Crews that differ in their strands alone have the same strand numbers. -/
theorem keys_of_rest {c d : Crew} (h : { d with strand := [] } = { c with strand := [] }) : d.keys = c.keys :=
  (congrArg Crew.keys h :)

/-- The EXIT of the sub-gang ends its threads of strand k. -/
def State.exitEnds (s : State) (k : Nat) : Prop := (s.strand s.cur.crew k).live &&& ~~~(s.strand s.cur.crew k).umask = 0

/-- EXIT leaves no live strand in the crew (R40). -/
def State.exitIsLast (s : State) : Prop :=
  ∀ j ∈ (s.crew s.cur.crew).keys, (s.strand s.cur.crew j).live = 0 ∨ (j ∈ s.cur.strands ∧ s.exitEnds j)

/-- EXIT while another strand of the crew lives, or threads of its own (R31, R187). -/
theorem exit_leavesLive {s : State} (clear : s.clear {}) (more : ¬s.exitIsLast) :
    Completes s (exec .exit s) (fun k => exited (s.strand s.cur.crew k)) := by
  by_cases none : s.cur.strands = []
  · exact ⟨s, congrArg Host.Outcome.next (runInstr_empty _ _ s none), by simp [none], ⟨fun _ _ _ => rfl, fun _ => rfl⟩, rfl⟩
  have acts := exit_acts clear none (.inl (Bool.eq_false_iff.2 (mt (lastExit_iff s).1 more)))
  obtain ⟨own, kept, machine⟩ := exit_strands clear
  simp only [State.exitIsLast, not_forall] at more
  obtain ⟨j, key, alive⟩ := more
  obtain ⟨alive, goesOn⟩ := not_or.1 alive
  have stays := checkRetire_of_live (k := j) (keys_of_rest (kept.2 s.cur.crew) ▸ key) (by
    by_cases here : j ∈ s.cur.strands
    · rw [own j here, exited_live]
      exact fun h => goesOn ⟨here, h⟩
    · rwa [kept.1 _ j fun h => here h.2])
  exact ⟨_, acts, by rw [exitAct, stays]; exact ⟨own, kept, machine⟩⟩

/-- The last EXIT of a drained crew without a record retires the crew (R40). -/
theorem exit_retires {s : State} (clear : s.clear {}) (last : s.exitIsLast) (done : crewDrained s s.cur.crew = true)
    (record : s.crewRecord s.cur.crew = none) (issues : s.cur.strands ≠ []) (inside : ∀ k ∈ s.cur.strands, k ∈ (s.crew s.cur.crew).keys) :
    ∃ t, exec .exit s = .next t ∧ (t.crew s.cur.crew).retiring = true ∧ (∀ k ∈ (s.crew s.cur.crew).keys, (t.strand s.cur.crew k).live = 0) ∧
      (∀ k ∈ s.cur.strands, t.strand s.cur.crew k = ((s.strand s.cur.crew k).endThreads (s.strand s.cur.crew k).umask).done) ∧
      (∀ v k, ¬(v = s.cur.crew ∧ k ∈ s.cur.strands) → t.strand v k = s.strand v k) ∧ (∀ v, v ≠ s.cur.crew → t.crew v = s.crew v) ∧
      { t with crews := [] } = { s with crews := [] } := by
  have acts := exit_acts clear issues (.inr ⟨done, record⟩)
  obtain ⟨own, kept, machine⟩ := exit_strands clear
  have others (v : Nat) (h : v ≠ s.cur.crew) := crew_onStrand_other {} (fun a => exited a.st) s.cur.crew h s.cur.strands s
  rw [exitAct] at acts
  generalize onStrand {} (fun a => exited a.st) s s.cur.crew s.cur.strands = t at own kept machine others acts
  have ends (k : Nat) (here : k ∈ s.cur.strands) : s.exitEnds k := by
    rcases last k (inside k here) with gone | ⟨_, gone⟩
    · rw [State.exitEnds, gone]
      exact BitVec.zero_and
    · exact gone
  have ended (k : Nat) (key : k ∈ (s.crew s.cur.crew).keys) : (t.strand s.cur.crew k).live = 0 := by
    by_cases here : k ∈ s.cur.strands
    · rw [own k here, exited_live]
      exact ends k here
    · rw [kept.1 _ k fun h => here h.2]
      exact (last k key).resolve_right fun h => here h.1
  rw [checkRetire_of_ended fun k key => ended k (keys_of_rest (kept.2 s.cur.crew) ▸ key)] at acts
  have same (v k : Nat) : (t.setCrew s.cur.crew { t.crew s.cur.crew with retiring := true }).strand v k = t.strand v k := by
    rw [State.strand_setCrew]
    split
    · subst v; rfl
    · rfl
  refine ⟨_, acts, by simp, fun k key => (congrArg _ (same ..)).trans (ended k key), fun k here => ?_, fun v k other => (same ..).trans (kept.1 v k other),
    fun v other => ?_, machine⟩
  · rw [same, own k here, exited]
    exact if_pos (ends k here)
  · rw [State.crew_setCrew, if_neg other, others v other]

/-- The crew's last EXIT waits for the writes and operations of the crew (R40). -/
theorem exit_waits {s : State} (clear : s.clear {}) (last : s.exitIsLast) (busy : crewDrained s s.cur.crew = false) :
    Waits s (exec .exit s) (fun _ => .exitWait) := by
  refine waits_of_hold clear rfl (fun _ _ _ => rfl) (fun k _ => ?_) (fun k _ => ?_)
  · exact if_neg (by simp [busy])
  · exact if_pos (by simp [busy, (lastExit_iff s).2 last])

/-- The last EXIT of a drained crew with a record raises STORE_FAULT (R305). -/
theorem exit_storeFault {s : State} (clear : s.clear {}) (last : s.exitIsLast) (done : crewDrained s s.cur.crew = true) {r : SfRecord} {k : Nat}
    (record : s.crewRecord s.cur.crew = some r) (alone : s.cur.strands = [k]) :
    Traps s (exec .exit s) (fun k => valueTrap (s.strand s.cur.crew k) cStoreFault r.va) := by
  refine traps_of_clear clear rfl fun j here => ?_
  have own : j = s.cur.strands.getLast?.getD 0 := by simpa [alone] using here
  exact (if_pos (by simpa [done, (lastExit_iff s).2 last] using own)).trans (by rw [record]; rfl)

/-! WCONV (R36, R171). -/

/-- The live strands of the weave that issues. -/
def State.wconvAll (s : State) : List Nat := (s.crew s.cur.crew).weaveLive s.cur.weave
/-- Every live strand of the weave is in the sub-gang. -/
def State.wconvAlone (s : State) : Prop := ∀ k ∈ s.wconvAll, k ∈ s.cur.strands
/-- Every strand of the weave outside the sub-gang waits at WCONV. -/
def State.wconvArrived (s : State) : Prop := ∀ k ∈ s.wconvAll, k ∉ s.cur.strands → (s.strand s.cur.crew k).wait = .wconv
/-- Every live strand of the weave has the gang key of the sub-gang. -/
def State.wconvKeys (s : State) : Prop :=
  ∀ k ∈ s.wconvAll, (s.strand s.cur.crew k).key = (s.strand s.cur.crew (s.cur.strands.headD 0)).key

/-- WCONV by the three questions that it asks. -/
theorem execWconv_eq (s : State) [Decidable s.wconvAlone] [Decidable s.wconvArrived] [Decidable s.wconvKeys] : execWconv s =
    if s.wconvAlone then runNext .wconv (strandOp {} (fun a => a.st)) s
    else if s.wconvArrived then
      if s.wconvKeys then .next (onStrand {} (fun a => a.st.latchKill.seq) s s.cur.crew s.wconvAll)
      else .next (s.takeTraps s.cur.crew (s.wconvAll.map (fun k => (k, wordTrap (s.strand s.cur.crew k) cConv (wordOf .wconv)))))
    else .next (s.cur.strands.foldl (fun x k => x.setStrand s.cur.crew k { x.strand s.cur.crew k with wait := .wconv }) s) := by
  have alone : (s.wconvAll.filter (fun k => !s.cur.strands.contains k)).isEmpty = true ↔ s.wconvAlone := by
    simp [State.wconvAlone]
  have arrived : (s.wconvAll.filter (fun k => !s.cur.strands.contains k)).all (fun k => decide (((s.crew s.cur.crew).st k).wait = .wconv)) = true ↔
      s.wconvArrived := by
    simp [State.wconvArrived, State.strand, or_iff_not_imp_left]
  have keys : s.wconvAll.all (fun k => decide (((s.crew s.cur.crew).st k).key = ((s.crew s.cur.crew).st (s.cur.strands.headD 0)).key)) = true ↔
      s.wconvKeys := by
    simp [State.wconvKeys, State.strand]
  simp only [← alone, ← arrived, ← keys]
  rfl

/-- A weave that is one sub-gang passes WCONV. -/
theorem wconv_passes {s : State} (clear : s.clear {}) (alone : s.wconvAlone) :
    Completes s (exec .wconv s) (fun k => (s.strand s.cur.crew k).seq) := by
  classical
  rw [exec_wconv, execWconv_eq, if_pos alone]
  exact completes_plain .wconv {} Strand.seq clear

/-- The last sub-gang to arrive with equal keys takes every live strand of the weave on (R36). -/
theorem wconv_regangs {s : State} (apart : ¬s.wconvAlone) (arrived : s.wconvArrived) (keys : s.wconvKeys) :
    ∃ t, exec .wconv s = .next t ∧ (∀ k ∈ s.wconvAll, t.strand s.cur.crew k = (s.strand s.cur.crew k).latchKill.seq) ∧
      (∀ v k, ¬(v = s.cur.crew ∧ k ∈ s.wconvAll) → t.strand v k = s.strand v k) ∧ Same s t := by
  classical
  rw [exec_wconv, execWconv_eq, if_neg apart, if_pos arrived, if_pos keys]
  exact ⟨_, rfl, onStrand_spec {} (fun a => a.st.latchKill.seq) s s.cur.crew s.wconvAll _ (nodup_weaveLive ..) (fun _ _ => rfl)
    (fun _ _ _ _ _ => rfl)⟩

/-- With unequal keys every live strand of the weave traps (R36). -/
theorem wconv_traps {s : State} (apart : ¬s.wconvAlone) (arrived : s.wconvArrived) (differ : ¬s.wconvKeys) :
    exec .wconv s = .next (s.takeTraps s.cur.crew (s.wconvAll.map (fun k => (k, wordTrap (s.strand s.cur.crew k) cConv (wordOf .wconv))))) := by
  classical
  rw [exec_wconv, execWconv_eq, if_neg apart, if_pos arrived, if_neg differ]

/-- A sub-gang that is not the last to arrive waits. -/
theorem wconv_waits {s : State} (early : ¬s.wconvArrived) (nd : s.cur.strands.Nodup) : Waits s (exec .wconv s) (fun _ => .wconv) := by
  classical
  have apart : ¬s.wconvAlone := fun alone => early fun k here out => absurd (alone k here) out
  rw [exec_wconv, execWconv_eq, if_neg apart, if_neg early]
  obtain ⟨own, others, rest, machine⟩ := foldl_setWait s.cur.crew (fun _ => .wconv) nd (s := s)
  exact ⟨_, rfl, own, ⟨others, rest⟩, machine⟩

end Sys2Proof.Machine

open Sys2Proof Sys2Proof.Machine

/-- Settles O16: WCONV by `execWconv_eq`, which asks whether the weave is one sub-gang, whether the others have arrived and whether the keys
agree; EXIT by whether it is the crew's last and whether the crew is drained. -/
theorem wconvAndExit : Obligations.WconvAndExit := by
  refine ⟨fun s => ?_, fun s clear => ?_⟩
  · intro u all key arrived alone
    exact ⟨fun one clear => wconv_passes clear one, fun apart there same => wconv_regangs apart there same,
      fun apart there ⟨k, here, differ⟩ => wconv_traps apart there fun same => differ (same k here), wconv_waits⟩
  · intro u c ends last drained
    have drainedIs : crewDrained s u = true ↔ drained := crewDrained_iff s u
    refine ⟨fun more => ?_, fun finish done record issues inside => exit_retires clear finish (drainedIs.2 done) record issues inside,
      fun finish busy => exit_waits clear finish (Bool.eq_false_iff.2 (mt drainedIs.1 busy)),
      fun finish done r k record alone => exit_storeFault clear finish (drainedIs.2 done) record alone⟩
    obtain ⟨t, next, own, kept, machine⟩ := exit_leavesLive clear more
    exact ⟨t, next, fun k here => ⟨rfl, own k here⟩, kept, machine⟩
end

section
/-! What taking a trap saves and changes (R34, R180, R299, R301, R302). -/

namespace Sys2Proof.Machine

/-- The latches of strands in a crew become invalid, but of strand k. -/
theorem st_foldl_latchKill (k j : Nat) : ∀ (l : List Nat) (c : Crew),
    (l.foldl (fun (x : Crew) j => if j = k then x else x.setSt j (x.st j).latchKill) c).st j =
      if j ∈ l ∧ j ≠ k then (c.st j).latchKill else c.st j
  | [], c => by simp
  | i :: l, c => by
    rw [List.foldl_cons, st_foldl_latchKill k j l]
    by_cases own : i = k
    · by_cases here : j = k <;> simp [own, here]
    · by_cases here : j = i
      · subst here
        by_cases again : j ∈ l <;> simp [own, again, Strand.latchKill]
      · simp [own, here]

/-- The strands of a crew after strand k has left its sub-gang (R34, R51). -/
theorem st_leaveGang (c : Crew) (k : Nat) {j : Nat} (other : j ≠ k) :
    (c.leaveGang k).st j = if j ∈ c.gangOf k then (c.st j).latchKill else c.st j := by
  simp [Crew.leaveGang, other, st_foldl_latchKill]

theorem sreg_entered (st : Strand) (t : Trap) (k fr m : Nat) (tvec : Word64) : (st.entered t k fr tvec).sreg m =
    if m = 31 then BitVec.ofNat 64 fr else if 28 ≤ m ∧ m < 31 then 0 else st.sreg m := by
  have e : (st.entered t k fr tvec).sreg m = ((((st.setS 28 0).setS 29 0).setS 30 0).setS 31 (BitVec.ofNat 64 fr)).sreg m := rfl
  simp only [e, Strand.sreg_setS]
  by_cases zero : m = 0
  · subst zero; simp [Strand.sreg]
  · simp only [zero, if_false]
    grind

theorem isFut_setS (st : Strand) (n m : Nat) (x : Word64) (low : m < 32) : (st.setS n x).isFut m = (decide (m ≠ n) && st.isFut m) := by
  by_cases zero : n = 0
  · subst zero
    by_cases h : m = 0 <;> simp [Strand.isFut, Strand.setS, h]
  · by_cases same : m = n
    · subst same
      simp [Strand.isFut, Strand.setS, zero, tbit, low]
    · have off : (decide (m < n) || !decide (m - n = 0)) = true := by simp; omega
      simp [Strand.isFut, Strand.setS, zero, tbit, low, same, off]

theorem isFut_entered (st : Strand) (t : Trap) (k fr : Nat) (tvec : Word64) {m : Nat} (low : m < 32) :
    (st.entered t k fr tvec).isFut m = (decide (m < 28) && st.isFut m) := by
  have e : (st.entered t k fr tvec).isFut m = ((((st.setS 28 0).setS 29 0).setS 30 0).setS 31 (BitVec.ofNat 64 fr)).isFut m := rfl
  rw [e, isFut_setS _ _ _ _ low, isFut_setS _ _ _ _ low, isFut_setS _ _ _ _ low, isFut_setS _ _ _ _ low, Bool.eq_iff_iff]
  simp only [Bool.and_eq_true, decide_eq_true_eq]
  constructor
  · rintro ⟨a, b, c, d, e⟩
    exact ⟨by omega, e⟩
  · rintro ⟨a, b⟩
    exact ⟨by omega, by omega, by omega, by omega, b⟩

/-- What the entry to the handler leaves as it was (R301). -/
theorem entered_keeps (st : Strand) (t : Trap) (k fr : Nat) (tvec : Word64) : let n := st.entered t k fr tvec
    n.v = st.v ∧ n.o = st.o ∧ n.p = st.p ∧ n.flags = st.flags ∧ n.sto = st.sto ∧ n.stack = st.stack ∧ n.loops = st.loops ∧ n.live = st.live := by
  simp [Strand.entered, Strand.setS]

theorem length_frameBytes (st : Strand) : (frameBytes st).length = 48 := by simp [frameBytes]

/-- A trap at level 0 whose frame can be written now (R301). -/
theorem takeTrap_enters {s : State} {u k pa : Nat} {t : Trap} (user : (s.strand u k).handler = false)
    (ok : s.xlateSave u (frameAddr (s.crew u) k) permW = .ok pa) (free : s.rangeFree pa 48 = true) :
    s.takeTrap u k t = (s.wrEngine pa (frameBytes (s.strand u k))).setCrew u (((s.crew u).leaveGang k).setSt k
      ((s.strand u k).entered t k (frameAddr (s.crew u) k) (s.core (s.crew u).core).tvec)) := by
  have user' : ((s.crew u).st k).handler = false := user
  simp only [State.takeTrap, user', ok, free, Bool.false_eq_true, if_false, if_true]
  rfl

theorem strand_wrEngine (s : State) (pa : Nat) (l : List Byte) (v j : Nat) : (s.wrEngine pa l).strand v j = s.strand v j :=
  wrEngine_field s pa l (·.strand v j) fun _ => rfl

end Sys2Proof.Machine

open Sys2Proof Sys2Proof.Machine

/-- Settles O20: the trap is `takeTrap_enters`, the handler's registers `sreg_entered` and `isFut_entered`, the rest of the sub-gang
`st_leaveGang`; BRK and TRAP are `traps_of_clear`. -/
theorem trapsTaken : Obligations.TrapsTaken := by
  refine ⟨fun s u k t pa user ok free => ?_, fun s c clear => ⟨traps_of_clear clear rfl fun _ _ => rfl, traps_of_clear clear rfl fun _ _ => rfl⟩⟩
  intro st r n
  have entered : n = st.entered t k (frameAddr (s.crew u) k) (s.core (s.crew u).core).tvec := by
    simp only [n, r, takeTrap_enters user ok free, State.strand_setCrew, Crew.st_setSt, if_true, st]
  have memory (a : Nat) : mget r.mem a = mget (s.wrEngine pa (frameBytes st)).mem a := by
    simp only [r, takeTrap_enters user ok free, State.setCrew_mem, st]
  have others (v j : Nat) (other : ¬(v = u ∧ j = k)) :
      r.strand v j = if v = u ∧ j ∈ (s.crew u).gangOf k then (s.strand v j).latchKill else s.strand v j := by
    simp only [r, takeTrap_enters user ok free, State.strand_setCrew, Crew.st_setSt, strand_wrEngine]
    by_cases here : v = u
    · subst here
      have ne : j ≠ k := fun h => other ⟨rfl, h⟩
      simp only [ne, if_false, if_true, true_and, st_leaveGang _ _ ne]
      rfl
    · simp [here]
  clear_value n r
  subst entered
  obtain ⟨v, o, p, flags, sto, stack, loops, live⟩ := entered_keeps st t k (frameAddr (s.crew u) k) (s.core (s.crew u).core).tvec
  refine ⟨rfl, rfl, rfl, rfl, rfl, rfl, rfl, rfl, rfl, sreg_entered .., sreg_entered .., sreg_entered .., sreg_entered .., fun m low high => ?_,
    fun m low => ⟨?_, ?_⟩, v, o, p, flags, sto, stack, loops, live, rfl, fun i inside => ?_, fun a outside => ?_, fun j gang other => ?_,
    fun v j other => ?_⟩
  · simp [isFut_entered _ _ _ _ _ high, show ¬ m < 28 by omega]
  · rw [sreg_entered, if_neg (by omega), if_neg (by omega)]
  · simp [isFut_entered _ _ _ _ _ (show m < 32 by omega), low]
  · have inside' : i < (frameBytes st).length := by rwa [length_frameBytes]
    rw [memory, mget_wrEngine, dif_pos (by omega), List.getD_eq_getElem _ _ inside']
    simp
  · rw [memory, mget_wrEngine, dif_neg (by rw [length_frameBytes]; omega)]
  · rw [others u j (by simp [other]), if_pos ⟨rfl, gang⟩]
  · have apart : ¬(v = u ∧ j = k) := fun h => other ⟨h.1, .inl h.2⟩
    rw [others v j apart, if_neg fun h => other ⟨h.1, .inr h.2⟩]
end

section
/-! The activation buffer: how it serves the strands of a sub-gang one after the other, and what LDA, STA and ATOMA do (R97..R99, R236..R238). -/

namespace Sys2Proof.Machine

/-! The accesses of the strands of a sub-gang, one after the other (R97..R99, R237). -/

/-- The cycle up to which the buffer is taken when it has served the strands `ks` of the sub-gang. -/
def State.bufferTaken (s : State) (x : Use) (n : Nat) (addr : Strand → Nat → Word64) (ks : List Nat) : Nat :=
  if s.bufferSum x n addr ks = 0 then (s.core (s.crew s.cur.crew).core).abFree else s.bufferFrom + s.bufferSum x n addr ks

/-- A crew apart from its strands. -/
def Crew.body (c : Crew) : Crew := { c with strand := [] }

/-- A crew apart from the bytes of its buffer. -/
def Crew.beyondBuffer (c : Crew) : Crew := { c with abuf := [] }

theorem st_of_beyondBuffer {c d : Crew} (same : c.beyondBuffer = d.beyondBuffer) (k : Nat) : c.st k = d.st k :=
  (congrArg (fun c : Crew => c.st k) same :)

/-- The machine apart from its crews and cores. -/
def State.beyondCores (s : State) : State := { s with crews := [], cores := [] }

/-- State t is s after the buffer has served the strands `done` of the sub-gang, the crew otherwise `c`. -/
structure Served (s : State) (x : Use) (n : Nat) (addr : Strand → Nat → Word64) (done : List Nat) (c : Crew) (t : State) : Prop where
  strands : ∀ v k, ¬(v = s.cur.crew ∧ k ∈ done) → t.strand v k = s.strand v k
  crew : (t.crew s.cur.crew).body = c.body
  size : (t.crew s.cur.crew).body.beyondBuffer = (s.crew s.cur.crew).body.beyondBuffer
  crews : ∀ v, v ≠ s.cur.crew → t.crew v = s.crew v
  cores : ∀ m, m ≠ (s.crew s.cur.crew).core → t.core m = s.core m
  core : t.core (s.crew s.cur.crew).core = { s.core (s.crew s.cur.crew).core with abFree := s.bufferTaken x n addr done }
  machine : t.beyondCores = s.beyondCores

theorem core_useAb (t : State) (core cost m : Nat) : (t.useAb core cost).core m =
    if m = core ∧ cost ≠ 0 then { t.core core with abFree := t.abDone core cost } else t.core m := by
  unfold State.useAb
  by_cases idle : cost = 0
  · simp [idle]
  · by_cases here : m = core <;> simp [idle, here]

theorem crews_useAb (t : State) (core cost : Nat) : (t.useAb core cost).crews = t.crews := by
  unfold State.useAb
  split <;> rfl

theorem beyondCores_setCrew (t : State) (u : Nat) (c : Crew) : (t.setCrew u c).beyondCores = t.beyondCores := rfl

theorem beyondCores_useAb (t : State) (core cost : Nat) : (t.useAb core cost).beyondCores = t.beyondCores := by
  unfold State.useAb
  split <;> rfl

section
variable {s t : State} {x : Use} {n : Nat} {addr : Strand → Nat → Word64} {done : List Nat} {c : Crew}

theorem bufferSum_append (done : List Nat) (k : Nat) : s.bufferSum x n addr (done ++ [k]) =
    s.bufferSum x n addr done + bufferCost (s.at x k) n (addr (s.reading x k)) := by
  simp [State.bufferSum]

theorem bufferSum_single (k : Nat) : s.bufferSum x n addr [k] = bufferCost (s.at x k) n (addr (s.reading x k)) := by
  simp [State.bufferSum]

theorem Served.refl (s : State) (x : Use) (n : Nat) (addr : Strand → Nat → Word64) : Served s x n addr [] (s.crew s.cur.crew) s where
  strands _ _ _ := rfl
  crew := rfl
  size := rfl
  crews _ _ := rfl
  cores _ _ := rfl
  core := rfl
  machine := rfl

theorem Served.clock (h : Served s x n addr done c t) : t.clock = s.clock := (congrArg State.clock h.machine :)
theorem Served.period (h : Served s x n addr done c t) : t.period = s.period := (congrArg State.period h.machine :)
theorem Served.results (h : Served s x n addr done c t) : t.results = s.results := (congrArg State.results h.machine :)

/-- The cycle at which the buffer has served the next strand (R99). -/
theorem Served.abDone (h : Served s x n addr done c t) (cost : Nat) : t.abDone (s.crew s.cur.crew).core cost =
    if cost = 0 then s.clock else s.bufferFrom + s.bufferSum x n addr done + cost := by
  have from_ : s.clock ≤ s.bufferFrom := Nat.le_max_left ..
  rw [State.abDone, h.clock, h.core]
  dsimp only
  rw [State.bufferTaken]
  by_cases idle : cost = 0
  · rw [if_pos idle, if_pos idle]
  · rw [if_neg idle, if_neg idle]
    by_cases first : s.bufferSum x n addr done = 0
    · rw [if_pos first, first]
      rfl
    · rw [if_neg first]
      omega

/-- The buffer serves one strand more, which leaves the strand as `f` and the crew otherwise as `d`. -/
theorem Served.step (h : Served s x n addr done c t) (k : Nat) {d e : Crew} (f : Strand) (same : e.beyondBuffer = (t.crew s.cur.crew).beyondBuffer)
    (rest : e.body = d.body) :
    Served s x n addr (done ++ [k]) d
      ((t.useAb (s.crew s.cur.crew).core (bufferCost (s.at x k) n (addr (s.reading x k)))).setCrew s.cur.crew (e.setSt k f)) where
  strands v j other := by
    rw [State.strand_setCrew]
    split
    · subst v
      have apart : j ∉ done ∧ j ≠ k := by simpa using other
      rw [Crew.st_setSt, if_neg apart.2, st_of_beyondBuffer same]
      exact h.strands _ _ fun p => apart.1 p.2
    · rw [State.strand, State.crew, crews_useAb]
      exact h.strands v j fun p => ‹v ≠ _› p.1
  crew := by
    rw [State.crew_setCrew, if_pos rfl]
    exact rest
  size := by
    rw [State.crew_setCrew, if_pos rfl]
    exact (congrArg Crew.body same :).trans h.size
  crews v other := by
    rw [State.crew_setCrew, if_neg other, State.crew, crews_useAb]
    exact h.crews v other
  cores m other := by
    rw [State.core_setCrew, core_useAb, if_neg fun p => other p.1]
    exact h.cores m other
  core := by
    rw [State.core_setCrew, core_useAb, h.abDone, h.core, State.bufferTaken, State.bufferTaken, bufferSum_append]
    generalize bufferCost (s.at x k) n (addr (s.reading x k)) = cost
    by_cases idle : cost = 0
    · simp [idle]
    · simp [idle, Nat.add_assoc]
  machine := by
    rw [beyondCores_setCrew, beyondCores_useAb]
    exact h.machine

/-- The place at which the next strand acts. -/
theorem Served.site (h : Served s x n addr done c t) (clear : s.clear x) {k : Nat} (here : k ∈ s.cur.strands) (next : k ∉ done) :
    t.site s.cur.crew k x.reads = some ⟨t, s.cur.crew, k, t.crew s.cur.crew, s.reading x k⟩ := by
  have own : t.strand s.cur.crew k = s.strand s.cur.crew k := h.strands _ _ fun p => next p.2
  have resolved := (clear.2 k here).2.2
  rw [site_some (by rwa [own, deliver_congr h.results]), own, deliver_congr h.results]
  rfl

/-- A strand of the sub-gang after those before it. -/
theorem next_strand {k : Nat} {rest : List Nat} (clear : s.clear x) (all : s.cur.strands = done ++ k :: rest) : k ∈ s.cur.strands ∧ k ∉ done :=
  ⟨all ▸ List.mem_append_right _ List.mem_cons_self,
    fun old => (List.nodup_append.1 (all ▸ clear.1)).2.2 k old k List.mem_cons_self rfl⟩

/-- What an effect on the buffer is where each strand in turn leaves itself as `g` and the crew as `next` says. -/
theorem served_eachStrand (f : Site → State) (next : Crew → Nat → Crew) (g : Nat → Strand) (clear : s.clear x)
    (acts : ∀ done k rest t, s.cur.strands = done ++ k :: rest → Served s x n addr done (done.foldl next (s.crew s.cur.crew)) t →
      ∃ e : Crew, f ⟨t, s.cur.crew, k, t.crew s.cur.crew, s.reading x k⟩ =
          (t.useAb (s.crew s.cur.crew).core (bufferCost (s.at x k) n (addr (s.reading x k)))).setCrew s.cur.crew (e.setSt k (g k)) ∧
        e.beyondBuffer = (t.crew s.cur.crew).beyondBuffer ∧ e.body = (next (done.foldl next (s.crew s.cur.crew)) k).body) :
    ∀ (rest done : List Nat) (t : State), s.cur.strands = done ++ rest → Served s x n addr done (done.foldl next (s.crew s.cur.crew)) t →
      (∀ k ∈ done, t.strand s.cur.crew k = g k) →
      Served s x n addr s.cur.strands (s.cur.strands.foldl next (s.crew s.cur.crew)) (eachStrand x f t s.cur.crew rest) ∧
        ∀ k ∈ s.cur.strands, (eachStrand x f t s.cur.crew rest).strand s.cur.crew k = g k
  | [], done, t, all, h, own => by
    rw [List.append_nil] at all
    rw [all]
    exact ⟨h, own⟩
  | k :: rest, done, t, all, h, own => by
    obtain ⟨here, new⟩ := next_strand clear all
    obtain ⟨e, eq, same, left⟩ := acts done k rest t all h
    have step := h.step k (g k) same left
    have one : eachStrand x f t s.cur.crew (k :: rest) = eachStrand x f (f ⟨t, s.cur.crew, k, t.crew s.cur.crew, s.reading x k⟩) s.cur.crew rest := by
      simp only [eachStrand, List.foldl_cons, h.site clear here new]
    rw [one, eq]
    refine served_eachStrand f next g clear acts rest (done ++ [k]) _ (by simp [all]) (by simpa using step) fun j old => ?_
    rw [State.strand_setCrew, if_pos rfl, Crew.st_setSt]
    by_cases last : j = k
    · rw [if_pos last, last]
    · rw [if_neg last, st_of_beyondBuffer same]
      exact own j ((List.mem_append.1 old).resolve_right (by simpa using last))

theorem Served.bufferDone {g : Nat → Strand} (h : Served s x n addr s.cur.strands c t) (own : ∀ k ∈ s.cur.strands, t.strand s.cur.crew k = g k) :
    BufferDone s x n addr (.next t) c g :=
  ⟨t, rfl, own, h.strands, h.crew, h.crews, h.cores, h.core, h.machine⟩

/-- An instruction on the buffer, given what it does in each strand after those before it. -/
theorem bufferDone_eachStrand (f : Site → State) (next : Crew → Nat → Crew) (g : Nat → Strand) (clear : s.clear x)
    (acts : ∀ done k rest t, s.cur.strands = done ++ k :: rest → Served s x n addr done (done.foldl next (s.crew s.cur.crew)) t →
      ∃ e : Crew, f ⟨t, s.cur.crew, k, t.crew s.cur.crew, s.reading x k⟩ =
          (t.useAb (s.crew s.cur.crew).core (bufferCost (s.at x k) n (addr (s.reading x k)))).setCrew s.cur.crew (e.setSt k (g k)) ∧
        e.beyondBuffer = (t.crew s.cur.crew).beyondBuffer ∧ e.body = (next (done.foldl next (s.crew s.cur.crew)) k).body) :
    BufferDone s x n addr (.next (eachStrand x f s s.cur.crew s.cur.strands)) (s.cur.strands.foldl next (s.crew s.cur.crew)) g := by
  obtain ⟨served, own⟩ := served_eachStrand f next g clear acts s.cur.strands [] s rfl (.refl ..) (by simp)
  exact served.bufferDone own

/-- An instruction on the buffer in a sub-gang of one strand. -/
theorem bufferDone_alone (f : Site → State) (e : Crew) (g : Nat → Strand) (clear : s.clear x) {k : Nat} (alone : s.cur.strands = [k])
    (same : e.beyondBuffer = (s.crew s.cur.crew).beyondBuffer)
    (acts : f (s.at x k) =
      (s.useAb (s.crew s.cur.crew).core (bufferCost (s.at x k) n (addr (s.reading x k)))).setCrew s.cur.crew (e.setSt k (g k))) :
    BufferDone s x n addr (.next (eachStrand x f s s.cur.crew s.cur.strands)) e g := by
  have start := Served.refl s x n addr
  have served := start.step k (g k) same rfl
  have one : eachStrand x f s s.cur.crew [k] = f (s.at x k) := by
    simp only [eachStrand, List.foldl_cons, List.foldl_nil, start.site clear (by simp [alone] : k ∈ s.cur.strands) List.not_mem_nil]
    rfl
  rw [List.nil_append, ← alone, ← acts] at served
  rw [← one, ← alone] at served
  refine served.bufferDone fun j here => ?_
  obtain rfl : j = k := by simpa [alone] using here
  rw [alone, one, acts, State.strand_setCrew, if_pos rfl, Crew.st_setSt, if_pos rfl]

/-! What a strand's access does (R97, R98, R237). -/

theorem Served.place (h : Served s x n addr done c t) : (t.crew s.cur.crew).core = (s.crew s.cur.crew).core := (congrArg Crew.core h.size :)
theorem Served.view (h : Served s x n addr done c t) : (t.crew s.cur.crew).view = (s.crew s.cur.crew).view := (congrArg Crew.view h.size :)

theorem maskOf_threadsOf (m : Word) : maskOf (fun th => (threadsOf m).contains th) = m := by
  refine BitVec.eq_of_getLsbD_eq fun i low => ?_
  rw [maskOf_bit _ i low, Bool.eq_iff_iff, List.contains_iff_mem, mem_threadsOf]
  exact and_iff_right low

/-- Every active thread's access lies in the view. -/
def Site.inside (a : Site) (n : Nat) (v : Nat → Word64) : Prop := ∀ th < 32, a.st.active.getLsbD th = true → (v th).toNat + n ≤ a.c.view

/-- The accesses of a strand that is ready stay in the view when the buffer has served others before it. -/
theorem Served.inside (h : Served s x n addr done c t) {releases writes : Bool} (ready : s.bufferReady x n addr releases writes) {k : Nat}
    (here : k ∈ s.cur.strands) : (⟨t, s.cur.crew, k, t.crew s.cur.crew, s.reading x k⟩ : Site).inside n (addr (s.reading x k)) :=
  fun th low active => ((ready.2 k here).2.2 th low active).trans_eq h.view.symm

theorem abThreads_inside {a : Site} {v : Nat → Word64} (inside : a.inside n v) : abThreads a n v = threadsOf a.st.active :=
  List.filter_eq_self.2 fun th here => by
    obtain ⟨low, active⟩ := (mem_threadsOf _ _).1 here
    exact decide_eq_true (inside th low active)

theorem abFaults_inside {a : Site} {v : Nat → Word64} (inside : a.inside n v) : (abFaults a n v).mask = 0 := by
  refine BitVec.eq_of_getLsbD_eq fun th low => ?_
  rw [abFaults, faultsOf, maskOf_bit _ th low]
  cases active : tbit a.st.active th with
  | false => simp
  | true => simp [inside th low active]

theorem abEnd_inside {a : Site} {v : Nat → Word64} (inside : a.inside n v) (st : Strand) : abEnd st (abFaults a n v) = st.seq :=
  if_pos (abFaults_inside inside)

/-- Strand k after a read that the buffer serves after those of `done` (R99, R237). -/
theorem Served.afterRead (h : Served s x n addr done c t) {k : Nat} {rest : List Nat} (all : s.cur.strands = done ++ k :: rest) (new : k ∉ done)
    (z : Nat) (codes : List Nat) (st : Strand) : let cost := bufferCost (s.at x k) n (addr (s.reading x k))
    let late := abDelay st codes (t.abDone (s.crew s.cur.crew).core cost) t.clock t.period
    (if abConflict z cost then late.latchKill else late).seq = s.afterBufferRead x z n addr codes k st := by
  have before : s.cur.strands.takeWhile (fun j => decide (j ≠ k)) = done := by
    have each (j : Nat) (old : j ∈ done) : decide (j ≠ k) = true := decide_eq_true (ne_of_mem_of_not_mem old new)
    rw [all, List.takeWhile_append_of_pos each]
    simp
  intro cost late
  have conflict : abConflict z cost = true ↔ (if z = 4 then 2 else 1) < cost := by
    unfold abConflict
    split <;> simp
  have delayed : late = if cost ≠ 0 ∧ s.clock + 8 < s.bufferFrom + s.bufferSum x n addr done + cost then
      st.delay codes (s.period + 1 + (s.bufferFrom + s.bufferSum x n addr done + cost - s.clock - 1) / 8) else st := by
    simp only [late, abDelay, h.abDone, h.clock, h.period]
    by_cases idle : cost = 0
    · simp [idle]
    · simp [idle]
  simp only [conflict, delayed, State.afterBufferRead, before, bufferSum_single]
  rfl

/-- Strand k after a read of the buffer that is ready (R99, R231, R237). -/
theorem Served.readStrand (h : Served s x n addr done c t) {releases writes : Bool} (ready : s.bufferReady x n addr releases writes) {k : Nat}
    {rest : List Nat} (all : s.cur.strands = done ++ k :: rest) (z : Nat) (codes : List Nat) (st : Strand) :
    let a : Site := ⟨t, s.cur.crew, k, t.crew s.cur.crew, s.reading x k⟩
    let late := abDelay st codes (t.abDone (s.crew s.cur.crew).core (bufferCost (s.at x k) n (addr (s.reading x k)))) t.clock t.period
    abEnd (if abConflict z (bufferCost (s.at x k) n (addr (s.reading x k))) then late.latchKill else late) (abFaults a n (addr a.st)) =
      s.afterBufferRead x z n addr codes k st := by
  obtain ⟨here, new⟩ := next_strand ready.1 all
  exact (abEnd_inside (h.inside ready here) _).trans (h.afterRead all new z codes st)

end

/-! LDA, STA and ATOMA. -/

/-- An instruction that neither traps nor waits takes its effect in the sub-gang, be it empty or not. -/
theorem runInstr_acts {i : Instr} {m : Meaning} {s : State} (clear : s.clear m.use) (plain : m.posted = false) (idle : m.act s s.cur.crew [] = s)
    (safe : ∀ k ∈ s.cur.strands, m.trap ⟨s, s.cur.crew, k, s.crew s.cur.crew, s.reading m.use k⟩ = none)
    (free : ∀ k ∈ s.cur.strands, m.hold ⟨s, s.cur.crew, k, s.crew s.cur.crew, s.reading m.use k⟩ = none) :
    runInstr i m s = m.act s s.cur.crew s.cur.strands := by
  by_cases empty : s.cur.strands = []
  · rw [runInstr_empty i m s empty, empty, idle]
  · exact runInstr_clear i m s empty (fun k here => (clear_trapOf clear plain i here).trans (safe k here))
      (fun k here => (clear_waitOf clear plain here).trans (free k here))

/-- An instruction on the buffer that is ready takes its effect (R97, R228, R266). -/
theorem runInstr_buffer {i : Instr} {x : Use} {n : Nat} {addr : Strand → Nat → Word64} {releases writes : Bool} {f : Site → State} {s : State}
    (ready : s.bufferReady x n addr releases writes) :
    runInstr i { use := x, trap := fun a => alignTrap a.st n (addr a.st), hold := fun a => abHold a releases writes n (addr a.st),
                 act := eachStrand x f } s = eachStrand x f s s.cur.crew s.cur.strands :=
  runInstr_acts ready.1 rfl rfl (fun k here => congrArg (Option.map _) (ready.2 k here).1) (fun k here => (ready.2 k here).2.1)

theorem abRead_congr {c d : Crew} (h : c.body = d.body) (o n : Nat) : c.abRead o n = d.abRead o n := (congrArg (fun c : Crew => c.abRead o n) h :)

/-- Writes of the buffer change its bytes alone, and depend on the crew apart from its strands. -/
theorem foldl_abWrite (o : Nat → Nat) (l : Nat → List Byte) (ths : List Nat) :
    (∀ c : Crew, (ths.foldl (fun (c : Crew) th => c.abWrite (o th) (l th)) c).beyondBuffer = c.beyondBuffer) ∧
    ∀ {c d : Crew}, c.body = d.body → (ths.foldl (fun (c : Crew) th => c.abWrite (o th) (l th)) c).body =
      (ths.foldl (fun (c : Crew) th => c.abWrite (o th) (l th)) d).body := by
  induction ths with
  | nil => exact ⟨fun _ => rfl, fun h => h⟩
  | cons th ths ih => exact ⟨fun c => ih.1 _, fun h => ih.2 (congrArg (fun c : Crew => c.abWrite (o th) (l th)) h :)⟩

theorem lda_done {s : State} {f : FMz} (ready : s.bufferReady (ldaUse f) (zBytes f.z.val) (fun st => threadAddr st f.b.val f.i)
    (decide (f.o.val = 3)) false) :
    BufferDone s (ldaUse f) (zBytes f.z.val) (fun st => threadAddr st f.b.val f.i) (exec (.lda f) s) (s.crew s.cur.crew) (fun k =>
      let a := s.at (ldaUse f) k
      s.afterBufferRead (ldaUse f) f.z.val (zBytes f.z.val) (fun st => threadAddr st f.b.val f.i) (destCodes f.x f.z.val) k
        (a.st.writeLoaded f.x f.z.val a.st.active
          (fun t => BitVec.ofNat 128 (leNat (a.c.abRead (threadAddr a.st f.b.val f.i t).toNat (zBytes f.z.val)))))) := by
  rw [exec_lda, execLda, runNext, runInstr_buffer ready]
  have unchanged (l : List Nat) : l.foldl (fun (c : Crew) _ => c) (s.crew s.cur.crew) = s.crew s.cur.crew := List.foldl_fixed _
  conv => arg 6; rw [← unchanged s.cur.strands]
  refine bufferDone_eachStrand _ (fun c _ => c) _ ready.1 fun done k rest t all h => ⟨t.crew s.cur.crew, ?_, rfl, h.crew⟩
  obtain ⟨here, new⟩ := next_strand ready.1 all
  have read (o : Nat) : (t.crew s.cur.crew).abRead o (zBytes f.z.val) = (s.crew s.cur.crew).abRead o (zBytes f.z.val) :=
    abRead_congr (h.crew.trans (congrArg Crew.body (unchanged done))) ..
  have crew (core cost : Nat) : (t.useAb core cost).crew s.cur.crew = t.crew s.cur.crew := congrArg (mget · _) (crews_useAb ..)
  simp only [h.place, State.setStrand, crew, abThreads_inside (h.inside ready here), maskOf_threadsOf, read]
  exact congrArg (State.setCrew _ _) (congrArg (Crew.setSt _ k) (h.readStrand ready all ..))

theorem sta_done {s : State} {f : FMz} (ready : s.bufferReady (staUse f) (zBytes f.z.val) (fun st => threadAddr st f.b.val f.i)
    (decide (2 ≤ f.o.val)) true) :
    BufferDone s (staUse f) (zBytes f.z.val) (fun st => threadAddr st f.b.val f.i) (exec (.sta f) s)
      (s.cur.strands.foldl (fun (c : Crew) k =>
        let st := s.reading (staUse f) k
        (threadsOf st.active).foldl (fun (c : Crew) th =>
          c.abWrite (threadAddr st f.b.val f.i th).toNat (leBytes (zBytes f.z.val) (storeData st f.x f.z.val th).toNat)) c) (s.crew s.cur.crew))
      (fun k => ({ s.reading (staUse f) k with fence := fenceLeft (s.reading (staUse f) k).fence } : Strand).seq) := by
  rw [exec_sta, execSta, runNext, runInstr_buffer ready]
  refine bufferDone_eachStrand _ _ _ ready.1 fun done k rest t all h => ?_
  obtain ⟨here, new⟩ := next_strand ready.1 all
  have written := foldl_abWrite (fun th => (threadAddr (s.reading (staUse f) k) f.b.val f.i th).toNat)
    (fun th => leBytes (zBytes f.z.val) (storeData (s.reading (staUse f) k) f.x f.z.val th).toNat)
    (threadsOf (s.reading (staUse f) k).active)
  refine ⟨_, ?_, written.1 (t.crew s.cur.crew), written.2 h.crew⟩
  simp only [h.place, abThreads_inside (h.inside ready here)]
  exact congrArg (State.setCrew _ _) (congrArg (Crew.setSt _ k) (abEnd_inside (h.inside ready here) _))

theorem beyondBuffer_foldl_atomaStep (a : Site) (f : FMo) (aop : Nat) : ∀ (ths : List Nat) (acc : Crew × FMap Word),
    (ths.foldl (atomaStep a f aop) acc).1.beyondBuffer = acc.1.beyondBuffer
  | [], _ => rfl
  | _ :: ths, _ => beyondBuffer_foldl_atomaStep a f aop ths _

theorem atoma_done (s : State) (i : Instr) (f : FMo) (aop : Nat) : atomaDone s f (atomaOp i f aop s) aop := by
  intro k alone ready a r
  rw [atomaOp, runNext, runInstr_buffer ready]
  have start := Served.refl s (atomaUse f (decide (aop = 7))) 4 (fun st => threadAddr st f.b.val f.i)
  have here : k ∈ s.cur.strands := by simp [alone]
  refine bufferDone_alone _ r.1 _ ready.1 alone (beyondBuffer_foldl_atomaStep a f aop _ (a.c, [])) ?_
  simp only [abThreads_inside (start.inside ready here), maskOf_threadsOf, State.at]
  exact congrArg (State.setCrew _ _) (congrArg (Crew.setSt _ k) (start.readStrand (rest := []) ready alone ..))

end Sys2Proof.Machine
end

section
/-! The bytes of the activation buffer's view (R39, R97, R101), and what the statement about buffer accesses says. -/

namespace Sys2Proof.Machine

/-! What the view reads after a write (R39, R97, R101). -/

theorem abIndex_inj {c : Crew} {p q : Nat} (same : c.abIndex p = c.abIndex q) : p = q := by
  unfold Crew.abIndex at same
  grind

theorem abIndex_ne_shadowIndex {c : Crew} {p q : Nat} (hp : p < c.view) (hq : q < c.view) (bank : c.ab ≤ q) :
    c.abIndex p ≠ c.shadowIndex (q - c.ab) := by
  unfold Crew.view at hp hq
  unfold Crew.abIndex Crew.shadowIndex
  grind

theorem abWrite_concat (c : Crew) (o : Nat) (l : List Byte) (b : Byte) :
    (c.abWrite o (l ++ [b])).abuf = mset (c.abWrite o l).abuf (c.abIndex (o + l.length)) (some b) := by
  have pairs : List.zip (List.range (l.length + 1)) (l ++ [b]) = List.zip (List.range l.length) l ++ [(l.length, b)] := by
    rw [List.range_succ, List.zip_append (by simp)]
    rfl
  simp [Crew.abWrite, pairs, List.foldl_append]

/-- A cell of the buffer that no byte of the write lands on. -/
theorem mget_abWrite_out (c : Crew) (o j : Nat) (l : List Byte) (apart : ∀ i < l.length, c.abIndex (o + i) ≠ j) :
    mget (c.abWrite o l).abuf j = mget c.abuf j := by
  induction l using List.reverseRecOn with
  | nil => rfl
  | append_singleton l b ih =>
    rw [abWrite_concat, mget_mset_ne _ _ (apart l.length (by simp)).symm, ih fun i low => apart i (by simp; omega)]

/-- The cell of byte i of the write. -/
theorem mget_abWrite_in (c : Crew) (o i : Nat) (l : List Byte) (h : i < l.length) :
    mget (c.abWrite o l).abuf (c.abIndex (o + i)) = some l[i] := by
  induction l using List.reverseRecOn with
  | nil => simp at h
  | append_singleton l b ih =>
    rw [List.length_append, List.length_singleton] at h
    rw [abWrite_concat, mget_mset]
    by_cases last : i = l.length
    · subst last
      simp
    · rw [if_neg fun same => last (by have := abIndex_inj same; omega), ih (by omega),
        List.getElem_append_left]

theorem abByte_abWrite_out {c : Crew} {o j : Nat} {l : List Byte} (apart : ∀ i < l.length, c.abIndex (o + i) ≠ j) :
    (c.abWrite o l).abByte j = c.abByte j := by
  rw [Crew.abByte, mget_abWrite_out c o j l apart]
  rfl

/-- A swap of the banks shows the other one (R101). -/
theorem abIndex_swap {c : Crew} {p : Nat} (bank : c.ab ≤ p) : ({ c with swapped := !c.swapped } : Crew).abIndex p = c.shadowIndex (p - c.ab) := by
  unfold Crew.abIndex Crew.shadowIndex
  cases c.swapped <;> grind

end Sys2Proof.Machine

open Sys2Proof Sys2Proof.Machine

/-- Settles O26: LDA, STA and ATOMA by `lda_done`, `sta_done` and `atoma_done`, which follow the buffer from strand to strand (`Served`); the
bytes of the view by `mget_abWrite_in` and `abByte_abWrite_out`. -/
theorem bufferAccessesAndAtomics : Obligations.BufferAccessesAndAtomics := by
  refine ⟨fun s f => ⟨atoma_done s _ f 0, atoma_done s _ f 1, atoma_done s _ f 2, atoma_done s _ f 3, atoma_done s _ f 4, atoma_done s _ f 5,
    atoma_done s _ f 6, atoma_done s _ f 7, atoma_done s _ f 8, atoma_done s _ f 9, atoma_done s _ f 10⟩,
    fun s f => ⟨lda_done, sta_done⟩, fun c o l fits => ⟨fun i h => ?_, fun p _ outside => ?_, fun p bank inside => ?_, fun p bank _ => ?_⟩⟩
  · rw [Crew.abByte, mget_abWrite_in c o i l h]
    rfl
  · exact abByte_abWrite_out fun i low same => by
      have := abIndex_inj same
      omega
  · exact abByte_abWrite_out fun i low => abIndex_ne_shadowIndex (by omega) inside bank
  · exact abIndex_swap bank
end

section
/-! Completion, retirement, acceptance and the queues of the host and of the domains (R40, R321 to R324). -/

namespace Sys2Proof.Machine

/-! Completion (R322). -/

/-- Releasing the claims of a launch changes the cores only. -/
theorem dropClaims_field (s : State) (l : Nat) {β : Type} (f : State → β) (coreFree : ∀ (x : State) n c, f (x.setCore n c) = f x) :
    f (s.dropClaims l) = f s := by
  have each (es : List (Nat × Core)) (x : State) : f (es.foldl (State.releaseClaim l) x) = f x := by
    induction es generalizing x with
    | nil => rfl
    | cons e es ih =>
      rw [List.foldl_cons, ih, State.releaseClaim]
      split
      · exact coreFree ..
      · rfl
  exact each s.cores s

/-- The end of a weir group changes the weirs only. -/
theorem dropGroup_field (s : State) (part g : Nat) {β : Type} (f : State → β) (weirFree : ∀ (x : State) w, f { x with weirs := w } = f x) :
    f (s.dropGroup part g) = f s := by
  unfold State.dropGroup
  split
  · rfl
  · exact weirFree ..

/-- Without a completion word the report is that to the LAUNCH future alone. -/
theorem reportLaunch_noWord (s : State) (part space : Nat) (word fut : Word64) (queue : Nat) :
    s.reportLaunch part space 0 word fut queue = some (if fut = 0 then s else s.resolveOp fut word) := rfl

/-- A launch that is over and has no completion word completes: no crew and no byte of memory changes, and its LAUNCH future resolves. -/
theorem completeLaunch_noWord {s : State} {l : Nat} (finished : s.launchOver l = true) (silent : (s.launchOf l).record.compl = 0) : ∃ t,
    s.completeLaunch l = some t ∧ t.crews = s.crews ∧ (t.launchOf l).state = 2 ∧ t.mem = s.mem ∧
      ((s.launchOf l).fut ≠ 0 → mget t.results (s.launchOf l).fut.toNat =
        some (mkResult (s.launchOf l).ending (s.launchOf l).endCode (s.launchOf l).endDetail)) := by
  obtain ⟨freed, freedEq⟩ : ∃ x : State, x = (((s.setLaunch l { s.launchOf l with state := 2 }).dropGroup (s.launchOf l).part
    (s.launchOf l).group)).dropClaims l := ⟨_, rfl⟩
  have kept {β : Type} (f : State → β) (coreFree : ∀ (x : State) n c, f (x.setCore n c) = f x) (weirFree : ∀ (x : State) w, f { x with weirs := w } = f x) :
      f freed = f (s.setLaunch l { s.launchOf l with state := 2 }) := by
    rw [freedEq, dropClaims_field _ l f coreFree, dropGroup_field _ _ _ f weirFree]
  refine ⟨if (s.launchOf l).fut = 0 then freed else freed.resolveOp (s.launchOf l).fut
    (mkResult (s.launchOf l).ending (s.launchOf l).endCode (s.launchOf l).endDetail), ?_, ?_, ?_, ?_, fun asked => ?_⟩
  · rw [State.completeLaunch, if_pos finished]
    dsimp only
    rw [← freedEq, silent, reportLaunch_noWord]
  · have crews := kept State.crews (fun _ _ _ => rfl) fun _ _ => rfl
    split <;> exact crews
  · have state := (kept (fun x => x.launchOf l) (fun _ _ _ => rfl) fun _ _ => rfl).trans ((State.launchOf_setLaunch ..).trans (if_pos rfl))
    split <;> exact congrArg Launch.state state
  · have mem := kept State.mem (fun _ _ _ => rfl) fun _ _ => rfl
    split <;> exact mem
  · rw [if_neg asked]
    exact mget_mset_same ..

/-! CREW_RETIRE (R40). -/

/-- The machine once crew k is freed and counted, its records gone in `q`. -/
def State.crewFreed (s q : State) (k : Nat) : State :=
  let s0 := if (s.crew k).resident then q.idleSlices (s.crew k) else q
  ({ s0 with crews := mset s0.crews k default }).setLaunch (s.crew k).launch
    { s.launchOf (s.crew k).launch with retired := (s.launchOf (s.crew k).launch).retired + 1 }

theorem dropCrewRecords_none {s : State} {k : Nat} (none : ∀ e ∈ s.sfrq, e.2.crew ≠ k) : s.dropCrewRecords k = s := by
  have empty : s.sfrq.filter (fun e => decide (e.2.crew = k) && decide (e.2.launch ≠ 0)) = [] :=
    List.filter_eq_nil_iff.2 fun e here => by simp [none e here]
  rw [State.dropCrewRecords, State.dropRecords, empty]
  rfl

/-- CREW_RETIRE of a drained crew without a record (R40). -/
theorem crewRetire_eq {s : State} {k : Nat} (retires : (s.crew k).retiring = true) (done : crewDrained s k = true)
    (none : ∀ e ∈ s.sfrq, e.2.crew ≠ k) : exec (.crewRetire k) s = .next (((s.crewFreed s k).completeLaunch (s.crew k).launch).getD s) := by
  have go : ((s.crew k).retiring && crewDrained s k) = true := by rw [retires, done, Bool.and_self]
  have run : exec (.crewRetire k) s = .next (((s.crewFreed (s.dropCrewRecords k) k).completeLaunch (s.crew k).launch).getD s) := by
    rw [exec_crewRetire, execCrewRetire]
    dsimp only
    rw [if_pos go]
    generalize finished : State.completeLaunch _ _ = o
    have same := congrArg (fun o : Option State => (.next (o.getD s) : Host.Outcome State Fault Refusal)) finished
    cases o with
    | none => exact same.symm
    | some t => exact same.symm
  rw [run, dropCrewRecords_none none]

theorem crewFreed_crews (s : State) (k : Nat) : (s.crewFreed s k).crews = mset s.crews k default := by
  unfold State.crewFreed
  dsimp only
  split <;> rfl

theorem crewFreed_crew (s : State) (k v : Nat) : (s.crewFreed s k).crew v = if v = k then default else s.crew v := by
  rw [State.crew, crewFreed_crews, mget_mset]
  rfl

theorem crewFreed_mem (s : State) (k : Nat) : (s.crewFreed s k).mem = s.mem := by
  unfold State.crewFreed
  dsimp only
  split <;> rfl

theorem crewFreed_launchOf (s : State) (k : Nat) : (s.crewFreed s k).launchOf (s.crew k).launch =
    { s.launchOf (s.crew k).launch with retired := (s.launchOf (s.crew k).launch).retired + 1 } :=
  (State.launchOf_setLaunch ..).trans (if_pos rfl)

/-- A launch with a crew left is not over. -/
theorem launchOver_of_crew {s : State} {l v : Nat} (valid : l ≠ 0) (left : (s.crew v).launch = l) : s.launchOver l = false := by
  have listed : (v, s.crew v) ∈ s.crews := mem_of_mget _ _ fun gone => valid (by rw [← left, State.crew, gone]; rfl)
  have any : s.crews.any (fun e => decide (e.2.launch = l)) = true := List.any_eq_true.2 ⟨_, listed, decide_eq_true left⟩
  simp [State.launchOver, any]

/-- A live launch without crews, all of which have retired, is over. -/
theorem launchOver_of_retired {s : State} {l : Nat} (wf : mwf s.crews = true) (live : (s.launchOf l).state = 1)
    (gone : ∀ v, (s.crew v).launch ≠ l) (all : (s.launchOf l).record.crewCount ≤ (s.launchOf l).retired) (again : (s.launchOf l).restarts = []) :
    s.launchOver l = true := by
  have none : s.crews.any (fun e => decide (e.2.launch = l)) = false := by
    rw [List.any_eq_false]
    intro e here
    have own : s.crew e.1 = e.2 := mget_mem s.crews 0 e wf here
    simpa [← own] using gone e.1
  simp [State.launchOver, live, none, all, again]

/-! Acceptance (R324). -/

/-- Of a list of numbers one more than a list of entries is long, one is named by no entry. -/
theorem exists_unnamed {α β : Type} [DecidableEq β] (es : List α) (name : α → β) (ns : List β) (nd : ns.Nodup) (more : es.length < ns.length) :
    ∃ n ∈ ns, ∀ e ∈ es, name e ≠ n := by
  by_contra all
  have sub : ns ⊆ es.map name := fun n here => by
    by_contra free
    exact all ⟨n, here, fun e he same => free (List.mem_map.2 ⟨e, he, same⟩)⟩
  have := (nd.subperm sub).length_le
  rw [List.length_map] at this
  omega

/-- The first of a list that passes a test, when one does. -/
theorem find?_getD_spec {p : Nat → Bool} {ns : List Nat} (d : Nat) (one : ∃ n ∈ ns, p n = true) : (ns.find? p).getD d ∈ ns ∧ p ((ns.find? p).getD d) = true := by
  obtain ⟨n, found⟩ := Option.isSome_iff_exists.1 (List.find?_isSome.2 one)
  rw [found]
  exact ⟨List.mem_of_find?_eq_some found, List.find?_some found⟩

theorem nodup_shifted (a n : Nat) : ((List.range n).map (· + a)).Nodup := List.nodup_range.map fun x y h => by simpa using h

theorem mem_shifted {a n x : Nat} : x ∈ (List.range n).map (· + a) ↔ a ≤ x ∧ x < a + n := by
  simp only [List.mem_map, List.mem_range]
  exact ⟨fun ⟨y, hy, e⟩ => by omega, fun h => ⟨x - a, by omega, by omega⟩⟩

/-- The group that an accepted launch is given is held by no live launch of the partition (R324). -/
theorem freshGroup_spec (s : State) (part : Nat) : 0x800000 ≤ s.freshGroup part ∧ s.groupLive part (s.freshGroup part) = false := by
  obtain ⟨g, here, free⟩ := exists_unnamed s.launches (fun e => e.2.group) _ (nodup_shifted (2 ^ 23) (s.launches.length + 1)) (by simp)
  have dead : s.groupLive part g = false := by
    rw [State.groupLive, List.any_eq_false]
    intro e he
    simp [free e he]
  obtain ⟨listed, passes⟩ := find?_getD_spec (p := fun g => !s.groupLive part g) (2 ^ 23) ⟨g, here, by simp [dead]⟩
  exact ⟨(mem_shifted.1 listed).1, Eq.mp (Bool.not_eq_true' _) passes⟩

theorem launchIdAt_bounds (n : Nat) : 1 ≤ launchIdAt n ∧ launchIdAt n < 2 ^ 32 := by
  unfold launchIdAt
  omega

theorem nextLaunch_le_freshNumber (s : State) : s.nextLaunch ≤ s.freshNumber := by
  unfold State.freshNumber
  cases found : List.find? _ _ with
  | none => exact Nat.le_refl _
  | some n => exact (mem_shifted.1 (List.mem_of_find?_eq_some found)).1

/-- The id of the next acceptance is that of no live launch (R324). -/
theorem freshNumber_dead {s : State} (first : 1 ≤ s.nextLaunch) (room : s.launches.length < 2 ^ 32 - 1) :
    (s.launchOf (launchIdAt s.freshNumber)).state ≠ 1 := by
  have nd : (((List.range (s.launches.length + 1)).map (· + s.nextLaunch)).map launchIdAt).Nodup := by
    refine (nodup_shifted ..).map_on fun x hx y hy same => ?_
    rw [mem_shifted] at hx hy
    unfold launchIdAt at same
    omega
  obtain ⟨id, here, free⟩ := exists_unnamed s.launches (fun e => e.1) _ nd (by simp)
  obtain ⟨n, listed, rfl⟩ := List.mem_map.1 here
  have dead : (s.launchOf (launchIdAt n)).state ≠ 1 := fun live => by
    have entry := mem_of_mget s.launches (launchIdAt n) fun gone => by
      rw [State.launchOf, gone] at live
      exact absurd live (by decide)
    exact free _ entry rfl
  obtain ⟨_, passes⟩ := find?_getD_spec (p := fun n => decide ((s.launchOf (launchIdAt n)).state ≠ 1)) s.nextLaunch ⟨n, listed, decide_eq_true dead⟩
  exact of_decide_eq_true passes

/-- A record that is consistent, whose space exists and that fits becomes a live launch (R324). -/
theorem acceptRecord_accepts {s : State} {part space : Nat} {b : List Byte} {fut : Word64} {q : Nat} (good : s.recordBad part b = false)
    (mapped : (mget s.asroot (16 * part + space)).getLsbD 0 = true) (fits : s.noFit part (launchRec b) = false) :
    s.acceptRecord part space b fut q = some { s.setLaunch (launchIdAt s.freshNumber) { (default : Launch) with
      state := 1, accepted := s.freshNumber, part := part, space := space, record := launchRec b,
      group := if (launchRec b).wgroup = 0 then s.freshGroup part else (launchRec b).wgroup, fut := fut, queue := q } with
      nextLaunch := s.freshNumber + 1, firstBound := mset s.firstBound (launchIdAt s.freshNumber) false } := by
  have root : nbit (mget s.asroot (16 * part + space)).toNat 0 = true := by
    rw [nbit_toNat, mapped]
  rw [State.acceptRecord]
  simp only [good, root, fits, Bool.false_eq_true, if_false, Bool.not_true]

/-- An inconsistent record without a completion word (R321). -/
theorem acceptRecord_bad {s : State} {part space : Nat} {b : List Byte} {fut : Word64} {q : Nat} (bad : s.recordBad part b = true)
    (silent : (launchRec b).compl = 0) (asked : fut ≠ 0) : s.acceptRecord part space b fut q = some (s.resolveOp fut (mkResult 2 0 0)) := by
  rw [State.acceptRecord]
  dsimp only
  rw [if_pos bad, silent, reportLaunch_noWord, if_neg asked]

/-! The queues (R323, R324). -/

/-- DLQ_TAKE with no cancelled record in the domain. -/
theorem dlqTake_eq {s s1 : State} {k n : Nat} {e : DlqEntry} (oldest : s.dlq.find? (fun e => decide (e.2.dom = k)) = some (n, e))
    (kept : ∀ d ∈ s.dlq, d.2.dom = k → d.2.cancelled = false) (accepted : s.acceptRecord e.part e.space e.bytes e.handle 0 = some s1) :
    exec (.dlqTake k) s = .next { s1 with dlq := mset s1.dlq n default } := by
  have none : s.dlq.find? (fun e => decide (e.2.dom = k) && e.2.cancelled) = none :=
    List.find?_eq_none.2 fun d here => by
      by_cases own : d.2.dom = k
      · simp [kept d here own]
      · simp [own]
  rw [exec_dlqTake, execDlqTake]
  simp only [none, oldest, accepted]

/-- HOST_QUEUE_ACCEPT of a record that can be read, where GET can be written (R323). The write of GET is abstracted before the match on it
is reduced: the kernel would otherwise evaluate it. -/
theorem hostQueueAccept_eq {s s1 s2 : State} {k : Nat} {h b : List Byte} (addressed : (mget s.hostq (8 * k)).toNat ≠ 0)
    (up : mget s.cxlDown ((mget s.hostq (8 * k + 1)).toNat / 256 % 2) = false) (booted : s.bootstat.toNat % 16 = 8)
    (header : s.rdVirt noCore (k / 16) ((mget s.hostq (8 * k + 1)).toNat % 16) (mget s.hostq (8 * k)).toNat 12 = .ok h)
    (filled : field h 0 4 ≠ field h 4 4) (room : 0 < field h 8 4) (small : field h 8 4 ≤ 4096)
    (record : s.rdVirt noCore (k / 16) ((mget s.hostq (8 * k + 1)).toNat % 16)
      ((mget s.hostq (8 * k)).toNat + 64 + 256 * (field h 4 4 % field h 8 4)) 256 = .ok b)
    (accepted : s.acceptRecord (k / 16) ((mget s.hostq (8 * k + 1)).toNat % 16) b 0 (k + 1) = some s1)
    (written : s1.wrVirt noCore (k / 16) ((mget s.hostq (8 * k + 1)).toNat % 16) ((mget s.hostq (8 * k)).toNat + 4)
      (leBytes 4 (field h 4 4 + 1)) = .ok s2) : exec (.hostQueueAccept k) s = .next s2 := by
  have space (x : Nat) : x % 16 = nbits x 0 4 := by simp [nbits]
  have dom (x : Nat) : x / 256 % 2 = nbits x 8 1 := by simp [nbits]
  rw [space] at booted header record accepted written
  rw [dom] at up
  have taken : ¬ ((decide ((mget s.hostq (8 * k)).toNat = 0) || mget s.cxlDown (nbits (mget s.hostq (8 * k + 1)).toNat 8 1) ||
      decide (nbits s.bootstat.toNat 0 4 ≠ 8)) = true) := by simp [addressed, up, booted]
  have valid : ¬ ((decide (field h 0 4 = field h 4 4) || decide (field h 8 4 = 0) || decide (4096 < field h 8 4)) = true) := by
    simp [filled]
    omega
  rw [exec_hostQueueAccept, execHostQueueAccept, if_neg taken, header]
  refine (if_neg valid).trans ?_
  rw [record]
  refine congrArg Host.Outcome.next ?_
  obtain ⟨write, writes⟩ : ∃ write : State → WrRes, ∀ x : State, write x = x.wrVirt noCore (k / 16) (nbits (mget s.hostq (8 * k + 1)).toNat 0 4)
    ((mget s.hostq (8 * k)).toNat + 4) (leBytes 4 (field h 4 4 + 1)) := ⟨_, fun _ => rfl⟩
  rw [← writes] at written
  simp only [← writes]
  rw [accepted]
  simp only [written]

end Sys2Proof.Machine

open Sys2Proof Sys2Proof.Machine

/-- Settles O42: a retirement by `crewRetire_eq` (its launch stays while it has a crew, `launchOver_of_crew`, or completes,
`completeLaunch_noWord`), an acceptance by `acceptRecord_accepts` with `freshGroup_spec` and `freshNumber_dead`, the queues by `dlqTake_eq` and
`hostQueueAccept_eq`. -/
theorem launchesAndRetirement : Obligations.LaunchesAndRetirement := by
  refine ⟨fun s k tidy => ?_, fun s part space b fut q good mapped fits => ?_, fun s k n e oldest kept => ⟨fun s1 accepted => ?_, fun bad silent asked => ?_⟩,
    fun s s1 s2 k h b => ?_⟩
  · obtain ⟨-, crews, -⟩ := tidy
    intro c l x retires done none live
    have retire := crewRetire_eq retires done none
    have others (v : Nat) (other : v ≠ k) : (s.crewFreed s k).crew v = s.crew v := (crewFreed_crew ..).trans (if_neg other)
    refine ⟨fun ⟨v, other, same⟩ valid => ?_, fun gone valid whole all again silent => ?_⟩
    · have left : (s.crewFreed s k).completeLaunch l = some (s.crewFreed s k) :=
        if_neg (Bool.eq_false_iff.1 (launchOver_of_crew (v := v) valid (by rw [others v other, same])))
      exact ⟨_, retire.trans (by rw [left]; rfl), by simp [crewFreed_crew], others, crewFreed_launchOf s k, crewFreed_mem s k⟩
    · have finished := launchOver_of_retired (s := s.crewFreed s k) (l := l) (by rw [crewFreed_crews]; exact mwf_mset _ _ _ crews)
        (by rw [crewFreed_launchOf]; exact live) (fun v => ?_) (by rw [crewFreed_launchOf]; exact all) (by rw [crewFreed_launchOf]; exact again)
      · obtain ⟨t, complete, freed, state, mem, result⟩ := completeLaunch_noWord finished (by rw [crewFreed_launchOf]; exact silent)
        have crew (v : Nat) : t.crew v = if v = k then default else s.crew v :=
          (congrArg (mget · v) freed).trans (crewFreed_crew ..)
        rw [crewFreed_launchOf] at result
        exact ⟨t, retire.trans (by rw [complete]; rfl), by simp [crew], fun v other => (crew v).trans (if_neg other), state,
          mem.trans (crewFreed_mem ..), result⟩
      · rw [crewFreed_crew]
        split
        · exact valid.symm
        · exact gone v ‹_›
  · refine ⟨_, _, fun own => if_neg own, fun own => ?_, (launchIdAt_bounds _).1, (launchIdAt_bounds _).2, nextLaunch_le_freshNumber s, freshNumber_dead,
      acceptRecord_accepts good mapped fits⟩
    rw [if_pos own]
    exact freshGroup_spec s part
  · exact ⟨_, dlqTake_eq oldest kept accepted, rfl⟩
  · exact ⟨_, dlqTake_eq oldest kept (acceptRecord_bad bad silent asked), mget_mset_same .., rfl, rfl, mget_mset_same ..⟩
  · intro _ _ _ _ _ addressed up booted header filled room small record accepted written
    exact ⟨_, hostQueueAccept_eq addressed up booted header filled room small record accepted written, rfl⟩
end

section
/-! The placement of a crew (R39, R69, R329). -/

namespace Sys2Proof.Machine

/-! The strands and the crew at creation (R39, R69). -/

/-- Where a table is filled entry by entry, what is read at a key is the value of an entry with that key, or what was there before. -/
theorem mget_foldl_entries {α β : Type} [Inhabited α] [DecidableEq α] (key : β → Nat) (value : β → α) (k : Nat) (es : List β) (m : FMap α) :
    (∃ e ∈ es, key e = k ∧ mget (es.foldl (fun m e => mset m (key e) (value e)) m) k = value e) ∨
      (∀ e ∈ es, key e ≠ k) ∧ mget (es.foldl (fun m e => mset m (key e) (value e)) m) k = mget m k := by
  induction es generalizing m with
  | nil => exact .inr ⟨by simp, rfl⟩
  | cons a es ih =>
    rw [List.foldl_cons]
    obtain ⟨e, here, same, read⟩ | ⟨none, read⟩ := ih (mset m (key a) (value a))
    · exact .inl ⟨e, List.mem_cons_of_mem _ here, same, read⟩
    · rw [mget_mset] at read
      split at read
      · next own => exact .inl ⟨a, List.mem_cons_self, own.symm, read⟩
      · next other => exact .inr ⟨List.forall_mem_cons.2 ⟨fun same => other same.symm, none⟩, read⟩

/-- A strand of a new crew is a new strand of that number. -/
theorem newCrew_st {l : Nat} {r : LaunchRec} {stage index core uid seed period : Nat} {ctxs : List (Nat × List Nat)} {w x : Nat}
    (weave : w < r.weaves) (strand : x < r.strands) : ∃ v y, y < r.strands ∧ strandKey v y = strandKey w x ∧
      (newCrew l r stage index core uid seed period ctxs).st (strandKey w x) = newStrand v y r.code period := by
  have flat : (newCrew l r stage index core uid seed period ctxs).strand =
      ((List.range r.weaves).flatMap fun w => (List.range r.strands).map (Prod.mk w)).foldl
        (fun m p => mset m (strandKey p.1 p.2) (newStrand p.1 p.2 r.code period)) [] := by
    simp only [List.foldl_flatMap, List.foldl_map, newCrew]
  rw [Crew.st, flat]
  obtain ⟨⟨v, y⟩, here, same, read⟩ | ⟨none, -⟩ := mget_foldl_entries (fun p : Nat × Nat => strandKey p.1 p.2)
    (fun p => newStrand p.1 p.2 r.code period) (strandKey w x) ((List.range r.weaves).flatMap fun w => (List.range r.strands).map (Prod.mk w)) []
  · exact ⟨v, y, by simp at here; exact here.2, same, read⟩
  · exact absurd rfl (none (w, x) (by simp [weave, strand]))

/-- The stochastic state of a thread of a new strand (R69). -/
theorem newStrand_sto (w x : Nat) (code : Word64) (period : Nat) {h : Nat} (thread : h < 32) :
    mget (newStrand w x code period).sto h = seedSto 0 h x w := by
  have live : tbit 0xFFFFFFFF h = true := by
    have all : ∀ h < 32, tbit 0xFFFFFFFF h = true := by decide
    exact all h thread
  rw [newStrand, mget_writeThreads, if_pos ⟨Nat.zero_le _, by omega, live⟩]
  rfl

theorem take_record (y : Launch) (g i : Nat) (ch : Option Nat) : (y.take g i ch).record = y.record := by
  cases ch <;> rfl

/-! The machine once a crew is placed (R329). -/

section
variable (s1 : State) (k j : Nat) (b : Slot) (g i : Nat) (ch : Option Nat) (ctxs : List (Nat × List Nat))

/-- The crews once a crew is created: the new one stands at the next free number. -/
theorem createCrew_crew (s : State) (l core stage index u : Nat) : (s.createCrew l core stage index ctxs).crew u =
    if u = s.nextId then newCrew l (s.launchOf l).record stage index core s.nextId (s.freeAt (s.launchOf l).part) s.period ctxs else s.crew u :=
  mget_mset ..

/-- The crews once a crew is placed: the new one has the record of its launch, which its leaving the distributor does not change. -/
theorem placed_crew : ∃ seed, ∀ u, (s1.placed k j b g i ch ctxs).crew u =
    if u = s1.nextId then newCrew b.launch (s1.launchOf b.launch).record g i k s1.nextId seed s1.period ctxs else s1.crew u := by
  have taken : ((s1.setLaunch b.launch ((s1.launchOf b.launch).take g i ch)).launchOf b.launch).record = (s1.launchOf b.launch).record :=
    ((congrArg Launch.record (State.launchOf_setLaunch ..)).trans (congrArg Launch.record (if_pos rfl))).trans (take_record ..)
  refine ⟨s1.freeAt ((s1.setLaunch b.launch ((s1.launchOf b.launch).take g i ch)).launchOf b.launch).part, fun u => ?_⟩
  rw [State.placed, createCrew_crew, ← taken]
  rfl

theorem createCrew_mem (s : State) (l core stage index : Nat) : (s.createCrew l core stage index ctxs).mem = s.mem := rfl

theorem createCrew_slots (s : State) (l core stage index : Nat) : (s.createCrew l core stage index ctxs).slots = s.slots := rfl

theorem placed_mem : (s1.placed k j b g i ch ctxs).mem = s1.mem := by
  rw [State.placed, createCrew_mem]
  rfl

theorem placed_slot : mget (s1.placed k j b g i ch ctxs).slots (8 * k + j) = b.count := by
  rw [State.placed, createCrew_slots]
  exact mget_mset_same ..

end

/-- CREW_PLACEMENT under the first slot that may place a crew. -/
theorem crewPlacement_eq {s s1 : State} {k j g i : Nat} {ch : Option Nat} {ctxs : List (Nat × List Nat)} (core : k < 768)
    (free : s.fenced (k / 12) = false) (first : (List.range 8).find? (s.slotPlaces k) = some j)
    (none : s.resuming (mget s.slots (8 * k + j)).launch k = none) (supplied : s.supply (mget s.slots (8 * k + j)).launch k = some (g, i, ch))
    (fits : s.fits (mget s.slots (8 * k + j)).launch k = some ctxs)
    (claimed : (s.firstBind (mget s.slots (8 * k + j)).launch).claim (mget s.slots (8 * k + j)).launch k false = some s1)
    (bound : (s1.placed k j (mget s.slots (8 * k + j)) g i ch ctxs).allBound (mget s.slots (8 * k + j)).launch = true) :
    exec (.crewPlacement k) s = .next (s1.placed k j (mget s.slots (8 * k + j)) g i ch ctxs) := by
  have admits : ¬ (decide (coreCount ≤ k) || s.fenced (chipOf k)) = true := by simp [coreCount, chipOf, free, Nat.not_le.2 core]
  rw [exec_crewPlacement, execCrewPlacement, if_neg admits]
  simp only [first, none, supplied, fits, claimed]
  exact congrArg Host.Outcome.next (if_pos bound)

end Sys2Proof.Machine

open Sys2Proof Sys2Proof.Machine

/-- Settles O43: the step by `crewPlacement_eq`, the new crew by `placed_crew`, its strands by `newCrew_st`; with at most 16 strands to a weave
a strand number names one strand. -/
theorem crewPlacement : Obligations.CrewPlacement := by
  intro s s1 k j g i ch ctxs b r core free first none supplied fits claimed bound
  obtain ⟨seed, crew⟩ := placed_crew s1 k j b g i ch ctxs
  have own := (crew s1.nextId).trans (if_pos rfl)
  refine ⟨_, crewPlacement_eq core free first none supplied fits claimed bound, ?_⟩
  have strand {w x : Nat} (weave : w < r.weaves) (lane : x < r.strands) : ∃ v y, y < r.strands ∧ strandKey v y = strandKey w x ∧
      (s1.placed k j b g i ch ctxs).strand s1.nextId (strandKey w x) = newStrand v y r.code s1.period := by
    rw [State.strand, own]
    exact newCrew_st weave lane
  -- the fields of the crew itself
  iterate 27 refine ⟨by rw [own]; rfl, ?_⟩
  refine ⟨fun w weave x lane => ?_, fun few w weave x lane h thread => ?_, fun u other => (crew u).trans (if_neg other), placed_mem .., placed_slot ..⟩
  · obtain ⟨v, y, -, -, new⟩ := strand weave lane
    dsimp only
    rw [new]
    and_intros <;> rfl
  · obtain ⟨v, y, low, same, new⟩ := strand weave lane
    unfold strandKey at same
    obtain ⟨rfl, rfl⟩ : v = w ∧ y = x := by omega
    rw [new, newStrand_sto _ _ _ _ thread]
end

section
/-! What registers, latches and predicates read after a write, and the active set (R46, R48, R50, R53, R55, R289). -/

namespace Sys2Proof.Machine

/-! Vector registers and latches. -/

theorem tbit_allThreads {t : Nat} (thread : t < 32) : tbit 0xFFFFFFFF t = true := by
  have all : ∀ t < 32, tbit 0xFFFFFFFF t = true := by decide
  exact all t thread

/-- A write of register n in a table of registers of 32 threads, read in thread t of register m. -/
theorem mget_writeThreads_reg (tab : FMap Word) (n m : Nat) (act : Word) (r : Nat → Word) {t : Nat} (thread : t < 32) :
    mget (writeThreads tab (32 * n) act r 32) (32 * m + t) = if m = n ∧ act.getLsbD t = true then r t else mget tab (32 * m + t) := by
  rw [mget_writeThreads]
  by_cases own : m = n
  · subst own
    simp [thread, tbit]
  · rw [if_neg (by omega), if_neg (by simp [own])]

theorem vreg_writeReg (st : Strand) (d : Opnd) (act : Word) (r : Nat → Word) (m : Nat) {t : Nat} (thread : t < 32) :
    (st.writeReg d act r).vreg m t = if act.getLsbD t = true ∧ ∃ h : m < 64, d = .v ⟨m, h⟩ then r t else st.vreg m t := by
  match d with
  | .v n =>
    have names : (∃ h : m < 64, Opnd.v n = .v ⟨m, h⟩) ↔ m = n.val :=
      ⟨fun ⟨_, same⟩ => by cases same; rfl, fun same => by subst same; exact ⟨n.isLt, rfl⟩⟩
    simp only [Strand.writeReg, Strand.vreg, mget_writeThreads_reg _ _ _ _ _ thread, names, and_comm]
  | .o _ | .l _ | .s _ | .rsv _ => simp [Strand.writeReg, Strand.vreg]

theorem oreg_writeReg (st : Strand) (d : Opnd) (act : Word) (r : Nat → Word) (m : Nat) {t : Nat} (thread : t < 32) :
    (st.writeReg d act r).oreg m t = if act.getLsbD t = true ∧ ∃ h : m < 8, d = .o ⟨m, h⟩ then r t else st.oreg m t := by
  match d with
  | .o n =>
    have names : (∃ h : m < 8, Opnd.o n = .o ⟨m, h⟩) ↔ m = n.val :=
      ⟨fun ⟨_, same⟩ => by cases same; rfl, fun same => by subst same; exact ⟨n.isLt, rfl⟩⟩
    simp only [Strand.writeReg, Strand.oreg, mget_writeThreads_reg _ _ _ _ _ thread, names, and_comm]
  | .v _ | .l _ | .s _ | .rsv _ => simp [Strand.writeReg, Strand.oreg]

/-- Writing D changes V and O registers alone. -/
theorem writeReg_changes (st : Strand) (d : Opnd) (act : Word) (r : Nat → Word) : ∃ v o, st.writeReg d act r = { st with v := v, o := o } := by
  cases d <;> exact ⟨_, _, rfl⟩

/-- Pushing a latch changes the latches and the results that arrive later alone. -/
theorem latchPush_changes (st : Strand) (act : Word) (r : Nat → Word) (q : Nat) :
    ∃ l valid late, st.latchPush act r q = { st with l := l, lvalid := valid, late := late } := ⟨_, _, _, rfl⟩

theorem vreg_latchPush (st : Strand) (act : Word) (r : Nat → Word) (q m t : Nat) : (st.latchPush act r q).vreg m t = st.vreg m t := by
  obtain ⟨l, valid, late, pushed⟩ := latchPush_changes st act r q
  rw [pushed]
  rfl

theorem oreg_latchPush (st : Strand) (act : Word) (r : Nat → Word) (q m t : Nat) : (st.latchPush act r q).oreg m t = st.oreg m t := by
  obtain ⟨l, valid, late, pushed⟩ := latchPush_changes st act r q
  rw [pushed]
  rfl

/-- The latches after a push: the result in the active threads of L0, and each of L0 to L2 one further in every thread (R50). -/
theorem lreg_latchPush (st : Strand) (act : Word) (r : Nat → Word) (q : Nat) {t : Nat} (thread : t < 32) :
    (act.getLsbD t = true → (st.latchPush act r q).lreg 0 t = r t) ∧ ∀ i < 3, (st.latchPush act r q).lreg (i + 1) t = st.lreg i t := by
  have all : (0xFFFFFFFF : Word).getLsbD t = true := tbit_allThreads thread
  simp only [Strand.latchPush, Strand.lreg]
  rw [show (0 : Nat) = 32 * 0 from rfl]
  simp only [mget_writeThreads_reg _ _ _ _ _ thread, all, and_true]
  refine ⟨fun on => by simp [tbit, on], fun i low => ?_⟩
  match i with
  | 0 | 1 | 2 => simp

theorem lvalid_latchPush (st : Strand) (act : Word) (r : Nat → Word) (q : Nat) : (st.latchPush act r q).lvalid.getLsbD 0 = true ∧
    ∀ i < 3, (st.latchPush act r q).lvalid.getLsbD (i + 1) = st.lvalid.getLsbD i := by
  refine ⟨by simp [Strand.latchPush], fun i low => ?_⟩
  match i with
  | 0 | 1 | 2 => simp [Strand.latchPush]

/-- The strand whose latches a vector result pushes: D is written unless N = 1 (R143). -/
def wroteD (st : Strand) (n : Bool) (d : Opnd) (act : Word) (r : Nat → Word) : Strand := if n then st else st.writeReg d act r

theorem result_eq (st : Strand) (n : Bool) (d : Opnd) (act : Word) (r : Nat → Word) (q : Nat) :
    st.result n d act r q = (wroteD st n d act r).latchPush act r q := rfl

theorem wroteD_changes (st : Strand) (n : Bool) (d : Opnd) (act : Word) (r : Nat → Word) :
    ∃ v o, wroteD st n d act r = { st with v := v, o := o } := by
  cases n
  · exact writeReg_changes ..
  · exact ⟨_, _, rfl⟩

theorem vreg_result (st : Strand) (n : Bool) (d : Opnd) (act : Word) (r : Nat → Word) (q m : Nat) {t : Nat} (thread : t < 32) :
    (st.result n d act r q).vreg m t =
      if n = false ∧ act.getLsbD t = true ∧ ∃ h : m < 64, d = .v ⟨m, h⟩ then r t else st.vreg m t := by
  rw [result_eq, vreg_latchPush]
  cases n
  · simpa [wroteD] using vreg_writeReg st d act r m thread
  · simp [wroteD]

theorem oreg_result (st : Strand) (n : Bool) (d : Opnd) (act : Word) (r : Nat → Word) (q m : Nat) {t : Nat} (thread : t < 32) :
    (st.result n d act r q).oreg m t =
      if n = false ∧ act.getLsbD t = true ∧ ∃ h : m < 8, d = .o ⟨m, h⟩ then r t else st.oreg m t := by
  rw [result_eq, oreg_latchPush]
  cases n
  · simpa [wroteD] using oreg_writeReg st d act r m thread
  · simp [wroteD]

/-- The latches after a vector result (R50). -/
theorem latches_result (st : Strand) (n : Bool) (d : Opnd) (act : Word) (r : Nat → Word) (q : Nat) : let x := st.result n d act r q
    (∀ t < 32, (act.getLsbD t = true → x.lreg 0 t = r t) ∧ ∀ i < 3, x.lreg (i + 1) t = st.lreg i t) ∧
      x.lvalid.getLsbD 0 = true ∧ ∀ i < 3, x.lvalid.getLsbD (i + 1) = st.lvalid.getLsbD i := by
  obtain ⟨v, o, wrote⟩ := wroteD_changes st n d act r
  rw [result_eq, wrote]
  exact ⟨fun t thread => lreg_latchPush { st with v := v, o := o } act r q thread, lvalid_latchPush { st with v := v, o := o } act r q⟩

/-- A vector result changes V, O, L and the results that arrive later alone. -/
theorem result_changes (st : Strand) (n : Bool) (d : Opnd) (act : Word) (r : Nat → Word) (q : Nat) :
    ∃ v o l valid late, st.result n d act r q = { st with v := v, o := o, l := l, lvalid := valid, late := late } := by
  obtain ⟨v, o, wrote⟩ := wroteD_changes st n d act r
  obtain ⟨l, valid, late, pushed⟩ := latchPush_changes (wroteD st n d act r) act r q
  exact ⟨v, o, l, valid, late, by rw [result_eq, pushed, wrote]⟩

/-! S registers and predicates. -/

@[simp] theorem sreg_zero (st : Strand) : st.sreg 0 = 0 := rfl

@[simp] theorem isFut_zero (st : Strand) : st.isFut 0 = false := rfl

/-- An S register after a future is returned: S0 discards the handle (R53). -/
theorem sreg_setFut (st : Strand) (n m : Nat) (h : Word64) :
    (st.setFut n h).sreg m = if m = 0 then 0 else if m = n then h else st.sreg m := by
  have e : (st.setFut n h).sreg m = (st.setS n h).sreg m := by simp only [Strand.sreg, Strand.setFut_eq, Strand.setS_eq]
  rw [e, Strand.sreg_setS]

theorem isFut_setFut (st : Strand) (n m : Nat) (h : Word64) (low : m < 32) :
    (st.setFut n h).isFut m = if m = n then decide (m ≠ 0) else st.isFut m := by
  by_cases zero : n = 0
  · subst zero
    by_cases own : m = 0 <;> simp [Strand.setFut, own]
  · by_cases own : m = n
    · subst own
      simp [Strand.isFut, Strand.setFut, zero, tbit, low]
    · have off : (!decide (m < n) && decide (m - n = 0)) = false := by simp; omega
      simp [Strand.isFut, Strand.setFut, zero, tbit, low, own, off]

theorem pred_zero_bit (st : Strand) {t : Nat} (thread : t < 32) : (st.pred 0).getLsbD t = true := tbit_allThreads thread

/-- Thread t of a predicate after a write: P0 ignores it, and a thread outside the mask keeps its value (R55). -/
theorem pred_setPred_bit (st : Strand) (n m : Nat) (act v : Word) {t : Nat} (thread : t < 32) :
    ((st.setPred n act v).pred m).getLsbD t = if m ≠ 0 ∧ m = n ∧ act.getLsbD t = true then v.getLsbD t else (st.pred m).getLsbD t := by
  by_cases zero : m = 0
  · simp [zero, Strand.pred]
  · by_cases own : m = n
    · subst own
      have written : (st.setPred m act v).pred m = (mget st.p m &&& ~~~act) ||| (v &&& act) := by simp [Strand.setPred, Strand.pred, zero]
      rw [written, BitVec.getLsbD_or, BitVec.getLsbD_and, BitVec.getLsbD_and, BitVec.getLsbD_not]
      cases act.getLsbD t <;> simp [Strand.pred, zero, thread]
    · by_cases written : n = 0 <;> simp [Strand.setPred, Strand.pred, zero, own, written]

/-! The active set. -/

/-- Thread t of the active set: the guard and the active mask (R55). -/
theorem active_bit {st : Strand} (first : st.replaying = false) {t : Nat} (thread : t < 32) :
    st.active.getLsbD t = (((st.pred (mrGP st.mr)).getLsbD t != mrGS st.mr) && st.amask.getLsbD t) := by
  cases sense : mrGS st.mr <;> simp [Strand.active, first, sense, thread]

/-- Thread t of the active set of an instruction that is executed again (R289). -/
theorem active_bit_replay {st : Strand} (again : st.replaying = true) (t : Nat) :
    st.active.getLsbD t = (st.tmask.getLsbD t && st.live.getLsbD t) := by
  simp [Strand.active, again]

/-- The guard !P0 holds in no thread. -/
theorem active_of_never {st : Strand} (first : st.replaying = false) (guard : mrGP st.mr = 0) (sense : mrGS st.mr = true) : st.active = 0 := by
  refine BitVec.eq_of_getLsbD_eq fun t thread => ?_
  rw [active_bit first thread, guard, sense, pred_zero_bit st thread]
  simp

end Sys2Proof.Machine

open Sys2Proof Sys2Proof.Machine

/-- Settles O17: D by `vreg_result` and `oreg_result`, the latches by `latches_result`, the rest of the strand by `result_changes`; S registers, predicates and the active set by what each reads after a write. -/
theorem registerRules : Obligations.RegisterRules := by
  refine ⟨fun st n d act r q => ?_, ⟨fun st n m x _ low => ?_, fun st n m t act v _ _ thread => ?_⟩, fun st t thread => ?_⟩
  · obtain ⟨latch, first, shift⟩ := latches_result st n d act r q
    refine ⟨fun m t thread => vreg_result st n d act r q m thread, fun m t thread => oreg_result st n d act r q m thread,
      fun t thread => ⟨(latch t thread).1, (latch t thread).2 0 (by decide), (latch t thread).2 1 (by decide), (latch t thread).2 2 (by decide)⟩,
      first, shift, ?_⟩
    obtain ⟨v, o, l, valid, late, same⟩ := result_changes st n d act r q
    rw [same]
    and_intros <;> rfl
  · refine ⟨sreg_zero st, isFut_zero st, Strand.sreg_setS .., ?_, sreg_setFut .., isFut_setFut _ _ _ _ low⟩
    rw [isFut_setS _ _ _ _ low]
    by_cases own : m = n <;> simp [own]
  · exact ⟨pred_zero_bit st thread, pred_setPred_bit _ _ _ _ _ thread⟩
  · exact ⟨fun first => active_bit first thread, fun again => active_bit_replay again t, fun first => active_of_never first⟩
end

section
/-! The back-edges of loops, and what a taken transfer leaves (R51, R173, R174). -/

namespace Sys2Proof.Machine

/-! Back-edges. -/

theorem backEdge_taken {l : LoopState} {a : VAddr} (r : List LoopState) (ends : l.fin = a) (more : 1 < l.remaining) :
    backEdge (l :: r) a = ({ l with remaining := l.remaining - 1 } :: r, l.start, true) := by
  rw [backEdge, if_pos ends, if_pos more]

theorem backEdge_left {l : LoopState} {a : VAddr} (r : List LoopState) (ends : l.fin = a) (last : l.remaining ≤ 1) :
    backEdge (l :: r) a = backEdge r a := by
  rw [backEdge, if_pos ends, if_neg (by omega)]

/-- Where the innermost loop does not end, the address is reached as it stands. -/
theorem backEdge_inside {loops : List LoopState} {a : VAddr} (elsewhere : ∀ l ∈ loops.head?, l.fin ≠ a) :
    backEdge loops a = (loops, a, false) := by
  match loops with
  | [] => rfl
  | l :: r => rw [backEdge, if_neg (elsewhere l rfl)]

/-- The strand at an address that it reaches in line, by the back-edge there. -/
theorem inline_of_backEdge {st : Strand} {a pc : VAddr} {loops out : List LoopState} {taken : Bool} (edge : backEdge loops a = (out, pc, taken)) :
    (st.inline a loops).pc = pc ∧ (st.inline a loops).loops = out ∧ (st.inline a loops).lvalid = if taken then 0 else st.lvalid := by
  rw [Strand.inline, edge]
  cases taken <;> exact ⟨rfl, rfl, rfl⟩

theorem inline_congr {st : Strand} {a : VAddr} {loops others : List LoopState} (edge : backEdge loops a = backEdge others a) :
    st.inline a loops = st.inline a others := by
  rw [Strand.inline, Strand.inline, edge]

/-! Taken transfers. -/

/-- The loops at a transfer are those that go, of which the outermost is left, and those that remain, of which none is left (R174). -/
theorem leaveLoops_split (a b : VAddr) (loops : List LoopState) : ∃ out, loops = out ++ leaveLoops a b loops ∧
    (∀ l ∈ leaveLoops a b loops, inBody l a = true → inBody l b = true) ∧
    ∀ l, out.getLast? = some l → inBody l a = true ∧ inBody l b = false := by
  refine ⟨(loops.reverse.dropWhile (fun l => !(inBody l a && !inBody l b))).reverse, ?_, fun l here inside => ?_, fun l outermost => ?_⟩
  · rw [leaveLoops, ← List.reverse_append, List.takeWhile_append_dropWhile, List.reverse_reverse]
  · have kept := List.mem_takeWhile_imp (List.mem_reverse.1 here)
    simpa [inside] using kept
  · rw [List.getLast?_reverse] at outermost
    have goes := List.head?_dropWhile_not (fun l => !(inBody l a && !inBody l b)) loops.reverse
    rw [outermost] at goes
    simpa using goes

end Sys2Proof.Machine

open Sys2Proof Sys2Proof.Machine

/-- Settles O18: the back-edge by what `backEdge` answers in each of its cases, the loops that a transfer leaves by `leaveLoops_split`. -/
theorem transfersAndBackEdges : Obligations.TransfersAndBackEdges := by
  refine ⟨fun st a l r => ⟨rfl, rfl, fun ends more => inline_of_backEdge (backEdge_taken r ends more),
    fun ends last => inline_congr (backEdge_left r ends last), fun elsewhere => ?_⟩,
    fun st a => ⟨rfl, rfl, rfl, rfl, rfl, rfl, rfl, leaveLoops_split st.pc a st.loops, fun elsewhere => ?_⟩⟩
  · exact inline_of_backEdge (backEdge_inside (loops := l :: r) (by simpa using elsewhere))
  · exact inline_of_backEdge (backEdge_inside fun l first => elsewhere l (List.mem_of_head? first))
end

section
/-! The future instructions and timelines (R53, R250, R251). -/

namespace Sys2Proof.Machine

/-! What timelines and cancellations depend on. -/

/-- A timeline depends on the signal counters and the contexts alone. -/
theorem timelineOf_congr {s t : State} (signals : t.signals = s.signals) (ctxs : t.ctxs = s.ctxs) (core : Nat) (v : Word64) :
    t.timelineOf core v = s.timelineOf core v := by
  unfold State.timelineOf
  rw [signals, ctxs]

theorem Alike.timelineOf {s t : State} (alike : Alike s t) (v : Nat) (x : Word64) :
    t.timelineOf (t.crew v).core x = s.timelineOf (s.crew v).core x := by
  rw [timelineOf_congr (s := s) (t := t) (alike.field State.signals) (alike.field State.ctxs)]
  exact congrArg (s.timelineOf · x) (alike.crewField v Crew.core)

theorem cancelOp_crews (s : State) (h : Word64) : (s.cancelOp h).crews = s.crews := by
  unfold State.cancelOp
  dsimp only
  split
  · rfl
  · rfl
  · split <;> rfl
  · rfl

/-! The runner where the effect looks at the machine, and in a sub-gang of one strand. -/

/-- An instruction of which the effect on each strand looks at the rest of the machine, where alike machines give the same. -/
theorem completes_strandOp (i : Instr) (x : Use) (trap : Site → Option Trap) (f : Site → Strand) {s : State} (clear : s.clear x)
    (safe : ∀ k ∈ s.cur.strands, trap ⟨s, s.cur.crew, k, s.crew s.cur.crew, s.reading x k⟩ = none)
    (same : ∀ t k, Alike s t →
      f ⟨t, s.cur.crew, k, t.crew s.cur.crew, s.reading x k⟩ = f ⟨s, s.cur.crew, k, s.crew s.cur.crew, s.reading x k⟩) :
    Completes s (runNext i { strandOp x f with trap := trap } s)
      (fun k => (f ⟨s, s.cur.crew, k, s.crew s.cur.crew, s.reading x k⟩).seq) :=
  completes_onStrand i { strandOp x f with trap := trap } (fun a => (f a).seq) s _ rfl rfl clear safe (fun _ _ => rfl)
    (fun t k alike _ _ => congrArg Strand.seq (same t k alike))

/-- An instruction of one strand that neither traps nor waits, of which the effect is a change of the machine outside its crews and then one of
the strand. -/
theorem aloneDone_of_act {i : Instr} {m : Meaning} {s : State} {k : Nat} {f : Strand} {g : State → State} (alone : s.cur.strands = [k])
    (clear : s.clear m.use) (plain : m.posted = false)
    (safe : m.trap ⟨s, s.cur.crew, k, s.crew s.cur.crew, s.reading m.use k⟩ = none)
    (free : m.hold ⟨s, s.cur.crew, k, s.crew s.cur.crew, s.reading m.use k⟩ = none)
    (acts : m.act s s.cur.crew [k] = (g s).setStrand s.cur.crew k f) (crews : (g s).crews = s.crews) :
    AloneDone s k (runNext i m s) f g := by
  have only {P : Nat → Prop} (h : P k) : ∀ j ∈ s.cur.strands, P j := by simpa [alone] using h
  have runs : runInstr i m s = (g s).setStrand s.cur.crew k f := by
    rw [runInstr_clear i m s (by simp [alone]) (only ((clear_trapOf clear plain i (by simp [alone])).trans safe))
      (only ((clear_waitOf clear plain (by simp [alone])).trans free)), alone, acts]
  have crew (v : Nat) : (g s).crew v = s.crew v := congrArg (mget · v) crews
  refine ⟨_, congrArg Host.Outcome.next runs, by simp, ⟨fun v j other => ?_, fun v => ?_⟩, rfl⟩
  · have apart : ¬(v = s.cur.crew ∧ j = k) := by simpa [alone] using other
    rw [State.strand_setStrand, if_neg apart]
    exact congrArg (Crew.st · j) (crew v)
  · rw [State.crew_setStrand_rest, crew v]

/-! FTEST. -/

/-- The strand after FTEST: S[x] takes the result of a future that has resolved, and S[d] says whether a value stands there (R250). -/
def ftested (s : State) (d x : Nat) (st : Strand) : Strand :=
  if st.isFut x then
    match s.futureValue st (st.sreg x) with
    | some v => (st.setS x v).setS d 1
    | none => st.setS d 0
  else st.setS d 1

theorem ftested_congr {s t : State} (alike : Alike s t) (d x : Nat) (st : Strand) : ftested t d x st = ftested s d x st := by
  rw [ftested, ftested, futureValue_congr alike.results]

/-- The strand after FTEST, gone on in line. -/
theorem ftested_seq (s : State) (d x : Nat) (st : Strand) : (ftested s d x st).seq =
    if st.isFut x then
      match s.futureValue st (st.sreg x) with
      | some v => ((st.setS x v).setS d 1).seq
      | none => (st.setS d 0).seq
    else (st.setS d 1).seq := by
  rw [ftested]
  cases st.isFut x
  · rfl
  · cases s.futureValue st (st.sreg x) <;> rfl

theorem execFtest_eq (d x : Fin 32) (s : State) : execFtest d x s = runNext (.ftest d x)
    (strandOp { bad := fun _ _ => decide (d = x), sw := [d.val, x.val] } (fun a => ftested a.s d.val x.val a.st)) s := rfl

/-! FJOIN. -/

/-- The strand after FJOIN into the join j: it has the sources of S[x] and S[y], and S[d] its handle (R250). -/
def joinedAt (d x y j : Nat) (st : Strand) : Strand :=
  (({ st with joins := mset st.joins j ⟨joinSrcs st x ++ joinSrcs st y⟩ } : Strand).setFut d (mkHandle 6 j 0)).latchKill.seq

/-- The strand after FJOIN, which takes the first free join. -/
def joined (d x y : Nat) (st : Strand) : Strand :=
  match freeJoin st d with
  | some j => joinedAt d x y j st
  | none => st

theorem joined_of_free {d x y j : Nat} {st : Strand} (free : freeJoin st d = some j) : joined d x y st = joinedAt d x y j st := by
  rw [joined, free]

theorem execFjoin_eq (d x y : Fin 32) (s : State) : execFjoin d x y s = runNext (.fjoin d x y)
    { use := { sw := [d.val], nm := [x.val, y.val] }
      trap := fun a => if (freeJoin a.st d.val).isNone then some (wordTrap a.st cOperand (wordOf (.fjoin d x y))) else none
      act := onStrand { sw := [d.val], nm := [x.val, y.val] } (fun a => joined d.val x.val y.val a.st) } s := rfl

end Sys2Proof.Machine

open Sys2Proof Sys2Proof.Machine

/-- Settles O30: each instruction completes by the runner where no strand traps or waits; FTEST of a register into itself fails a check of R157
in every strand, TLWAIT waits where the count is not reached, FCANCEL acts in one strand by `aloneDone_of_act`. -/
theorem futureInstructions : Obligations.FutureInstructions := by
  refine fun s d x y => ⟨fun clear => ?_, fun same fails => ?_, fun differ clear => ?_, fun clear legal => ?_,
    fun clear legal => ?_, fun clear j free => ?_, fun k alone clear => ?_⟩
  · exact completes_plain (.fwait d x) _ (fun st => (st.latchKill.setS d.val (st.sreg x.val)).seq) clear
  · subst same
    rw [exec_ftest, execFtest_eq]
    refine traps_of_checked (c := cOperand) (fun k here => ?_) (by decide)
    simpa [strandOp] using fails k here
  · rw [exec_ftest, execFtest_eq]
    have apart : decide (d = x) = false := decide_eq_false differ
    rw [apart]
    refine (completes_strandOp (.ftest d x) { sw := [d.val, x.val] } (fun _ => none) (fun a => ftested a.s d.val x.val a.st) clear
      (fun _ _ => rfl) (fun t k alike => ftested_congr alike ..)).congr fun k _ => ?_
    exact ftested_seq s d.val x.val (s.strand s.cur.crew k)
  · exact completes_strandOp (.tlread d x) _ _ (fun a => a.st.setS d.val (BitVec.ofNat 64 (a.s.timelineOf a.c.core (a.st.sreg x.val)))) clear
      (fun k here => if_pos (legal k here)) (fun t k alike => by dsimp only; rw [alike.timelineOf])
  · have safe (k : Nat) (here : k ∈ s.cur.strands) : (selectorOk ((s.strand s.cur.crew k).sreg x.val) false &&
        !(s.strand s.cur.crew k).isFut y.val) = true := by simpa using legal k here
    refine ⟨fun reached => ?_, fun early => ?_⟩
    · exact completes_onStrand (.tlwait x y) _ (fun a => a.st.latchKill.seq) s _ rfl rfl clear
        (fun k here => if_pos (safe k here)) (fun k here => if_pos (reached k here)) (fun _ _ _ _ _ => rfl)
    · exact waits_of_hold clear rfl (fun _ _ _ => rfl) (fun k here => if_pos (safe k here))
        (fun k here => if_neg (Nat.not_le.2 (early k here)))
  · rw [exec_fjoin, execFjoin_eq]
    exact (completes_trapping (.fjoin d x y) _ _ (joined d.val x.val y.val) clear
      (fun k here => if_neg (show ¬(freeJoin (s.strand s.cur.crew k) d.val).isNone = true by simp [free k here]))).congr
        fun k here => joined_of_free (free k here)
  · exact aloneDone_of_act alone clear rfl rfl rfl rfl (by split; exacts [cancelOp_crews .., rfl])
end

section
/-! Weave instructions: the effect that is made once from the lowest strand, after which every strand goes on (R37, R390). -/

namespace Sys2Proof.Machine

/-! Futures that have been delivered. -/

theorem lt_of_isFut {st : Strand} {n : Nat} (live : st.isFut n = true) : n < 32 := by
  simp only [Strand.isFut, tbit, Bool.and_eq_true] at live
  exact BitVec.lt_of_getLsbD live.2

/-- What lives after a delivery lived before it, and was not among the registers read (R53). -/
theorem isFut_of_deliver {s : State} {m : Nat} : ∀ {l : List Nat} {st st' : Strand}, s.deliver st l = some st' → st'.isFut m = true →
    st.isFut m = true ∧ m ∉ l
  | [], st, st', given, live => by
    cases given
    exact ⟨live, List.not_mem_nil⟩
  | n :: l, st, st', given, live => by
    unfold State.deliver at given
    split at given
    · split at given
      · obtain ⟨before, other⟩ := isFut_of_deliver given live
        rename_i v _
        have kept : (st.setS n v).isFut m = true := before
        rw [isFut_setS _ _ _ _ (lt_of_isFut kept)] at kept
        obtain ⟨apart, old⟩ := Bool.and_eq_true_iff.1 kept
        exact ⟨old, List.not_mem_cons_of_ne_of_not_mem (of_decide_eq_true apart) other⟩
      · cases given
    · rename_i plain
      obtain ⟨old, other⟩ := isFut_of_deliver given live
      exact ⟨old, List.not_mem_cons_of_ne_of_not_mem (fun same => plain (same ▸ old)) other⟩

theorem deliver_of_plain {s : State} {st : Strand} : ∀ {l : List Nat}, (∀ n ∈ l, st.isFut n = false) → s.deliver st l = some st
  | [], _ => rfl
  | n :: l, plain => by
    rw [State.deliver, plain n List.mem_cons_self, if_neg Bool.false_ne_true]
    exact deliver_of_plain fun m mem => plain m (List.mem_cons_of_mem n mem)

/-- A second delivery of the same registers changes nothing. -/
theorem deliver_again {s : State} {l : List Nat} {st st' : Strand} (given : s.deliver st l = some st') : s.deliver st' l = some st' :=
  deliver_of_plain fun _ mem => Bool.eq_false_iff.2 fun live => (isFut_of_deliver given live).2 mem

/-! Changes of the strands of one crew. -/

/-- The states agree but in the strands of crew u. -/
def SameBut (u : Nat) (s t : State) : Prop := Same s t ∧ ∀ v, v ≠ u → t.crew v = s.crew v

theorem SameBut.refl (u : Nat) (s : State) : SameBut u s s := ⟨Same.refl s, fun _ _ => rfl⟩

theorem SameBut.trans {u : Nat} {s t r : State} (h : SameBut u s t) (g : SameBut u t r) : SameBut u s r :=
  ⟨h.1.trans g.1, fun v other => (g.2 v other).trans (h.2 v other)⟩

theorem sameBut_setStrand (s : State) (u k : Nat) (st : Strand) : SameBut u s (s.setStrand u k st) :=
  ⟨same_setStrand s u k st, fun _ other => (State.crew_setStrand ..).trans (if_neg other)⟩

/-- The crew is as before but for its strands. -/
theorem SameBut.crew {u : Nat} {s t : State} (h : SameBut u s t) : t.crew u = { s.crew u with strand := (t.crew u).strand } :=
  congrArg (fun c : Crew => { c with strand := (t.crew u).strand }) (h.1.1 u)

/-- A crew that is replaced, but for its strands. -/
theorem strand_setCrew_kept (s : State) (u : Nat) (c : Crew) (v j : Nat) :
    (s.setCrew u { c with strand := (s.crew u).strand }).strand v j = s.strand v j := by
  rw [State.strand_setCrew]
  by_cases own : v = u
  · rw [if_pos own, own]
    rfl
  · rw [if_neg own]

/-- Strands that each go, in turn, from what they are to `w`. -/
theorem foldl_setStrand {s : State} {u : Nat} {ks : List Nat} (nd : ks.Nodup) (h : State → Nat → State) (w : Nat → Strand)
    (each : ∀ t k, SameBut u s t → k ∈ ks → t.strand u k = s.strand u k → h t k = t.setStrand u k (w k)) :
    (∀ k ∈ ks, (ks.foldl h s).strand u k = w k) ∧ (∀ v j, ¬(v = u ∧ j ∈ ks) → (ks.foldl h s).strand v j = s.strand v j) ∧
      SameBut u s (ks.foldl h s) :=
  fold_strands (SameBut u) (SameBut.refl u) SameBut.trans h (fun k st => st = w k) u ks s nd fun t k same here own => by
    rw [each t k same here own]
    exact ⟨by simp, fun v j other => by simp [other], sameBut_setStrand ..⟩

/-! The effect of a weave instruction. -/

section
variable {s : State} {x : Use}

/-- In a clear state the futures that strand k reads are delivered. -/
theorem deliver_reading (clear : s.clear x) {k : Nat} (here : k ∈ s.cur.strands) :
    s.deliver (s.strand s.cur.crew k) x.reads = some (s.reading x k) := by
  obtain ⟨-, -, resolved⟩ := clear.2 k here
  obtain ⟨st, given⟩ := Option.isSome_iff_exists.1 resolved
  rw [State.reading, given, Option.getD_some]

/-- The site of strand k in a state that differs from `s` in strands alone, and in which the strand may have been delivered its futures. -/
theorem site_reading (clear : s.clear x) {t : State} (same : Same s t) {k : Nat} (here : k ∈ s.cur.strands)
    (own : t.strand s.cur.crew k = s.strand s.cur.crew k ∨ t.strand s.cur.crew k = s.reading x k) :
    t.site s.cur.crew k x.reads = some ⟨t, s.cur.crew, k, t.crew s.cur.crew, s.reading x k⟩ := by
  have given := deliver_reading clear here
  have read : t.deliver ((t.crew s.cur.crew).st k) x.reads = some (s.reading x k) := by
    rw [deliver_congr same.alike.results]
    rcases own with old | old <;> rw [State.strand] at old <;> rw [old]
    exacts [given, deliver_again given]
  rw [State.site, read, Option.map_some]

theorem head_mem (inhabited : s.cur.strands ≠ []) : s.cur.strands.headD 0 ∈ s.cur.strands := by
  cases h : s.cur.strands with
  | nil => exact absurd h inhabited
  | cons k ks => exact List.mem_cons_self

/-- None of the locks that a weave instruction is ready for makes it wait (R266). -/
theorem lockHold_none {k : Nat} {ls ms : List Lock} (ready : s.weaveReady x ms) (here : k ∈ s.cur.strands) (among : ls ⊆ ms) (st : Strand) :
    lockHold ⟨s, s.cur.crew, k, s.crew s.cur.crew, st⟩ ls = none := by
  obtain ⟨-, -, free⟩ := ready
  refine if_neg fun held => ?_
  obtain ⟨l, mem, locked⟩ := List.any_eq_true.1 held
  exact absurd locked (by simp [free k here l (among mem)])

/-- The machine once the strands of a weave instruction have been delivered their futures (R53). -/
def State.weaveRead (s : State) (x : Use) : State :=
  s.cur.strands.foldl (fun t k => match t.site s.cur.crew k x.reads with | some a => t.setStrand s.cur.crew k a.st | none => t) s

/-- The machine `t` once every strand of the sub-gang of `s` has changed as `g` says and gone on in line. -/
def State.weaveOn (s t : State) (g : Strand → Strand) : State :=
  s.cur.strands.foldl (fun t k => t.setStrand s.cur.crew k (g (t.strand s.cur.crew k)).seq) t

theorem weaveRead_spec (clear : s.clear x) :
    (∀ k ∈ s.cur.strands, (s.weaveRead x).strand s.cur.crew k = s.reading x k) ∧
      (∀ v j, ¬(v = s.cur.crew ∧ j ∈ s.cur.strands) → (s.weaveRead x).strand v j = s.strand v j) ∧ SameBut s.cur.crew s (s.weaveRead x) :=
  foldl_setStrand clear.1 _ (s.reading x) fun t k same here own => by rw [site_reading clear same.1 here (.inl own)]

theorem weaveOn_spec (nd : s.cur.strands.Nodup) (t : State) (g : Strand → Strand) :
    (∀ k ∈ s.cur.strands, (s.weaveOn t g).strand s.cur.crew k = (g (t.strand s.cur.crew k)).seq) ∧
      (∀ v j, ¬(v = s.cur.crew ∧ j ∈ s.cur.strands) → (s.weaveOn t g).strand v j = t.strand v j) ∧ SameBut s.cur.crew t (s.weaveOn t g) :=
  foldl_setStrand nd _ (fun k => (g (t.strand s.cur.crew k)).seq) fun r k _ _ own => by rw [own]

/-- The effect of a weave instruction, made at the site of the lowest strand (R390). -/
theorem weaveAct_eq {β : Type} {f : Site → State × β} {fin : β → Strand → Strand} {none' : β} {a : Site}
    (lead : (s.weaveRead x).site s.cur.crew (s.cur.strands.headD 0) x.reads = some a) :
    weaveAct x f (fun b _ _ => fin b) none' s s.cur.crew s.cur.strands = s.weaveOn (f a).1 (fin (f a).2) := by
  have shape : weaveAct x f (fun b _ _ => fin b) none' s s.cur.crew s.cur.strands =
      let r := match (s.weaveRead x).site s.cur.crew (s.cur.strands.headD 0) x.reads with
        | some a => f a
        | none => (s.weaveRead x, none')
      s.weaveOn r.1 (fin r.2) := rfl
  rw [shape, lead]

/-- A weave instruction that neither traps nor waits: the lowest strand of the sub-gang has its effect once, by which the crew becomes `c` apart from
its strands, and then every strand goes on as `fin` says. -/
theorem weaves_of_weaveAct {β : Type} {i : Instr} {trap : Site → Option Trap} {hold : Site → Option Wait} {f : Site → State × β}
    {fin : β → Strand → Strand} {none' b : β} {c : Crew} {ls : List Lock} (ready : s.weaveReady x ls)
    (safe : ∀ k ∈ s.cur.strands, trap ⟨s, s.cur.crew, k, s.crew s.cur.crew, s.reading x k⟩ = none)
    (free : ∀ k ∈ s.cur.strands, hold ⟨s, s.cur.crew, k, s.crew s.cur.crew, s.reading x k⟩ = none)
    (once : ∀ t l, Same s t → f ⟨t, s.cur.crew, s.cur.strands.headD 0, { s.crew s.cur.crew with strand := l }, s.lead x⟩ =
      (t.setCrew s.cur.crew { c with strand := l }, b)) :
    Weaves s x (runNext i { use := x, trap := trap, hold := hold, act := weaveAct x f (fun b _ _ => fin b) none' } s) c (fin b) := by
  obtain ⟨clear, inhabited, -⟩ := ready
  obtain ⟨read, others, same⟩ := weaveRead_spec clear
  have lead := site_reading clear same.1 (head_mem inhabited) (.inr (read _ (head_mem inhabited)))
  rw [same.crew] at lead
  have acts := (weaveAct_eq (f := f) (fin := fin) (none' := none') lead).trans
    (congrArg (fun r : State × β => s.weaveOn r.1 (fin r.2)) (once _ _ same.1))
  obtain ⟨gone, rest, after⟩ := weaveOn_spec clear.1
    ((s.weaveRead x).setCrew s.cur.crew { c with strand := ((s.weaveRead x).crew s.cur.crew).strand }) (fin b)
  refine ⟨_, congrArg Host.Outcome.next ((runInstr_clear i _ s inhabited (fun k here => (clear_trapOf clear rfl i here).trans (safe k here))
    (fun k here => (clear_waitOf clear rfl here).trans (free k here))).trans acts), fun k here => ?_, fun j other => ?_, ?_, fun v other => ?_, ?_⟩
  · rw [gone k here, strand_setCrew_kept, read k here]
  · rw [rest _ _ fun p => other p.2, strand_setCrew_kept, others _ _ fun p => other p.2]
  · rw [after.1.1, State.crew_setCrew, if_pos rfl]
  · rw [after.2 v other, State.crew_setCrew, if_neg other, same.2 v other]
  · rw [after.1.2]
    exact same.1.2

end
end Sys2Proof.Machine
end

section
/-! The accumulator instructions (R84, R85, R267..R269). -/

namespace Sys2Proof.Machine

/-! AMOV, AMOVW, ATHR and ARREAD. -/

/-- An instruction that reads an accumulator of the form that it needs and meets no lock; its values depend on the strand and on the crew apart from
its strands. -/
theorem matrixValues_of_onStrand {s : State} {x : Use} {i : Instr} {trap : Site → Option Trap} {ls : List Lock} {d : Opnd} {n : Nat}
    (val : Crew → Strand → Nat → Nat → Nat → Word) (ready : s.weaveReady x ls)
    (safe : ∀ k, trap ⟨s, s.cur.crew, k, s.crew s.cur.crew, s.reading x k⟩ = none) (body : ∀ c, val { c with strand := [] } = val c) :
    MatrixValues s x (runNext i
      { use := x, trap := trap, hold := fun a => lockHold a ls
        act := onStrand x (fun a => matrixResult a.st d n a.s.period (val a.c a.st a.k)) } s) d n
      (fun k => val (s.crew s.cur.crew) (s.reading x k) k) := by
  refine completes_onStrand i _ _ s _ rfl rfl ready.1 (fun k _ => safe k) (fun k here => lockHold_none ready here (List.Subset.refl ls) _)
    fun t k alike _ _ => ?_
  have same : val (t.crew s.cur.crew) = val (s.crew s.cur.crew) := by rw [← body, alike.1, body]
  have period : t.period = s.period := alike.field State.period
  rw [same, period]

/-- What AMOV and AMOVW name. -/
abbrev amovUse (f : FAcc) (wide : Bool) : Use :=
  { out := if wide then [] else [f.d], grp := if wide then [(f.d, 4)] else [], sr := [f.x.val], bad := accBad f.k.val, weave := true }

/-- AMOV and AMOVW on a plain accumulator (R269). -/
theorem amovOp_values {s : State} {f : FAcc} {wide : Bool} (i : Instr) (plain : ((s.crew s.cur.crew).accForm f.k.val).ranked = false)
    (ready : s.weaveReady (amovUse f wide) [.acc f.k.val true]) :
    MatrixValues s (amovUse f wide) (amovOp i f wide s) f.d (if wide then 4 else 1) (fun k c t => amovElem (s.crew s.cur.crew) f.k.val wide f.rc
      (sliceIndex (s.reading (amovUse f wide) k) f.x.val f.n.val) (32 * sidOf k + t) c) :=
  matrixValues_of_onStrand (fun c st k i t => amovElem c f.k.val wide f.rc (sliceIndex st f.x.val f.n.val) (32 * sidOf k + t) i) ready
    (fun _ => if_neg (by simp [plain])) (fun _ => rfl)

/-- The threshold that ATHR gives thread t of strand k (R84, R269). -/
def athrElem (c : Crew) (a k t : Nat) : Word := rankThreshold (c.accForm a).len (c.rankRow a ((32 * sidOf k + t) % 128))

/-- What ARREAD gives thread t of strand k in its register i, from the rank `first` on (R269). -/
def arreadElem (c : Crew) (a first k i t : Nat) : Word :=
  match ((c.rankRow a ((32 * sidOf k + t) % 128)).drop (first + (32 * sidOf k + t) / 128)).head? with
  | some p => if i = 0 then p.1 else p.2
  | none => if i = 0 then 0x7FC00000 else 0xFFFFFFFF

/-- ATHR of a ranked accumulator (R269). -/
theorem athr_values {s : State} {d : Opnd} {k : Fin 4} (ranked : ((s.crew s.cur.crew).accForm k.val).ranked = true)
    (ready : s.weaveReady { out := [d], bad := accBad k.val, weave := true } [.acc k.val false]) :
    MatrixValues s { out := [d], bad := accBad k.val, weave := true } (exec (.athr d k) s) d 1
      (fun j _ t => athrElem (s.crew s.cur.crew) k.val j t) :=
  matrixValues_of_onStrand (fun c _ j _ t => athrElem c k.val j t) ready (fun _ => if_pos ranked) (fun _ => rfl)

/-- What ARREAD names. -/
abbrev arreadUse (d : Opnd) (k : Fin 4) (n : Fin 32) : Use := { grp := [(d, 2)], sr := [n.val], bad := accBad k.val, weave := true }

/-- ARREAD of a ranked accumulator (R269). -/
theorem arread_values {s : State} {d : Opnd} {k : Fin 4} {n : Fin 32} (ranked : ((s.crew s.cur.crew).accForm k.val).ranked = true)
    (ready : s.weaveReady (arreadUse d k n) [.acc k.val false]) :
    MatrixValues s (arreadUse d k n) (exec (.arread d k n) s) d 2 (fun j i t =>
      arreadElem (s.crew s.cur.crew) k.val (nbits ((s.reading (arreadUse d k n) j).sreg n.val).toNat 0 32) j i t) :=
  matrixValues_of_onStrand (fun c st j i t => arreadElem c k.val (nbits (st.sreg n.val).toNat 0 32) j i t) ready
    (fun _ => if_pos ranked) (fun _ => rfl)

/-! AZERO and ARANK. -/

/-- AZERO (R267). -/
theorem azero_weaves {s : State} {k : Fin 4} (ready : s.weaveReady (accUse k) [.acc k.val true]) :
    Weaves s (accUse k) (exec (.azero k) s) ((s.crew s.cur.crew).azero k.val) :=
  weaves_of_weaveAct (fin := fun _ st => st) ready (fun _ _ => rfl)
    (fun _ here => lockHold_none ready here (List.Subset.refl _) _) (fun _ _ _ => rfl)

/-- What ARANK names. -/
abbrev arankUse (k : Fin 4) (n : Fin 32) : Use := { bad := accBad k.val, weave := true, sr := [n.val] }

/-- The crew after ARANK with the fields of its word (R268). -/
def Crew.arank (c : Crew) (k : Nat) (base : Word) (keep : Bool) (len : Nat) : Crew :=
  if keep then { c with ranked := mreplace c.ranked (128 * k) 128 (fun i => (c.rankRow k i).take len), form := mset c.form k ⟨true, len, base⟩ }
  else { c.azero k with form := mset (c.azero k).form k ⟨true, len, base⟩ }

/-- The lowest strand of a weave instruction, as its checks see it (R390). -/
theorem leadSite_st {s : State} {x : Use} {ls : List Lock} (ready : s.weaveReady x ls) (k : Nat) (c : Crew) (st : Strand) :
    (leadSite x ⟨s, s.cur.crew, k, c, st⟩).st = s.lead x := by
  obtain ⟨clear, inhabited, -⟩ := ready
  rw [leadSite, site_reading clear (Same.refl s) (head_mem inhabited) (.inl rfl)]
  rfl

/-- ARANK of a word that breaks no rule (R268). -/
theorem arank_weaves {s : State} {k : Fin 4} {n : Fin 32} (ready : s.weaveReady (arankUse k n) [.acc k.val true])
    {base : Word} {keep : Bool} {len : Nat}
    (fields : arankFields ((s.lead (arankUse k n)).sreg n.val) ((s.crew s.cur.crew).accForm k.val).ranked = some (base, keep, len)) :
    Weaves s (arankUse k n) (exec (.arank k n) s) ((s.crew s.cur.crew).arank k.val base keep len) := by
  refine weaves_of_weaveAct (fin := fun _ st => st) (b := ()) ready (fun _ _ => if_neg ?_)
    (fun _ here => lockHold_none ready here (List.Subset.refl _) _) (fun t l _ => ?_)
  · rw [leadSite_st ready, fields]
    exact Bool.false_ne_true
  · have form : ({ s.crew s.cur.crew with strand := l } : Crew).accForm k.val = (s.crew s.cur.crew).accForm k.val := rfl
    simp only [form, fields]
    cases keep <;> rfl

/-! ARFOLD. -/

theorem mreplace_congr {α : Type} [Inhabited α] [DecidableEq α] (m : FMap α) (lo : Nat) {n : Nat} {f g : Nat → α}
    (same : ∀ i < n, f i = g i) :
    mreplace m lo n f = mreplace m lo n g := by
  have each : (List.range n).map (fun i => (lo + i, f i)) = (List.range n).map (fun i => (lo + i, g i)) :=
    List.map_congr_left fun i mem => by rw [same i (List.mem_range.1 mem)]
  rw [mreplace, mreplace, each]

/-- An element of a list that a function gives on 0..n-1. -/
theorem headD_drop_map_range {α : Type} {n i : Nat} (low : i < n) (f : Nat → α) (d : α) : (((List.range n).map f).drop i).headD d = f i := by
  rw [List.headD_eq_head?_getD, List.head?_drop, List.getElem?_map, List.getElem?_range low]
  rfl

/-- What ARFOLD names. -/
abbrev arfoldUse (j k : Fin 4) : Use := { bad := fun c st => accBad k.val c st || accBad j.val c st, weave := true }

/-- Row i of ranked accumulator k after the offers of row i of plain accumulator j, and whether a NaN was among them (R85, R268). -/
def Crew.foldRow (c : Crew) (j k i : Nat) : List (Word × Word) × Bool :=
  rankOffers (c.accForm k).len (c.rankRow k i) (rowOffers (c.accForm k).base (mget (c.accRow j i)))

/-- The rows of ARFOLD, in their order. -/
def Crew.foldRows (c : Crew) (j k : Nat) : List (List (Word × Word) × Bool) := (List.range 128).map (c.foldRow j k)

/-- The crew after an ARFOLD with these lists, by weave w at a time (R268). -/
def Crew.folded (c : Crew) (k time w : Nat) (f : Nat → List (Word × Word)) : Crew :=
  { c with ranked := mreplace c.ranked (128 * k) 128 f, foldBusy := mset c.foldBusy k (time + 512), foldWeave := mset c.foldWeave k w }

/-- IV of a strand of the weave (R268). -/
def nanFlag (nan : Bool) (st : Strand) : Strand := if nan then st.orFlags flagIV else st

theorem folded_rows (c : Crew) (j k time w : Nat) :
    c.folded k time w (fun i => (((c.foldRows j k).drop i).headD ([], false)).1) = c.folded k time w (fun i => (c.foldRow j k i).1) := by
  rw [Crew.folded, mreplace_congr _ _ fun i low => by rw [Crew.foldRows, headD_drop_map_range low]]
  rfl

/-- ARFOLD of a plain accumulator into a ranked one (R268). -/
theorem arfold_weaves {s : State} {j k : Fin 4} (ready : s.weaveReady (arfoldUse j k) [.acc k.val true, .acc j.val false]) (apart : j ≠ k)
    (ranked : ((s.crew s.cur.crew).accForm k.val).ranked = true) (plain : ((s.crew s.cur.crew).accForm j.val).ranked = false) :
    Weaves s (arfoldUse j k) (exec (.arfold j k) s)
      ((s.crew s.cur.crew).folded k.val s.time (weaveOf (s.cur.strands.headD 0)) (fun i => ((s.crew s.cur.crew).foldRow j.val k.val i).1))
      (nanFlag ((List.range 128).any (fun i => ((s.crew s.cur.crew).foldRow j.val k.val i).2))) := by
  refine weaves_of_weaveAct (fin := nanFlag) (f := fun a => (a.s.setCrew a.u (a.c.folded k.val a.s.time (weaveOf a.k)
      (fun i => (((a.c.foldRows j.val k.val).drop i).headD ([], false)).1)), (a.c.foldRows j.val k.val).any (·.2)))
    ready (fun _ _ => if_neg (by simp [apart, ranked, plain])) (fun i here => ?_) (fun t l same => ?_)
  · have free {l : Lock} (mem : l ∈ [Lock.acc k.val true, Lock.acc j.val false]) :=
      lockHold_none ready here (List.cons_subset.2 ⟨mem, List.nil_subset _⟩)
    exact (if_neg (by simp [accHold, free])).trans (free (by simp) _)
  · have time : t.time = s.time := same.alike.field State.time
    rw [folded_rows, time, Crew.foldRows, List.any_map]
    rfl

end Sys2Proof.Machine

open Sys2Proof Sys2Proof.Machine

/-- Settles O33: the instructions that change an accumulator by `weaves_of_weaveAct`, which says what a weave instruction's one effect and its strands
become; those that read one by `matrixValues_of_onStrand`. -/
theorem accumulatorInstructions : Obligations.AccumulatorInstructions :=
  fun _ =>
    ⟨fun _ => azero_weaves, fun _ _ ready _ _ _ => arank_weaves ready, fun _ _ => arfold_weaves,
      fun f plain => ⟨amovOp_values (.amov f) plain, amovOp_values (.amovw f) plain⟩, fun _ _ => athr_values, fun _ _ _ => arread_values⟩
end

section
/-! Weave instructions that write tiles: TZERO, TLD and TST, made once from the lowest strand, and TMOV, TMOVW and TSCL, made strand by strand
(R37, R261..R263, R390). -/

namespace Sys2Proof.Machine

/-! An effect that is made once, with a part of the machine. -/

section
variable {s : State} {x : Use}

/-- A weave instruction that neither traps nor waits, and whose one effect changes the crew to `c` apart from its strands and the machine beside
the crews as `g` says. -/
theorem weaves_of_weaveAct_beside {β : Type} {i : Instr} {trap : Site → Option Trap} {hold : Site → Option Wait} {f : Site → State × β}
    {fin : β → Strand → Strand} {none' b : β} {c : Crew} {ls : List Lock} (g : State → State) (ready : s.weaveReady x ls)
    (safe : ∀ k ∈ s.cur.strands, trap ⟨s, s.cur.crew, k, s.crew s.cur.crew, s.reading x k⟩ = none)
    (free : ∀ k ∈ s.cur.strands, hold ⟨s, s.cur.crew, k, s.crew s.cur.crew, s.reading x k⟩ = none)
    (once : ∀ t l, Same s t → f ⟨t, s.cur.crew, s.cur.strands.headD 0, { s.crew s.cur.crew with strand := l }, s.lead x⟩ =
      ((g t).setCrew s.cur.crew { c with strand := l }, b))
    (crews : ∀ t, (g t).crews = t.crews) (beside : ∀ t, Same s t → { g t with crews := [] } = { g s with crews := [] }) :
    Weaves s x (runNext i { use := x, trap := trap, hold := hold, act := weaveAct x f (fun b _ _ => fin b) none' } s) c (fin b) g := by
  obtain ⟨clear, inhabited, -⟩ := ready
  obtain ⟨read, others, same⟩ := weaveRead_spec clear
  have lead := site_reading clear same.1 (head_mem inhabited) (.inr (read _ (head_mem inhabited)))
  rw [same.crew] at lead
  have acts := (weaveAct_eq (f := f) (fin := fin) (none' := none') lead).trans
    (congrArg (fun r : State × β => s.weaveOn r.1 (fin r.2)) (once _ _ same.1))
  have crew (v : Nat) : (g (s.weaveRead x)).crew v = (s.weaveRead x).crew v := congrArg (mget · v) (crews _)
  have kept (v j : Nat) : ((g (s.weaveRead x)).setCrew s.cur.crew { c with strand := ((s.weaveRead x).crew s.cur.crew).strand }).strand v j =
      (s.weaveRead x).strand v j := by
    rw [← crew, strand_setCrew_kept, State.strand, crew, State.strand]
  obtain ⟨gone, rest, after⟩ := weaveOn_spec clear.1
    ((g (s.weaveRead x)).setCrew s.cur.crew { c with strand := ((s.weaveRead x).crew s.cur.crew).strand }) (fin b)
  refine ⟨_, congrArg Host.Outcome.next ((runInstr_clear i _ s inhabited (fun k here => (clear_trapOf clear rfl i here).trans (safe k here))
    (fun k here => (clear_waitOf clear rfl here).trans (free k here))).trans acts), fun k here => ?_, fun j other => ?_, ?_, fun v other => ?_, ?_⟩
  · rw [gone k here, kept, read k here]
  · rw [rest _ _ fun p => other p.2, kept, others _ _ fun p => other p.2]
  · rw [after.1.1, State.crew_setCrew, if_pos rfl]
  · rw [after.2 v other, State.crew_setCrew, if_neg other, crew, same.2 v other]
  · exact after.1.2.trans (beside _ same.1)

end

/-! TZERO, TLD and TST. -/

/-- TZERO (R261). -/
theorem tzero_weaves {s : State} {k : Fin 16} (ready : s.weaveReady (tileUse k) [.tile k.val, .tileRead k.val]) :
    Weaves s (tileUse k) (exec (.tzero k) s) { s.crew s.cur.crew with
      tile := mreplace (s.crew s.cur.crew).tile (tileSize * k.val) tileSize (fun i => if i < 8192 then 0 else 0x7F) } :=
  weaves_of_weaveAct (fin := fun _ st => st) (b := ()) ready (fun _ _ => rfl)
    (fun _ here => lockHold_none ready here (List.Subset.refl _) _) (fun _ _ _ => rfl)

/-- The offsets of TLD and TST are aligned and their bytes lie in the view (R262). -/
def Crew.tileRanges (c : Crew) (o : Nat × Nat) : Prop := o.1 % 64 = 0 ∧ o.2 % 64 = 0 ∧ o.1 + 8192 ≤ c.view ∧ o.2 + 512 ≤ c.view

theorem tileTrap_none {x : Use} {n : Nat} {a : Site} (inside : a.c.tileRanges (tileOffsets (leadSite x a).st n)) : tileTrap x n a = none := by
  obtain ⟨data, scale, dataEnd, scaleEnd⟩ := inside
  simp [tileTrap, data, scale, Nat.not_lt.2 dataEnd, Nat.not_lt.2 scaleEnd]

theorem orWait_none {v w : Option Wait} (hv : v = none) (hw : w = none) : orWait v w = none := by rw [hv, hw]; rfl

/-- An earlier SC store of the strand is acknowledged (R124). -/
theorem orderHold_none {a : Site} (acked : a.st.scHold = true → a.st.unacked = 0) : orderHold a false = none := by
  cases sc : a.st.scHold with
  | false => simp [orderHold, sc]
  | true => simp [orderHold, sc, acked sc]

/-- A FENCE.REL of the strand is satisfied for the buffer (R126). -/
theorem abFenceHold_none {a : Site} (released : a.st.fence % 2 = 1 → ordered a.s a.u a.k 2 = true) : abFenceHold a = none :=
  if_neg fun h => by
    obtain ⟨fenced, waits⟩ := Bool.and_eq_true_iff.1 h
    simp [released (of_decide_eq_true fenced)] at waits

theorem tileDone_of_same {s t : State} (same : Same s t) (core : Nat) : t.tileDone core = s.tileDone core := by
  have clock : t.clock = s.clock := same.alike.field State.clock
  have cores : t.core core = s.core core := same.alike.field (State.core · core)
  rw [State.tileDone, clock, cores, State.tileDone]

/-- TLD and TST: the crew is first as `next` says and then holds the tile while the buffer serves it (R262, R266). -/
theorem tileAb_weaves {s : State} {k : Fin 16} {n : Fin 32} {i : Instr} {ls : List Lock} {hold : Site → Option Wait} (next : Nat × Nat → Crew → Crew)
    (kind : Nat) (body : ∀ o c l, next o { c with strand := l } = { next o c with strand := l })
    (ready : s.weaveReady (tileAbUse k n) ls) (inside : (s.crew s.cur.crew).tileRanges (tileOffsets (s.lead (tileAbUse k n)) n.val))
    (free : ∀ j ∈ s.cur.strands, hold ⟨s, s.cur.crew, j, s.crew s.cur.crew, s.reading (tileAbUse k n) j⟩ = none) :
    let c := s.crew s.cur.crew
    let o := tileOffsets (s.lead (tileAbUse k n)) n.val
    Weaves s (tileAbUse k n)
      (runNext i { use := tileAbUse k n, trap := tileTrap (tileAbUse k n) n.val, hold := hold
                   act := weaveAct (tileAbUse k n) (fun a =>
                     let o := tileOffsets a.st n.val
                     ((a.s.useTileAb a.c.core).setCrew a.u
                       ((next o a.c).useTile k.val kind (weaveOf a.k) o (2 * a.s.tileDone a.c.core)), ())) (fun _ _ _ st => st) () } s)
      ((next o c).useTile k.val kind (weaveOf (s.cur.strands.headD 0)) o (2 * s.tileDone c.core)) (fun st => st) (·.useTileAb c.core) := by
  intro c o
  refine weaves_of_weaveAct_beside (fin := fun _ st => st) (b := ()) (·.useTileAb c.core) ready (fun j _ => tileTrap_none ?_) free
    (fun t l same => ?_) (fun _ => rfl) (fun t same => ?_)
  · rw [leadSite_st ready]
    exact inside
  · show ((t.useTileAb c.core).setCrew _ ((next o { c with strand := l }).useTile k.val kind _ o (2 * t.tileDone c.core)), ()) = _
    rw [body, tileDone_of_same same]
    rfl
  · exact (congrArg (fun r : State => { r.useTileAb c.core with crews := [] }) same.2 :)

/-- TLD (R262). -/
theorem tld_weaves {s : State} {k : Fin 16} {n : Fin 32} :
    let c := s.crew s.cur.crew
    let o := tileOffsets (s.lead (tileAbUse k n)) n.val
    s.weaveReady (tileAbUse k n) [.tile k.val, .tileRead k.val, .bytes o.1 8192, .bytes o.2 512] → c.tileRanges o →
    (∀ j ∈ s.cur.strands, (s.reading (tileAbUse k n) j).scHold = true → (s.reading (tileAbUse k n) j).unacked = 0) →
    Weaves s (tileAbUse k n) (exec (.tld k n) s)
      (({ c with tile := mreplace c.tile (tileSize * k.val) tileSize (fun i =>
          c.abByte (c.abIndex (if i < 8192 then o.1 + i else o.2 + (i - 8192)))) } : Crew).useTile k.val 1 (weaveOf (s.cur.strands.headD 0)) o
        (2 * s.tileDone c.core)) (fun st => st) (·.useTileAb c.core) := by
  intro c o ready inside acked
  refine tileAb_weaves (fun o c => { c with tile := mreplace c.tile (tileSize * k.val) tileSize (fun i =>
    c.abByte (c.abIndex (if i < 8192 then o.1 + i else o.2 + (i - 8192)))) }) 1 (fun _ _ _ => rfl) ready inside fun j here => ?_
  have locks {ls : List Lock} (among : ls ⊆ [.tile k.val, .tileRead k.val, .bytes o.1 8192, .bytes o.2 512]) := lockHold_none ready here among
  refine orWait_none (orWait_none (orderHold_none (acked j here)) rfl) (orWait_none (locks (by simp) _) ?_)
  rw [leadSite_st ready]
  exact locks (List.subset_append_right [Lock.tile k.val, .tileRead k.val] [.bytes o.1 8192, .bytes o.2 512]) _

/-- The crew after the bytes of tile k are written to the buffer (R262). -/
def Crew.tst (c : Crew) (k : Nat) (o : Nat × Nat) : Crew :=
  (c.abWrite o.1 (mflat 0 8192 (c.tileBytes k))).abWrite o.2 (mgetList (c.tileBytes k) 8192 512)

theorem abWrite_abWrite_strand (c : Crew) (o p : Nat) (l m : List Byte) (q : FMap Strand) :
    (({ c with strand := q } : Crew).abWrite o l).abWrite p m = { (c.abWrite o l).abWrite p m with strand := q } := rfl

theorem tst_strand (c : Crew) (k : Nat) (o : Nat × Nat) (q : FMap Strand) :
    ({ c with strand := q } : Crew).tst k o = { c.tst k o with strand := q } :=
  abWrite_abWrite_strand c o.1 o.2 (mflat 0 8192 (c.tileBytes k)) (mgetList (c.tileBytes k) 8192 512) q

theorem abWrite_abWrite_useTile (c : Crew) (p q : Nat) (l m : List Byte) (k kind w due : Nat) (o : Nat × Nat) :
    ((c.abWrite p l).abWrite q m).useTile k kind w o due =
      { (c.abWrite p l).abWrite q m with
        tileBusy := mset c.tileBusy k { kind := kind, weave := w, data := o.1, scale := o.2, due := due } } := rfl

theorem tst_useTile (c : Crew) (k kind w due : Nat) (o : Nat × Nat) :
    (c.tst k o).useTile k kind w o due =
      { (c.abWrite o.1 (mflat 0 8192 (c.tileBytes k))).abWrite o.2 (mgetList (c.tileBytes k) 8192 512) with
        tileBusy := mset c.tileBusy k { kind := kind, weave := w, data := o.1, scale := o.2, due := due } } :=
  abWrite_abWrite_useTile c ..

/-- TST (R262). -/
theorem tst_weaves {s : State} {k : Fin 16} {n : Fin 32} :
    let c := s.crew s.cur.crew
    let o := tileOffsets (s.lead (tileAbUse k n)) n.val
    s.weaveReady (tileAbUse k n) [.tile k.val, .bytes o.1 8192, .bytes o.2 512] → c.tileRanges o →
    (∀ j ∈ s.cur.strands, (s.reading (tileAbUse k n) j).scHold = true → (s.reading (tileAbUse k n) j).unacked = 0) →
    (∀ j ∈ s.cur.strands, (s.reading (tileAbUse k n) j).fence % 2 = 1 → ordered s s.cur.crew j 2 = true) →
    Weaves s (tileAbUse k n) (exec (.tst k n) s)
      ((c.tst k.val o).useTile k.val 2
        (weaveOf (s.cur.strands.headD 0)) o (2 * s.tileDone c.core)) (fun st => st) (·.useTileAb c.core) := by
  intro c o ready inside acked released
  refine tileAb_weaves (fun o c => c.tst k.val o) 2 (fun o c => tst_strand c k.val o) ready inside fun j here => ?_
  have locks {ls : List Lock} (among : ls ⊆ [.tile k.val, .bytes o.1 8192, .bytes o.2 512]) := lockHold_none ready here among
  refine orWait_none (orWait_none (orderHold_none (acked j here)) (abFenceHold_none (released j here))) (orWait_none (locks (by simp) _) ?_)
  rw [leadSite_st ready]
  exact locks (List.subset_append_right [Lock.tile k.val] [.bytes o.1 8192, .bytes o.2 512]) _

/-! TMOV, TMOVW and TSCL. -/

/-- The change of a crew looks at its tiles and changes them alone. -/
def TileOnly (f : Crew → Crew) : Prop := ∃ w : FMap Byte → FMap Byte, ∀ c, f c = { c with tile := w c.tile }

theorem TileOnly.foldl {β : Type} {h : Crew → β → Crew} (each : ∀ b, TileOnly (fun c => h c b)) : ∀ l : List β, TileOnly (fun c => l.foldl h c)
  | [] => ⟨id, fun _ => rfl⟩
  | b :: l => by
    obtain ⟨w, first⟩ := each b
    obtain ⟨v, rest⟩ := TileOnly.foldl each l
    exact ⟨v ∘ w, fun c => (congrArg (l.foldl h) (first c)).trans (rest _)⟩

theorem TileOnly.strand {f : Crew → Crew} (h : TileOnly f) (c : Crew) : (f c).strand = c.strand := by
  obtain ⟨w, eq⟩ := h
  rw [eq]

theorem TileOnly.body {f : Crew → Crew} (h : TileOnly f) {c d : Crew} (same : c.body = d.body) : (f c).body = (f d).body := by
  obtain ⟨w, eq⟩ := h
  rw [eq, eq]
  exact (congrArg (fun c : Crew => ({ c with tile := w c.tile } : Crew)) same :)

theorem foldl_body {β : Type} {next : Crew → β → Crew} (each : ∀ b {c d : Crew}, c.body = d.body → (next c b).body = (next d b).body) :
    ∀ (l : List β) {c d : Crew}, c.body = d.body → (l.foldl next c).body = (l.foldl next d).body
  | [], _, _, same => same
  | b :: l, _, _, same => foldl_body each l (each b same)

/-- An effect in each strand in turn, by which the crew is as `next` says and the strand goes on as it reads. -/
theorem eachStrand_next {s : State} {x : Use} {f : Site → State} {next : Crew → Nat → Crew} (clear : s.clear x)
    (tiles : ∀ k, TileOnly (fun c => next c k))
    (acts : ∀ t k, f ⟨t, s.cur.crew, k, t.crew s.cur.crew, s.reading x k⟩ =
      t.setCrew s.cur.crew ((next (t.crew s.cur.crew) k).setSt k (s.reading x k).seq)) :
    ∀ (ks : List Nat) (t : State), ks.Nodup → ks ⊆ s.cur.strands → t.results = s.results →
      (∀ k ∈ ks, t.strand s.cur.crew k = s.strand s.cur.crew k) →
      let r := eachStrand x f t s.cur.crew ks
      (∀ k ∈ ks, r.strand s.cur.crew k = (s.reading x k).seq) ∧ (∀ j, j ∉ ks → r.strand s.cur.crew j = t.strand s.cur.crew j) ∧
        (r.crew s.cur.crew).body = (ks.foldl next (t.crew s.cur.crew)).body ∧ (∀ v, v ≠ s.cur.crew → r.crew v = t.crew v) ∧
        { r with crews := [] } = { t with crews := [] }
  | [], _, _, _, _, _ => ⟨by simp, fun _ _ => rfl, rfl, fun _ _ => rfl, rfl⟩
  | k :: ks, t, nd, here, results, own => by
    obtain ⟨new, nd⟩ := List.nodup_cons.1 nd
    obtain ⟨mem, here⟩ := List.cons_subset.1 here
    have site : t.site s.cur.crew k x.reads = some ⟨t, s.cur.crew, k, t.crew s.cur.crew, s.reading x k⟩ := by
      have first := own k List.mem_cons_self
      rw [site_some (by rw [first, deliver_congr results]; exact (clear.2 k mem).2.2), first, deliver_congr results]
      rfl
    have one : eachStrand x f t s.cur.crew (k :: ks) =
        eachStrand x f (t.setCrew s.cur.crew ((next (t.crew s.cur.crew) k).setSt k (s.reading x k).seq)) s.cur.crew ks := by
      simp only [eachStrand, List.foldl_cons, site, acts]
    rw [one]
    generalize ht : t.setCrew s.cur.crew ((next (t.crew s.cur.crew) k).setSt k (s.reading x k).seq) = t1
    have strand (j : Nat) : t1.strand s.cur.crew j = if j = k then (s.reading x k).seq else t.strand s.cur.crew j := by
      rw [← ht, State.strand_setCrew, if_pos rfl, Crew.st_setSt]
      exact if_congr Iff.rfl rfl (congrArg (mget · j) ((tiles k).strand _))
    have crew : (t1.crew s.cur.crew).body = (next (t.crew s.cur.crew) k).body := by
      rw [← ht, State.crew_setCrew, if_pos rfl]
      rfl
    obtain ⟨gone, rest, made, others, machine⟩ := eachStrand_next clear tiles acts ks t1 nd here (by rw [← ht]; exact results)
      fun j mem => by
        rw [strand, if_neg (ne_of_mem_of_not_mem mem new)]
        exact own j (List.mem_cons_of_mem k mem)
    refine ⟨fun j mem => ?_, fun j other => ?_, ?_, fun v other => ?_, ?_⟩
    · by_cases last : j ∈ ks
      · exact gone j last
      · obtain rfl := (List.mem_cons.1 mem).resolve_right last
        rw [rest j last, strand, if_pos rfl]
    · obtain ⟨apart, later⟩ := List.ne_and_not_mem_of_not_mem_cons other
      rw [rest j later, strand, if_neg apart]
    · exact made.trans (foldl_body (fun k => (tiles k).body) ks crew)
    · rw [others v other, ← ht, State.crew_setCrew, if_neg other]
    · rw [machine, ← ht]
      rfl

/-- A weave instruction on the tiles that neither traps nor waits and acts in each strand in turn (R263). -/
theorem weaves_of_eachStrand {s : State} {x : Use} {i : Instr} {ls : List Lock} {f : Site → State} {next : Crew → Nat → Crew}
    (ready : s.weaveReady x ls) (tiles : ∀ k, TileOnly (fun c => next c k))
    (acts : ∀ t k, f ⟨t, s.cur.crew, k, t.crew s.cur.crew, s.reading x k⟩ =
      t.setCrew s.cur.crew ((next (t.crew s.cur.crew) k).setSt k (s.reading x k).seq)) :
    Weaves s x (runNext i { use := x, hold := fun a => lockHold a ls, act := eachStrand x f } s)
      (s.cur.strands.foldl next (s.crew s.cur.crew)) := by
  have runs := runInstr_acts (i := i) (m := { use := x, hold := fun a => lockHold a ls, act := eachStrand x f }) ready.1 rfl rfl
    (fun _ _ => rfl) (fun k here => lockHold_none ready here (List.Subset.refl ls) _)
  obtain ⟨gone, rest, crew, others, machine⟩ :=
    eachStrand_next ready.1 tiles acts s.cur.strands s ready.1.1 (List.Subset.refl _) rfl fun _ _ => rfl
  exact ⟨_, congrArg Host.Outcome.next runs, gone, rest, crew, others, machine⟩

theorem tileOnly_tileWord (k r w : Nat) (x : Word) : TileOnly (fun c => c.tileWord k r w x) :=
  ⟨fun m => msetList m (tileSize * k + 64 * r + 4 * w) (leBytes 4 x.toNat), fun _ => rfl⟩

/-- What strand k of TMOV and TMOVW writes, threads ascending (R263). -/
def tmovNext (f : FTile) (wide : Bool) (st : Strand) (c : Crew) (k : Nat) : Crew :=
  (List.range 32).foldl (fun (c : Crew) t =>
    let p := tmovPlace wide f.rc (sliceIndex st f.x.val f.n.val) (32 * sidOf k + t)
    (List.range (if wide then 4 else 1)).foldl (fun (c : Crew) j =>
      c.tileWord f.k.val p.1 (p.2 + j) (if wide then st.srcAt f.d j t else st.src f.d t)) c) c

theorem tileOnly_tmovNext (f : FTile) (wide : Bool) (st : Strand) (k : Nat) : TileOnly (fun c => tmovNext f wide st c k) :=
  TileOnly.foldl (fun _ => TileOnly.foldl (fun _ => tileOnly_tileWord ..) _) _

/-- TMOV (R263). -/
theorem tmov_weaves {s : State} {f : FTile} (ready : s.weaveReady (tmovUse f) [.tile f.k.val, .tileRead f.k.val]) :
    Weaves s (tmovUse f) (exec (.tmov f) s)
      (s.cur.strands.foldl (fun c k => tmovNext f false (s.reading (tmovUse f) k) c k) (s.crew s.cur.crew)) :=
  weaves_of_eachStrand ready (fun _ => tileOnly_tmovNext ..) (fun _ _ => rfl)

/-- TMOVW (R263). -/
theorem tmovw_weaves {s : State} {f : FTile} (ready : s.weaveReady (tmovwUse f) [.tile f.k.val, .tileRead f.k.val]) :
    Weaves s (tmovwUse f) (exec (.tmovw f) s)
      (s.cur.strands.foldl (fun c k => tmovNext f true (s.reading (tmovwUse f) k) c k) (s.crew s.cur.crew)) :=
  weaves_of_eachStrand ready (fun _ => tileOnly_tmovNext ..) (fun _ _ => rfl)

/-- What TSCL names. -/
abbrev tsclUse (d : Opnd) (k : Fin 16) (r : Fin 32) : Use := { src := [d], bad := tileBad k.val, weave := true, sr := [r.val] }

/-- What strand j of TSCL writes, threads ascending (R263). -/
def tsclNext (d : Opnd) (k r n : Nat) (st : Strand) (c : Crew) (j : Nat) : Crew :=
  (List.range 32).foldl (fun (c : Crew) t =>
    let row := (sliceIndex st r n + (32 * sidOf j + t)) % 128
    { c with tile := msetList c.tile (tileSize * k + 8192 + 4 * row) (leBytes 4 (st.src d t).toNat) }) c

/-- TSCL (R263). -/
theorem tscl_weaves {s : State} {d : Opnd} {k : Fin 16} {r : Fin 32} {n : Fin 16}
    (ready : s.weaveReady (tsclUse d k r) [.tile k.val, .tileRead k.val]) :
    Weaves s (tsclUse d k r) (exec (.tscl d k r n) s)
      (s.cur.strands.foldl (fun c j => tsclNext d k.val r.val n.val (s.reading (tsclUse d k r) j) c j) (s.crew s.cur.crew)) :=
  weaves_of_eachStrand ready
    (fun _ => TileOnly.foldl (fun _ => ⟨fun m => msetList m _ _, fun _ => rfl⟩) _) (fun _ _ => rfl)

end Sys2Proof.Machine

open Sys2Proof Sys2Proof.Machine

/-- Settles O32: TZERO, TLD and TST have one effect, made from the lowest strand, by `weaves_of_weaveAct` and `tileAb_weaves`; TMOV, TMOVW and TSCL
write in each strand in turn, by `weaves_of_eachStrand`. -/
theorem tileInstructions : Obligations.TileInstructions :=
  fun s =>
    ⟨fun _ => tzero_weaves,
      fun k _ data scale dataEnd scaleEnd acked =>
        ⟨fun ready => tld_weaves ready ⟨data, scale, dataEnd, scaleEnd⟩ acked,
          fun ready released => by
            have stored := tst_weaves ready ⟨data, scale, dataEnd, scaleEnd⟩ acked released
            rw [tst_useTile] at stored
            generalize mflat 0 8192 ((s.crew s.cur.crew).tileBytes k.val) = bytes at stored ⊢
            exact stored⟩,
      fun _ => ⟨tmov_weaves, tmovw_weaves⟩, fun _ _ _ _ => tscl_weaves⟩
end

section
/-! The requests that wait at the home of a line, and the step by which one of them is answered or takes its place (R95, R110, R354). -/

namespace Sys2Proof.Machine

/-! Canonical tables. -/

theorem mem_iff_mget {α : Type} [Inhabited α] [DecidableEq α] {m : FMap α} (wf : mwf m = true) {e : Nat × α} :
    e ∈ m ↔ mget m e.1 = e.2 ∧ e.2 ≠ default := by
  refine ⟨fun mem => ⟨mget_mem m 0 e wf mem, (mwfAbove_mem m 0 e wf mem).2⟩, fun ⟨read, named⟩ => ?_⟩
  have mem := mem_of_mget m e.1 (read ▸ named)
  rwa [read] at mem

theorem nodup_of_mwf {α : Type} [Inhabited α] [DecidableEq α] {m : FMap α} (wf : mwf m = true) : m.Nodup :=
  (nodup_mkeys m 0 wf).of_map _

/-! The queue of a line. -/

/-- An entry of the table of homes waits at a line. -/
def waitsAt (line : Nat) (e : Nat × Req) : Bool := decide (e.2.kind ≠ .none) && decide (e.2.pa = line)

theorem foldl_insert_perm {α : Type} (p : α → α → Bool) : ∀ l acc : List α,
    (l.foldl (fun l e => l.takeWhile (p e) ++ [e] ++ l.dropWhile (p e)) acc).Perm (acc ++ l)
  | [], acc => by rw [List.append_nil]; exact .refl _
  | e :: l, acc => by
    refine (foldl_insert_perm p l _).trans ?_
    have one : (acc.takeWhile (p e) ++ [e] ++ acc.dropWhile (p e)).Perm (acc ++ [e]) := by
      rw [List.append_assoc]
      refine (List.Perm.append_left _ List.perm_append_comm).trans ?_
      rw [← List.append_assoc, List.takeWhile_append_dropWhile]
    simpa using one.append_right l

theorem waitingAt_perm (s : State) (line : Nat) : (s.waitingAt line).Perm (s.home.filter (waitsAt line)) :=
  foldl_insert_perm (fun (e x : Nat × Req) => decide (x.2.stamp ≤ e.2.stamp)) (s.home.filter (waitsAt line)) []

theorem mem_waitingAt {s : State} (wf : mwf s.home = true) {line : Nat} {e : Nat × Req} :
    e ∈ s.waitingAt line ↔ mget s.home e.1 = e.2 ∧ e.2.kind ≠ .none ∧ e.2.pa = line := by
  rw [(waitingAt_perm s line).mem_iff, List.mem_filter, mem_iff_mget wf, waitsAt, Bool.and_eq_true, decide_eq_true_eq, decide_eq_true_eq, and_assoc]
  exact and_congr_right fun _ => and_iff_right_of_imp fun waits free => waits.1 (congrArg Req.kind free)

theorem nodup_waitingAt {s : State} (wf : mwf s.home = true) (line : Nat) : (s.waitingAt line).Nodup :=
  (waitingAt_perm s line).nodup_iff.2 ((nodup_of_mwf wf).filter _)

/-- Nobody but request k waits at a line. -/
def State.onlyAt (s : State) (k line : Nat) : Prop := ∀ e ∈ s.waitingAt line, e.1 = k

theorem onlyAt_of_nil {s : State} {line : Nat} (h : s.waitingAt line = []) (k : Nat) : s.onlyAt k line := by simp [State.onlyAt, h]

theorem onlyAt_of_single {s : State} {line k : Nat} {r : Req} (h : s.waitingAt line = [(k, r)]) : s.onlyAt k line := by simp [State.onlyAt, h]

/-- Who waits at the line once the place of the only one there is replaced. -/
theorem waitingAt_mset {s t : State} (wf : mwf s.home = true) {k line : Nat} (only : s.onlyAt k line) {r : Req} (home : t.home = mset s.home k r) :
    t.waitingAt line = if r.kind ≠ .none ∧ r.pa = line then [(k, r)] else [] := by
  have wf' : mwf t.home = true := home ▸ mwf_mset _ _ _ wf
  have mem (e : Nat × Req) : e ∈ t.waitingAt line ↔ e = (k, r) ∧ r.kind ≠ .none ∧ r.pa = line := by
    rw [mem_waitingAt wf', home, mget_mset]
    by_cases own : e.1 = k
    · rw [if_pos own]
      constructor
      · rintro ⟨rfl, waits⟩
        exact ⟨Prod.ext own rfl, waits⟩
      · rintro ⟨rfl, waits⟩
        exact ⟨rfl, waits⟩
    · rw [if_neg own]
      exact ⟨fun waits => absurd (only e ((mem_waitingAt wf).2 waits)) own, fun same => absurd (congrArg Prod.fst same.1) own⟩
  split
  · rename_i waits
    have all : t.waitingAt line = List.replicate (t.waitingAt line).length (k, r) :=
      List.eq_replicate_of_mem fun e he => ((mem e).1 he).1
    have some : (k, r) ∈ t.waitingAt line := (mem _).2 ⟨rfl, waits⟩
    have one : (t.waitingAt line).length ≤ 1 := List.nodup_replicate.1 (all ▸ nodup_waitingAt wf' line)
    have pos : 0 < (t.waitingAt line).length := List.length_pos_of_mem some
    rw [all, show (t.waitingAt line).length = 1 by omega]
    rfl
  · rename_i free
    exact List.eq_nil_iff_forall_not_mem.2 fun e he => free ((mem e).1 he).2

/-! Answers. -/

/-- A request of this device is answered (R354). -/
theorem respond_own {s : State} {r : Req} (own : r.dev = s.dev) (k : Nat) :
    s.respond k r = { s with net := mset s.net k default, home := mset s.home k default, back := mset s.back k { r with readyAt := 0 } } :=
  if_pos own

theorem answered_respond {s : State} {r : Req} (own : r.dev = s.dev) (k : Nat) : Answered (s.respond k r) k { r with readyAt := 0 } := by
  rw [respond_own own]
  exact ⟨mget_mset_same .., mget_mset_same .., mget_mset_same ..⟩

/-- The machine apart from its requests. -/
def State.beyondRequests (s : State) : State := { s with net := [], home := [], back := [] }

theorem beyondRequests_respond {s : State} {r : Req} (own : r.dev = s.dev) (k : Nat) : (s.respond k r).beyondRequests = s.beyondRequests := by
  rw [respond_own own]
  rfl

/-- The answered request waits no more. -/
theorem waitingAt_respond {s : State} (wf : mwf s.home = true) {k line : Nat} (only : s.onlyAt k line) {r : Req} (own : r.dev = s.dev) :
    (s.respond k r).waitingAt line = [] :=
  (waitingAt_mset wf only (by rw [respond_own own])).trans (if_neg fun waits => waits.1 rfl)

end Sys2Proof.Machine
end

section
/-! Loads at their home (R94, R96, R110, R116, R375). -/

namespace Sys2Proof.Machine

section
variable {s : State} {k : Nat} {r : Req}

/-- A load that finds nothing waiting is served at once (R96). -/
theorem loadAtHome_serves (request : mget s.net k = r) (kind : r.kind = .load) (arrives : s.arrives k r = true) (free : s.waitingAt r.pa = []) :
    exec (.loadAtHome k) s = .next ((s.touchSlice r).serveLoad k r) := by simp [execLoadAtHome, request, kind, arrives, free]

theorem serveLoad_poisoned (bad : s.poisoned r.pa = true) : s.serveLoad k r = s.respond k { r with fail := cDataError, vals := [] } := if_pos bad

theorem serveLoad_last (clean : s.poisoned r.pa = false) (last : r.last = true) :
    s.serveLoad k r = (s.grantLease r).respond k { r with vals := s.loadVals r } := by simp [State.serveLoad, clean, last]

theorem serveLoad_half (clean : s.poisoned r.pa = false) (first : r.last = false) :
    s.serveLoad k r = s.keepHalf k { r with vals := s.loadVals r, half := true } := by simp [State.serveLoad, clean, first]

theorem last_of_whole (whole : r.splits = false) : r.last = true := by simp [Req.last, whole]

theorem last_of_second (second : r.half = true) : r.last = true := by simp [Req.last, second]

theorem last_of_first (wide : r.splits = true) (first : r.half = false) : r.last = false := by simp [Req.last, wide, first]

/-- A lease leaves all but the leases and the lines of L1. -/
theorem grantLease_frame (s : State) (r : Req) : { s.grantLease r with lease := [], l1 := [] } = { s with lease := [], l1 := [] } := by
  unfold State.grantLease
  split <;> rfl

theorem grantLease_mem (s : State) (r : Req) : (s.grantLease r).mem = s.mem := (congrArg State.mem (grantLease_frame s r) :)

theorem grantLease_dev (s : State) (r : Req) : (s.grantLease r).dev = s.dev := (congrArg State.dev (grantLease_frame s r) :)

/-- A load with the hint of no lease takes none (R94). -/
theorem grantLease_hint (none : r.hint = 2) : s.grantLease r = s := by simp [State.grantLease, none]

/-- The lease that a load takes (R94, R96). -/
theorem grantLease_lease (own : r.dev = s.dev) (wants : r.hint ≠ 2) (free : s.writeWaits r.pa = false) :
    mget (s.grantLease r).lease r.pa = max (mget s.lease r.pa) (s.ltime + leaseTicks r.hint) := by
  have grants : (decide (r.dev = s.dev) && decide (r.hint ≠ 2) && !s.writeWaits r.pa) = true := by simp [own, wants, free]
  unfold State.grantLease
  rw [if_pos grants]
  exact mget_mset_same ..

/-- A load that performs whole, or its second halves (R110, R116). -/
theorem serveLoad_answers (clean : s.poisoned r.pa = false) (last : r.last = true) (own : r.dev = s.dev) :
    let t := s.serveLoad k r
    t.mem = s.mem ∧ Answered t k { r with readyAt := 0, vals := s.loadVals r } ∧
    (r.hint ≠ 2 → s.writeWaits r.pa = false → mget t.lease r.pa = max (mget s.lease r.pa) (s.ltime + leaseTicks r.hint)) ∧
    (r.hint = 2 → t.lease = s.lease ∧ t.l1 = s.l1) := by
  have here : ({ r with vals := s.loadVals r } : Req).dev = (s.grantLease r).dev := own.trans (grantLease_dev s r).symm
  intro t
  have answer : t = (s.grantLease r).respond k { r with vals := s.loadVals r } := serveLoad_last clean last
  rw [answer]
  have rest := beyondRequests_respond here k
  refine ⟨(congrArg State.mem rest :).trans (grantLease_mem s r), answered_respond here k, fun wants free => ?_, fun none => ?_⟩
  · exact (congrArg (fun t : State => mget t.lease r.pa) rest :).trans (grantLease_lease own wants free)
  · rw [grantLease_hint none] at rest ⊢
    exact ⟨(congrArg State.lease rest :), (congrArg State.l1 rest :)⟩

/-- What a load reads that performs whole, or in its first halves (R110, R116). -/
theorem loadVals_first (first : r.half = false) :
    s.loadVals r = r.accs.map (fun x => (x.thread, s.accessValue r.pa (r.piece x))) := by simp [State.loadVals, first]

theorem loadVals_whole (whole : r.splits = false) : s.loadVals r = r.accs.map (fun x => (x.thread, s.accessValue r.pa x)) := by
  simp [State.loadVals, Req.piece, whole]

/-- The second half of a load joins the first (R116). -/
theorem loadVals_second (wide : r.splits = true) (second : r.half = true) {x : Access} {v : BitVec 128} (accs : r.accs = [x])
    (vals : r.vals = [(x.thread, v)]) : s.loadVals r = [(x.thread, v ||| (s.accessValue r.pa (r.piece x) <<< 64))] := by
  simp [State.loadVals, wide, second, accs, vals]

/-- A request whose first halves have performed keeps its place (R116). -/
theorem keepHalf_spec (s : State) (k : Nat) (r : Req) :
    let t := s.keepHalf k r
    t.mem = s.mem ∧ t.back = s.back ∧ t.lease = s.lease ∧ (mget t.net k = r ∨ mget t.home k = r) := by
  intro t
  simp only [t, State.keepHalf]
  split
  · exact ⟨rfl, rfl, rfl, .inr (mget_mset_same ..)⟩
  · exact ⟨rfl, rfl, rfl, .inl (mget_mset_same ..)⟩

end
end Sys2Proof.Machine
end

section
/-! Writes and atomics at their home, and the end of a lease (R95, R113, R116, R117, R235). -/

namespace Sys2Proof.Machine

/-! Bytes of memory. -/

/-- The low bytes of a number depend on its low digits alone. -/
theorem leBytes_mod (n v : Nat) : leBytes n (v % 256 ^ n) = leBytes n v := by
  have back := leBytes_leNat (leBytes n v)
  rwa [leBytes_length, leNat_leBytes] at back

theorem holds_of_mem {s t : State} {lo n v : Nat} (mem : t.mem = msetList s.mem lo (leBytes n v)) : Holds s t lo n v := by
  rw [Holds, mem]
  refine ⟨fun i low => ?_, fun a out => mget_msetList_out _ _ _ _ (by rwa [leBytes_length])⟩
  have byte : i < (leBytes n v).length := by rwa [leBytes_length]
  rw [mget_msetList_in _ _ _ _ byte, leBytes_getElem _ _ _ byte]

/-- Memory that is as before holds what is read there. -/
theorem holds_read {s t : State} (mem : t.mem = s.mem) (lo n : Nat) : Holds s t lo n (s.rdNat lo n) := by
  rw [Holds, mem]
  refine ⟨fun i low => ?_, fun _ _ => rfl⟩
  have bytes : leBytes n (s.rdNat lo n) = mgetList s.mem lo n := by simpa [State.rdNat, State.rdBytes] using leBytes_leNat (mgetList s.mem lo n)
  have byte : i < (leBytes n (s.rdNat lo n)).length := by rwa [leBytes_length]
  rw [← leBytes_getElem _ _ _ byte]
  simp [bytes, mgetList]

/-! The queue of the line. -/

section
variable {s : State} {k line n : Nat} {r : Req}

theorem drainLine_nil (free : s.waitingAt line = []) : ∀ n, s.drainLine line n = s
  | 0 => rfl
  | n + 1 => by rw [State.drainLine, free]

/-- Stores and atomics. -/
def ReqKind.writes (x : ReqKind) : Prop := x = .store ∨ ∃ a, x = .atomic a ∨ x = .atomicW a

theorem ReqKind.writes.ne {x y : ReqKind} (h : x.writes) (hy : y = .none ∨ y = .load ∨ y = .hold) : x ≠ y := by
  rcases h with rfl | ⟨a, rfl | rfl⟩ <;> rcases hy with rfl | rfl | rfl <;> simp

/-- A write at the head of a line's queue that may not perform waits (R95). -/
theorem drainLine_waits (head : s.waitingAt line = [(k, r)]) (kind : r.kind.writes) (held : s.writeFree r = false) :
    s.drainLine line (n + 1) = s := by
  rw [State.drainLine, head]
  simp [kind.ne (y := .hold), kind.ne (y := .load), held]

/-- A write at the head of a line's queue that performs whole, or its second halves (R95, R116). -/
theorem drainLine_performs (head : s.waitingAt line = [(k, r)]) (kind : r.kind.writes) (free : s.writeFree r = true) (last : r.last = true)
    (empty : (s.performWrite k r).waitingAt line = []) : s.drainLine line (n + 1) = s.performWrite k r := by
  rw [State.drainLine, head]
  simp [kind.ne (y := .hold), kind.ne (y := .load), free, last, drainLine_nil empty]

/-- A write at the head of a line's queue of which the first halves perform (R116). -/
theorem drainLine_half (head : s.waitingAt line = [(k, r)]) (kind : r.kind.writes) (free : s.writeFree r = true) (first : r.last = false)
    (clean : s.poisoned line = false) : s.drainLine line (n + 1) = s.performWrite k r := by
  rw [State.drainLine, head]
  simp [kind.ne (y := .hold), kind.ne (y := .load), free, first, clean]

end

/-! One access that performs. -/

section
variable {s : State} {k : Nat} {r : Req} {x : Access}

/-- The machine after bytes are written in a line whose count rises (R117). -/
def State.lineWrite (s : State) (line off : Nat) (l : List Byte) : State := (s.wrBytes (line + off) l).bumpSeq line

theorem lineWrite_mem (s : State) (line off : Nat) (l : List Byte) : (s.lineWrite line off l).mem = msetList s.mem (line + off) l := rfl

theorem lineWrite_seqs (s : State) (line off : Nat) (l : List Byte) :
    (s.lineWrite line off l).seqs = mset s.seqs (lineOf line) (mget s.seqs (lineOf line) + 1) := rfl

theorem lineWrite_home (s : State) (line off : Nat) (l : List Byte) : (s.lineWrite line off l).home = s.home := rfl

theorem lineWrite_dev (s : State) (line off : Nat) (l : List Byte) : (s.lineWrite line off l).dev = s.dev := rfl

/-- A store of one access that performs whole, or its second half (R113, R116, R117). -/
theorem performWrite_store (clean : s.poisoned r.pa = false) (kind : r.kind = .store) (accs : r.accs = [x]) (last : r.last = true) (k : Nat) :
    ∃ v : Req, s.performWrite k r =
        (s.lineWrite r.pa (r.piece x).off (leBytes (r.piece x).size (r.piece x).data.toNat)).respond k v ∧
      v.dev = r.dev ∧ v.fail = r.fail := by
  let t := s.lineWrite r.pa (r.piece x).off (leBytes (r.piece x).size (r.piece x).data.toNat)
  refine ⟨{ r with tags := if r.tag then [((r.piece x).thread, (mget t.seqs r.pa).toNat)] else [] }, ?_, rfl, rfl⟩
  simp [State.performWrite, clean, kind, accs, last, storeStep, t, State.lineWrite]

/-- The first half of a store of one access (R116). -/
theorem performWrite_half (clean : s.poisoned r.pa = false) (kind : r.kind = .store) (accs : r.accs = [x]) (first : r.last = false) :
    s.performWrite k r =
      (s.wrBytes (r.pa + (r.piece x).off) (leBytes (r.piece x).size (r.piece x).data.toNat)).keepHalf k { r with half := true } := by
  simp [State.performWrite, clean, kind, accs, first, storeStep]

/-- The machine after one access of an atomic: unchanged, or the bytes and the count of the line (R117, R235). -/
def State.atomicWrite (s : State) (line : Nat) (x : Access) (n : Nat) : State :=
  if n = s.rdNat (line + x.off) x.size then s else s.lineWrite line x.off (leBytes x.size n)

theorem atomicRun_single {n : Nat} (accs : r.accs = [x]) (new : atomicNew r.kind (s.rdNat (r.pa + x.off) x.size) x = n) :
    s.atomicRun r = (s.atomicWrite r.pa x n, [(x.thread, BitVec.ofNat 128 (s.rdNat (r.pa + x.off) x.size))],
      [(x.thread, (mget (s.atomicWrite r.pa x n).seqs r.pa).toNat)]) := by
  subst new
  simp only [State.atomicRun, accs, List.foldl_cons, List.foldl_nil, atomicStep, State.atomicWrite, State.lineWrite, List.nil_append]

/-- An atomic of one access changes nothing just when its new value is the old one (R235). -/
theorem changesNothing_iff {n : Nat} (accs : r.accs = [x]) (new : atomicNew r.kind (s.rdNat (r.pa + x.off) x.size) x = n) :
    s.changesNothing r = true ↔ n = s.rdNat (r.pa + x.off) x.size := by
  rw [State.changesNothing, decide_eq_true_eq, atomicRun_single accs new]
  dsimp only
  rw [State.atomicWrite]
  by_cases same : n = s.rdNat (r.pa + x.off) x.size
  · simp [same]
  · rw [if_neg same]
    refine iff_of_false (fun kept => ?_) same
    have count := congrArg (mget · (lineOf r.pa)) kept
    simp [lineWrite_seqs] at count

theorem performWrite_atomic {n : Nat} (clean : s.poisoned r.pa = false) (kind : ∃ a, r.kind = .atomic a ∨ r.kind = .atomicW a)
    (accs : r.accs = [x]) (new : atomicNew r.kind (s.rdNat (r.pa + x.off) x.size) x = n) (k : Nat) :
    ∃ v : Req, s.performWrite k r = (s.atomicWrite r.pa x n).respond k v ∧ v.dev = r.dev ∧
      v.vals = [(x.thread, BitVec.ofNat 128 (s.rdNat (r.pa + x.off) x.size))] := by
  refine ⟨{ r with vals := [(x.thread, BitVec.ofNat 128 (s.rdNat (r.pa + x.off) x.size))]
                   tags := if r.tag then [(x.thread, (mget (s.atomicWrite r.pa x n).seqs r.pa).toNat)] else [] }, ?_, rfl, rfl⟩
  obtain ⟨a, kind | kind⟩ := kind <;> simp [State.performWrite, clean, kind, atomicRun_single accs new]

/-- An atomic may perform without a lease in force, or where it changes nothing (R95, R235). -/
theorem writeFree_atomic (clean : s.poisoned r.pa = false) (kind : ∃ a, r.kind = .atomic a ∨ r.kind = .atomicW a) :
    s.writeFree r = (s.leaseFree r.pa || s.changesNothing r) := by
  obtain ⟨a, kind | kind⟩ := kind <;> simp [State.writeFree, clean, kind]

theorem writeFree_store (clean : s.poisoned r.pa = false) (kind : r.kind = .store) : s.writeFree r = s.leaseFree r.pa := by
  simp [State.writeFree, clean, kind]

theorem atomicWrite_frame (line n : Nat) : { s.atomicWrite line x n with mem := [], seqs := [] } = { s with mem := [], seqs := [] } := by
  unfold State.atomicWrite
  split <;> rfl

/-- The bytes at the access hold the new value, changed or not. -/
theorem holds_atomicWrite (line n : Nat) : Holds s (s.atomicWrite line x n) (line + x.off) x.size n := by
  unfold State.atomicWrite
  split
  · rename_i same
    exact same ▸ holds_read rfl ..
  · exact holds_of_mem (lineWrite_mem ..)

end
end Sys2Proof.Machine
end

section
/-! The steps of loads, writes, atomics and leases at their home (R95, R96, R110, R113, R116, R117, R235, R375). -/

namespace Sys2Proof.Machine

section
variable {s : State} {k : Nat} {r : Req} {x : Access}

/-! Loads. -/

theorem loadAtHome_whole (kind : r.kind = .load) (free : s.homeFree k r) (whole : r.splits = false) :
    Answers (exec (.loadAtHome k) s) (fun t => t.mem = s.mem ∧
      Answered t k { r with readyAt := 0, vals := r.accs.map (fun x => (x.thread, s.accessValue r.pa x)) } ∧
      (r.hint ≠ 2 → s.writeWaits r.pa = false → mget t.lease r.pa = max (mget s.lease r.pa) (s.ltime + leaseTicks r.hint)) ∧
      (r.hint = 2 → t.lease = s.lease ∧ t.l1 = s.l1)) := by
  obtain ⟨-, request, arrives, nobody, clean, own⟩ := free
  have served := serveLoad_answers (s := s.touchSlice r) (k := k) clean (last_of_whole whole) own
  rw [loadVals_whole whole] at served
  exact ⟨_, loadAtHome_serves request kind arrives nobody, served⟩

theorem loadAtHome_first (kind : r.kind = .load) (free : s.homeFree k r) (wide : r.splits = true) (first : r.half = false) :
    Answers (exec (.loadAtHome k) s) (fun t => t.mem = s.mem ∧ t.back = s.back ∧ t.lease = s.lease ∧
      let n := { r with half := true, vals := r.accs.map (fun x => (x.thread, s.accessValue r.pa (r.piece x))) }
      (mget t.net k = n ∨ mget t.home k = n)) := by
  obtain ⟨-, request, arrives, nobody, clean, -⟩ := free
  have served := serveLoad_half (s := s.touchSlice r) (k := k) clean (last_of_first wide first)
  rw [loadVals_first first] at served
  refine ⟨_, loadAtHome_serves request kind arrives nobody, ?_⟩
  rw [served]
  exact keepHalf_spec (s.touchSlice r) k _

theorem loadAtHome_second (kind : r.kind = .load) (free : s.homeFree k r) (wide : r.splits = true) (second : r.half = true)
    {v : BitVec 128} (accs : r.accs = [x]) (vals : r.vals = [(x.thread, v)]) :
    Answers (exec (.loadAtHome k) s) (fun t => t.mem = s.mem ∧
      Answered t k { r with readyAt := 0, vals := [(x.thread, v ||| (s.accessValue r.pa (r.piece x) <<< 64))] }) := by
  obtain ⟨-, request, arrives, nobody, clean, own⟩ := free
  obtain ⟨mem, answered, -⟩ := serveLoad_answers (s := s.touchSlice r) (k := k) clean (last_of_second second) own
  rw [loadVals_second wide second accs vals] at answered
  exact ⟨_, loadAtHome_serves request kind arrives nobody, mem, answered⟩

/-- A load of a poisoned line fails (R375). -/
theorem loadAtHome_poisoned (kind : r.kind = .load) (request : mget s.net k = r) (arrives : s.arrives k r = true) (nobody : s.waitingAt r.pa = [])
    (own : r.dev = s.dev) (bad : s.poisoned r.pa = true) :
    Answers (exec (.loadAtHome k) s) (fun t => t.mem = s.mem ∧ Answered t k { r with readyAt := 0, fail := cDataError, vals := [] }) := by
  have served := serveLoad_poisoned (s := s.touchSlice r) (k := k) bad
  have here : ({ r with fail := cDataError, vals := [] } : Req).dev = (s.touchSlice r).dev := own
  refine ⟨_, loadAtHome_serves request kind arrives nobody, ?_⟩
  rw [served]
  exact ⟨(congrArg State.mem (beyondRequests_respond here k) :), answered_respond here k⟩

theorem piece_whole (whole : r.splits = false) (x : Access) : r.piece x = x := by simp [Req.piece, whole]

theorem piece_first (wide : r.splits = true) (first : r.half = false) (x : Access) : r.piece x = { x with size := 8 } := by
  simp [Req.piece, wide, first]

theorem piece_second (wide : r.splits = true) (second : r.half = true) (x : Access) :
    r.piece x = { x with off := x.off + 8, size := 8, data := x.data >>> 64 } := by simp [Req.piece, wide, second]

/-! Arrival. -/

/-- The request in its place at the home. -/
def Req.queued (s : State) (r : Req) : Req := { r with stamp := s.nextId }

/-- State q is s once request k has come to its home and has taken its place there, alone at its line. -/
structure Arrived (s : State) (k : Nat) (r : Req) (q : State) : Prop where
  mem : q.mem = s.mem
  seqs : q.seqs = s.seqs
  back : q.back = s.back
  dev : q.dev = s.dev
  poisoned : ∀ a, q.poisoned a = s.poisoned a
  leaseFree : ∀ a, q.leaseFree a = s.leaseFree a
  net : mget q.net k = default
  home : mget q.home k = r.queued s
  wf : mwf q.home = true
  head : q.waitingAt r.pa = [(k, r.queued s)]

/-- A write that comes to its home takes its place, and its line is served (R95). -/
theorem exists_arrived (free : s.homeFree k r) (kind : r.kind.writes) :
    ∃ q, Arrived s k r q ∧ s.writeArrives k r = q.drainLine r.pa (s.home.length + 1) := by
  obtain ⟨⟨-, -, -, -, wf, -⟩, -, -, nobody, -⟩ := free
  have head := (waitingAt_mset (t := (s.touchSlice r).enqueue k r) wf (onlyAt_of_nil nobody k) (r := r.queued s) rfl).trans
    (if_pos ⟨kind.ne (.inl rfl), rfl⟩)
  exact ⟨(s.touchSlice r).enqueue k r, ⟨rfl, rfl, rfl, rfl, fun _ => rfl, fun _ => rfl, mget_mset_same .., mget_mset_same ..,
    mwf_mset _ _ _ wf, head⟩, rfl⟩

theorem writeAtHome_arrives (request : mget s.net k = r) (kind : r.kind = .store) (arrives : s.arrives k r = true) :
    exec (.writeAtHome k) s = .next (s.writeArrives k r) := by simp [execWriteAtHome, request, kind, arrives]

theorem atomicAtHome_arrives (request : mget s.net k = r) (kind : ∃ a, r.kind = .atomic a ∨ r.kind = .atomicW a) (arrives : s.arrives k r = true) :
    exec (.atomicAtHome k) s = .next (s.writeArrives k r) := by
  obtain ⟨a, kind | kind⟩ := kind <;> simp [execAtomicAtHome, request, kind, arrives]

/-- A write that is alone at its line is answered when it performs, and the machine is otherwise as its accesses leave it (R95). -/
theorem drainLine_answers {line n : Nat} {u : State} {v : Req} (wf : mwf s.home = true) (head : s.waitingAt line = [(k, r)]) (kind : r.kind.writes)
    (free : s.writeFree r = true) (last : r.last = true) (performs : s.performWrite k r = u.respond k v) (home : u.home = s.home)
    (own : v.dev = u.dev) : let t := s.drainLine line (n + 1)
    Answered t k { v with readyAt := 0 } ∧ t.beyondRequests = u.beyondRequests := by
  have only : u.onlyAt k line := by
    have same : u.waitingAt line = s.waitingAt line := by rw [State.waitingAt, home, State.waitingAt]
    exact onlyAt_of_single (same.trans head)
  have drains := drainLine_performs (n := n) head kind free last (by rw [performs]; exact waitingAt_respond (home ▸ wf) only own)
  intro t
  rw [show t = u.respond k v from drains.trans performs]
  exact ⟨answered_respond own k, beyondRequests_respond own k⟩

/-! Stores. -/

section
variable {q : State} (arrived : Arrived s k r q)
include arrived

theorem Arrived.writeFree_store (kind : r.kind = .store) (clean : s.poisoned r.pa = false) : q.writeFree (r.queued s) = s.leaseFree r.pa := by
  rw [← arrived.leaseFree]
  exact Machine.writeFree_store (r := r.queued s) ((arrived.poisoned _).trans clean) kind

/-- A write that may not perform yet stays in its place (R95). -/
theorem Arrived.waits (kind : r.kind.writes) (held : q.writeFree (r.queued s) = false) (n : Nat) : q.drainLine r.pa (n + 1) = q :=
  drainLine_waits arrived.head kind held

end

/-- A store waits for the lease on its line (R95). -/
theorem writeAtHome_waits (kind : r.kind = .store) (free : s.homeFree k r) (leased : s.leaseFree r.pa = false) :
    Answers (exec (.writeAtHome k) s) (fun t => t.mem = s.mem ∧ mget t.net k = default ∧ mget t.home k = r.queued s) := by
  obtain ⟨q, arrived, served⟩ := exists_arrived free (.inl kind)
  obtain ⟨-, request, arrives, -, clean, -⟩ := free
  have waits := arrived.waits (.inl kind) ((arrived.writeFree_store kind clean).trans leased) s.home.length
  exact ⟨q, (writeAtHome_arrives request kind arrives).trans (congrArg _ (served.trans waits)), arrived.mem, arrived.net, arrived.home⟩

/-- A store of which the access performs whole (R95, R117). -/
theorem writeAtHome_whole (accs : r.accs = [x]) (kind : r.kind = .store) (free : s.homeFree k r) (may : s.leaseFree r.pa = true)
    (whole : r.splits = false) :
    Answers (exec (.writeAtHome k) s) (fun t => Holds s t (r.pa + x.off) x.size x.data.toNat ∧ mget t.net k = default ∧ mget t.home k = default ∧
      (mget t.back k).fail = r.fail ∧ mget t.seqs (lineOf r.pa) = mget s.seqs (lineOf r.pa) + 1) := by
  obtain ⟨q, arrived, served⟩ := exists_arrived free (.inl kind)
  obtain ⟨-, request, arrives, -, clean, own⟩ := free
  have last : (r.queued s).last = true := last_of_whole whole
  obtain ⟨v, performs, dev, fail⟩ := performWrite_store (r := r.queued s) ((arrived.poisoned _).trans clean) kind accs last k
  rw [piece_whole (r := r.queued s) whole] at performs
  have here : v.dev = (q.lineWrite r.pa x.off (leBytes x.size x.data.toNat)).dev :=
    (dev.trans own).trans (arrived.dev.symm.trans (lineWrite_dev ..).symm)
  obtain ⟨⟨net, home, back⟩, rest⟩ := drainLine_answers (n := s.home.length) arrived.wf arrived.head (.inl kind)
    ((arrived.writeFree_store kind clean).trans may) last performs (lineWrite_home ..) here
  have mem : (q.drainLine r.pa (s.home.length + 1)).mem = _ := (congrArg State.mem rest).trans (lineWrite_mem q r.pa x.off _)
  have seqs : (q.drainLine r.pa (s.home.length + 1)).seqs = _ := (congrArg State.seqs rest).trans (lineWrite_seqs q r.pa x.off _)
  rw [arrived.mem] at mem
  rw [arrived.seqs] at seqs
  refine ⟨_, (writeAtHome_arrives request kind arrives).trans (congrArg _ served), holds_of_mem mem, net, home, ?_, ?_⟩
  · rw [back]
    exact fail
  · rw [seqs, mget_mset_same]

/-- A request that waits at its home keeps its place with its first halves done (R116). -/
theorem keepHalf_home (waits : (mget s.home k).kind ≠ .none) (r : Req) : s.keepHalf k r = { s with home := mset s.home k r } := if_pos waits

/-- The first half of a store of 16 bytes (R116). -/
theorem writeAtHome_first (accs : r.accs = [x]) (kind : r.kind = .store) (free : s.homeFree k r) (may : s.leaseFree r.pa = true)
    (wide : r.splits = true) (first : r.half = false) :
    Answers (exec (.writeAtHome k) s) (fun t => Holds s t (r.pa + x.off) 8 (x.data.toNat % 2 ^ 64) ∧ mget t.net k = default ∧
      mget t.home k = { r.queued s with half := true } ∧ t.back = s.back ∧ t.seqs = s.seqs) := by
  obtain ⟨q, arrived, served⟩ := exists_arrived free (.inl kind)
  obtain ⟨-, request, arrives, -, clean, -⟩ := free
  have before : (r.queued s).last = false := last_of_first wide first
  have here := (arrived.poisoned r.pa).trans clean
  have halves := drainLine_half (n := s.home.length) arrived.head (.inl kind) ((arrived.writeFree_store kind clean).trans may) before here
  have waits : (mget (q.wrBytes (r.pa + x.off) (leBytes 8 x.data.toNat)).home k).kind ≠ .none := by
    rw [show (q.wrBytes (r.pa + x.off) (leBytes 8 x.data.toNat)).home = q.home from rfl, arrived.home]
    exact fun none => by simp [Req.queued, kind] at none
  have performs := performWrite_half (k := k) (r := r.queued s) here kind accs before
  rw [piece_first (r := r.queued s) wide first] at performs
  refine ⟨_, (writeAtHome_arrives request kind arrives).trans
    (congrArg _ (served.trans (halves.trans (performs.trans (keepHalf_home waits _))))), holds_of_mem ?_, arrived.net, mget_mset_same ..,
    arrived.back, arrived.seqs⟩
  rw [show (2 : Nat) ^ 64 = 256 ^ 8 from rfl, leBytes_mod, ← arrived.mem]
  rfl

/-! Atomics. -/

theorem Arrived.rdNat {q : State} (arrived : Arrived s k r q) (pa n : Nat) : q.rdNat pa n = s.rdNat pa n := by
  rw [State.rdNat, State.rdBytes, arrived.mem, State.rdNat, State.rdBytes]

section
variable {n : Nat} (accs : r.accs = [x]) (kind : ∃ a, r.kind = .atomic a ∨ r.kind = .atomicW a) (free : s.homeFree k r)
  (new : atomicNew r.kind (s.rdNat (r.pa + x.off) x.size) x = n)
include accs kind new

theorem Arrived.writeFree_atomic {q : State} (arrived : Arrived s k r q) (clean : s.poisoned r.pa = false) :
    q.writeFree (r.queued s) = true ↔ s.leaseFree r.pa = true ∨ n = s.rdNat (r.pa + x.off) x.size := by
  rw [← arrived.rdNat] at new ⊢
  rw [← arrived.leaseFree, Machine.writeFree_atomic (r := r.queued s) ((arrived.poisoned _).trans clean) kind, Bool.or_eq_true]
  exact or_congr Iff.rfl (changesNothing_iff (r := r.queued s) accs new)

include free

/-- An atomic that changes a byte waits for the lease on its line (R95, R235). -/
theorem atomicAtHome_waits (leased : s.leaseFree r.pa = false) (changes : n ≠ s.rdNat (r.pa + x.off) x.size) :
    Answers (exec (.atomicAtHome k) s) (fun t =>
      t.mem = s.mem ∧ t.back = s.back ∧ mget t.net k = default ∧ mget t.home k = r.queued s) := by
  obtain ⟨q, arrived, served⟩ := exists_arrived free (.inr kind)
  obtain ⟨-, request, arrives, -, clean, -⟩ := free
  have held : q.writeFree (r.queued s) = false :=
    Bool.eq_false_iff.2 fun may => ((arrived.writeFree_atomic accs kind new clean).1 may).elim (by simp [leased]) changes
  have waits := arrived.waits (.inr kind) held s.home.length
  exact ⟨q, (atomicAtHome_arrives request kind arrives).trans (congrArg _ (served.trans waits)), arrived.mem, arrived.back, arrived.net,
    arrived.home⟩

/-- An atomic performs without a lease in force, or where it changes nothing (R117, R235). -/
theorem atomicAtHome_performs (may : s.leaseFree r.pa = true ∨ n = s.rdNat (r.pa + x.off) x.size) :
    Answers (exec (.atomicAtHome k) s) (fun t => Holds s t (r.pa + x.off) x.size n ∧
      (mget t.back k).vals = [(x.thread, BitVec.ofNat 128 (s.rdNat (r.pa + x.off) x.size))] ∧
      (n = s.rdNat (r.pa + x.off) x.size → t.seqs = s.seqs)) := by
  obtain ⟨q, arrived, served⟩ := exists_arrived free (.inr kind)
  obtain ⟨-, request, arrives, -, clean, own⟩ := free
  have goes := (arrived.writeFree_atomic accs kind new clean).2 may
  have last : (r.queued s).last = true := by
    refine last_of_whole ?_
    obtain ⟨a, kind | kind⟩ := kind <;> simp [Req.splits, Req.queued, kind]
  rw [← arrived.rdNat] at new ⊢
  obtain ⟨v, performs, dev, vals⟩ := performWrite_atomic (r := r.queued s) ((arrived.poisoned _).trans clean) kind accs new k
  have frame := atomicWrite_frame (s := q) (x := x) r.pa n
  have home : (q.atomicWrite r.pa x n).home = q.home := (congrArg State.home frame :)
  have here : v.dev = (q.atomicWrite r.pa x n).dev := (dev.trans own).trans (arrived.dev.symm.trans (congrArg State.dev frame :).symm)
  obtain ⟨⟨-, -, back⟩, rest⟩ :=
    drainLine_answers (n := s.home.length) arrived.wf arrived.head (.inr kind) goes last performs home here
  have mem : (q.drainLine r.pa (s.home.length + 1)).mem = (q.atomicWrite r.pa x n).mem := (congrArg State.mem rest :)
  have seqs : (q.drainLine r.pa (s.home.length + 1)).seqs = (q.atomicWrite r.pa x n).seqs := (congrArg State.seqs rest :)
  have holds := holds_atomicWrite (s := q) (x := x) r.pa n
  rw [Holds, ← mem, arrived.mem] at holds
  refine ⟨_, (atomicAtHome_arrives request kind arrives).trans (congrArg _ served), holds, ?_, fun same => ?_⟩
  · rw [back]
    exact vals
  · rw [seqs, show q.atomicWrite r.pa x n = q from if_pos same, arrived.seqs]

end

/-! The end of a lease. -/

/-- The machine when the lease on a line is over (R95). -/
def State.leaseOver (s : State) (a : Nat) : State :=
  { s with l1 := s.l1.filter (fun e => decide (e.line ≠ lineOf a) || decide (s.ltime < e.expiry)), lease := mset s.lease (lineOf a) 0 }

theorem lineOf_lineOf (a : Nat) : lineOf (lineOf a) = lineOf a := by
  rw [lineOf, lineOf, Nat.mul_div_cancel _ (by decide)]

/-- The write that waits at a line performs when the lease is over (R95, R116). -/
theorem leaseExpiry_performs {a : Nat} (tidy : s.Tidy) (ends : s.leaseFree a = true) (head : s.waitingAt (lineOf a) = [(k, r)])
    (kind : r.kind = .store) (accs : r.accs = [x]) (own : r.dev = s.dev) (clean : s.poisoned (lineOf a) = false)
    (second : r.splits = true → r.half = true) :
    Answers (exec (.leaseExpiry a) s) (fun t =>
      Holds s t (lineOf a + (r.piece x).off) (r.piece x).size (r.piece x).data.toNat ∧ mget t.home k = default ∧
      mget t.lease (lineOf a) = 0 ∧ ∀ e ∈ t.l1, e.line = lineOf a → s.time / 8 < e.expiry) := by
  obtain ⟨-, -, -, -, wf, -⟩ := tidy
  have waits : (k, r) ∈ s.waitingAt (lineOf a) := head ▸ List.mem_singleton_self _
  obtain ⟨place, line⟩ : mget s.home k = r ∧ r.pa = lineOf a := by
    obtain ⟨place, -, line⟩ := (mem_waitingAt wf).1 waits
    exact ⟨place, line⟩
  have some : ∃ n, s.home.length = n + 1 := by
    refine Nat.exists_eq_succ_of_ne_zero fun none => ?_
    have mem := (mem_iff_mget wf (e := (k, r))).2 ⟨place, fun blank => by rw [congrArg Req.kind blank] at kind; cases kind⟩
    rw [List.length_eq_zero_iff.1 none] at mem
    cases mem
  obtain ⟨n, length⟩ := some
  have bad : (s.leaseOver a).poisoned r.pa = false := by rw [line]; exact clean
  have may : (s.leaseOver a).writeFree r = true := by
    rw [writeFree_store bad kind, line, State.leaseFree, lineOf_lineOf]
    exact decide_eq_true ((mget_mset_same ..).le.trans (Nat.zero_le _))
  have last : r.last = true := by
    cases wide : r.splits with
    | false => exact last_of_whole wide
    | true => exact last_of_second (second wide)
  obtain ⟨v, performs, dev, -⟩ := performWrite_store bad kind accs last k
  obtain ⟨⟨-, home, -⟩, rest⟩ :=
    drainLine_answers (s := s.leaseOver a) (n := n) wf head (.inl kind) may last performs (lineWrite_home ..) (dev.trans own)
  have step : exec (.leaseExpiry a) s = .next ((s.leaseOver a).drainLine (lineOf a) (n + 1)) := by
    rw [exec_leaseExpiry, execLeaseExpiry, if_pos ends]
    exact congrArg (fun m => Host.Outcome.next ((s.leaseOver a).drainLine (lineOf a) m)) length
  have mem : ((s.leaseOver a).drainLine (lineOf a) (n + 1)).mem =
      msetList s.mem (r.pa + (r.piece x).off) (leBytes (r.piece x).size (r.piece x).data.toNat) :=
    (congrArg State.mem rest).trans (lineWrite_mem ..)
  have lease : ((s.leaseOver a).drainLine (lineOf a) (n + 1)).lease = mset s.lease (lineOf a) 0 := (congrArg State.lease rest :)
  rw [line] at mem
  refine ⟨_, step, holds_of_mem mem, home, ?_, fun e mem same => ?_⟩
  · rw [lease, mget_mset_same]
  · rw [show ((s.leaseOver a).drainLine (lineOf a) (n + 1)).l1 = (s.leaseOver a).l1 from (congrArg State.l1 rest :)] at mem
    obtain ⟨-, kept⟩ := List.mem_filter.1 mem
    have live : s.ltime < e.expiry := by simpa [same] using kept
    exact live

end
end Sys2Proof.Machine

open Sys2Proof Sys2Proof.Machine

/-- Settles O37: each step is served by `serveLoad` or by the queue of its line, in which the write is alone (`drainLine_answers`). -/
theorem homeSteps : Obligations.HomeSteps := by
  intro s k r read
  have upper (x : Access) : BitVec.ofNat 128 (leNat (mgetList s.mem (r.pa + (x.off + 8)) 8)) = read x 8 8 := by rw [← Nat.add_assoc]
  refine ⟨fun kind free => ⟨loadAtHome_whole kind free, fun wide first => ?_, fun x v wide second accs vals => ?_⟩,
    loadAtHome_poisoned,
    fun x accs kind free => ⟨writeAtHome_whole accs kind free, writeAtHome_first accs kind free, writeAtHome_waits kind free⟩,
    fun x aop accs free => ⟨fun kind size => ?_, fun kind size => ?_⟩, fun a x tidy ends head kind accs own clean second => ?_, fun a held => ?_⟩
  · have served := loadAtHome_first kind free wide first
    simp only [piece_first wide first] at served
    exact served
  · have served := loadAtHome_second kind free wide second accs vals
    simp only [piece_second wide second, State.accessValue, State.rdNat, State.rdBytes, upper] at served
    exact served
  · have new : atomicNew r.kind (s.rdNat (r.pa + x.off) x.size) x = atomFn aop (s.rdNat (r.pa + x.off) x.size) x.data.toNat x.cmp.toNat := by
      simp [atomicNew, kind, size]
    refine ⟨atomicAtHome_waits accs ⟨aop, .inl kind⟩ free new, fun may => ?_⟩
    have performs := atomicAtHome_performs accs ⟨aop, .inl kind⟩ free new may
    simp only [size] at performs ⊢
    exact performs
  · have new : atomicNew r.kind (s.rdNat (r.pa + x.off) x.size) x = atomwFn aop (s.rdNat (r.pa + x.off) x.size) x.data.toNat x.cmp.toNat := by
      simp [atomicNew, kind]
    exact ⟨atomicAtHome_waits accs ⟨aop, .inr kind⟩ free new, atomicAtHome_performs accs ⟨aop, .inr kind⟩ free new⟩
  · have performs := leaseExpiry_performs tidy ends head kind accs own clean second
    cases wide : r.splits with
    | false =>
      rw [piece_whole wide] at performs
      simpa using performs
    | true =>
      rw [piece_second wide (second wide)] at performs
      have high : (x.data >>> 64).toNat = x.data.toNat / 256 ^ 8 := by
        rw [BitVec.toNat_ushiftRight, Nat.shiftRight_eq_div_pow]
        rfl
      rw [← Nat.add_assoc, high] at performs
      exact performs
  · exact if_neg (by simp [held])
end

section
/-! What the use of router ports and pseudo-channels leaves: translations of engines, and which channels are awake (R337, R339, R378). -/

namespace Sys2Proof.Machine

/-- The machine with other times of use of its router ports and pseudo-channels. -/
def State.used (s : State) (routers channels : FMap Nat) : State := { s with routerUsed := routers, channelUsed := channels }

section
variable (s : State) (a b : FMap Nat)

theorem walkFrom_used (va : Nat) : ∀ (l : List (Nat × Nat × Nat)) (tbl : Nat), (s.used a b).walkFrom va l tbl = s.walkFrom va l tbl
  | [], _ => rfl
  | (level, shift, n) :: l, tbl => by
    rw [State.walkFrom, State.walkFrom, walkFrom_used va l]
    rfl

theorem walk_used (part space va : Nat) : (s.used a b).walk part space va = s.walk part space va := by
  rw [State.walk, State.walk, walkFrom_used]
  rfl

theorem xlate_used (core dom part space va need : Nat) : (s.used a b).xlate core dom part space va need = s.xlate core dom part space va need := rfl

theorem xlateNow_used (core part space va need : Nat) : (s.used a b).xlateNow core part space va need = s.xlateNow core part space va need := by
  rw [State.xlateNow, State.xlateNow, walk_used, xlate_used]

theorem engineXl_used (core part space va need : Nat) : (s.used a b).engineXl core part space va need = s.engineXl core part space va need := by
  rw [State.engineXl, State.engineXl, xlateNow_used, xlate_used]
  rfl

end

/-- A use of channels wakes none and lets none wait: a channel is ready just when it was (R378). -/
theorem used_le_time (time ch : Nat) : ∀ (cs : List Nat) (m : FMap Nat),
    mget (cs.foldl (fun m c => mset m c (max time (mget m c))) m) ch ≤ time ↔ mget m ch ≤ time
  | [], _ => Iff.rfl
  | c :: cs, m => by
    rw [List.foldl_cons, used_le_time time ch cs, mget_mset]
    split
    · rename_i same
      rw [same, max_le_iff]
      exact and_iff_right le_rfl
    · exact Iff.rfl

theorem channelsReady_useChannels (s : State) (l lines : List Nat) : (s.useChannels l).channelsReady lines = s.channelsReady lines := by
  have ready (ch : Nat) : decide (mget (s.useChannels l).channelUsed ch ≤ s.time) = decide (mget s.channelUsed ch ≤ s.time) :=
    decide_eq_decide.2 (used_le_time ..)
  have each : (fun ch => !mget s.channelAsleep ch && decide (mget (s.useChannels l).channelUsed ch ≤ s.time)) =
      fun ch => !mget s.channelAsleep ch && decide (mget s.channelUsed ch ≤ s.time) := funext fun ch => by rw [ready]
  exact congrArg (s.channels lines).all each

theorem touchSlice_used (s : State) (r : Req) :
    s.touchSlice r = s.used (s.useRouter (s.routerPort r)).routerUsed ((s.useRouter (s.routerPort r)).useChannels [r.pa]).channelUsed := rfl

theorem channelsReady_touchSlice (s : State) (r : Req) (lines : List Nat) : (s.touchSlice r).channelsReady lines = s.channelsReady lines :=
  channelsReady_useChannels (s.useRouter (s.routerPort r)) [r.pa] lines

theorem engineXl_touchSlice (s : State) (r : Req) (core part space va need : Nat) :
    (s.touchSlice r).engineXl core part space va need = s.engineXl core part space va need := by rw [touchSlice_used, engineXl_used]

end Sys2Proof.Machine
end

section
/-! Puts at their descriptor (R241). -/

namespace Sys2Proof.Machine

/-- The descriptor, and what a put uses of it, are as before when its packet reaches the slice. -/
theorem PutDescAt.touchSlice {s : State} {k : Nat} {r : Req} {x : Access} {d : PutDesc} (h : PutDescAt s k r x d) (q : Req) :
    PutDescAt (s.touchSlice q) k r x d where
  there := by
    obtain ⟨clean, desc, awake⟩ := h.there
    exact ⟨clean, desc, (channelsReady_touchSlice ..).trans awake⟩
  base := by
    obtain ⟨pa, found, here⟩ := h.base
    exact ⟨pa, (engineXl_touchSlice ..).trans found, here⟩
  map := by
    obtain ⟨pa, found, here⟩ := h.map
    exact ⟨pa, (engineXl_touchSlice ..).trans found, here⟩
  walked := h.walked

theorem RowReady.touchSlice {s : State} {k n pa : Nat} {r : Req} {x : Access} {d : PutDesc} (h : RowReady s k r x d n pa) (q : Req) :
    RowReady (s.touchSlice q) k r x d n pa where
  desc := h.desc.touchSlice q
  place := by
    obtain ⟨found, here⟩ := h.place
    exact ⟨(engineXl_touchSlice ..).trans found, here⟩
  free := by
    obtain ⟨clean, free, awake⟩ := h.free
    exact ⟨clean, free, (channelsReady_touchSlice ..).trans awake⟩

/-- The stamp of the packet does not matter. -/
theorem PutDescAt.stamped {s : State} {k : Nat} {r : Req} {x : Access} {d : PutDesc} (h : PutDescAt s k r x d) (n : Nat) :
    PutDescAt s k { r with stamp := n } x d := ⟨h.there, h.base, h.map, h.walked⟩

/-- A put of a strand of this device that may be served by descriptor d: it is right, of the strand's own space, and has room for token and bytes
(R240, R241). -/
structure PutServed (s : State) (k : Nat) (r : Req) (x : Access) (d : PutDesc) : Prop where
  desc : PutDescAt s k r x d
  own : r.dev = s.dev
  aligned : r.pa % 64 = 0
  mine : d.part = r.part ∧ d.space = r.space
  bounds : x.cmp.toNat < d.ntok ∧ x.off + x.size ≤ d.row

section
variable {s : State} {k : Nat} {r : Req} {x : Access} {d : PutDesc} {once : Bool}

/-- A put that has its row writes it (R241). -/
theorem putStep_row (h : PutServed s k r x d) (once : Bool) {n : Nat} (row : r.row = n + 1) :
    s.putStep (putToken_ k) r once x = s.putRow (putToken_ k) (s.putEngine r) d n x := by
  obtain ⟨⟨⟨clean, desc, awake⟩, ⟨bpa, base, bhere⟩, ⟨mpa, map, mhere⟩, walked⟩, own, aligned, ⟨part, space⟩, token, bytes⟩ := h
  simp only [State.putEngine] at base map walked ⊢
  unfold State.putStep
  simp [aligned, awake, clean, desc, base, bhere, map, mhere, walked, own, ← part, ← space, Nat.not_le.2 token, Nat.not_lt.2 bytes, token, bytes, row,
    State.inView]

/-- What a put that has not got its row yet does at its map entry `mpa`, when it may write the descriptor (R241). -/
def State.putFirst (s : State) (tok : Nat) (r : Req) (once : Bool) (d : PutDesc) (mpa : Nat) : PutRes :=
  if s.rdNat mpa 4 = 0xFFFFFFFF then
    if s.mayWriteBy tok (lineOf r.pa :: linesOf mpa 4) = false then .wait (lineOf r.pa :: linesOf mpa 4)
    else if d.count < d.cap then
      .claimed ((s.putWrite (r.pa + 32) (leBytes 4 (d.count + 1))).putWrite mpa (leBytes 4 d.count)) d.count
    else .done ((s.putWrite mpa (leBytes 4 0xFFFFFFFE)).putWrite (r.pa + 36) (leBytes 4 (d.refused + 1))) putRefusedFirst
  else if s.rdNat mpa 4 = 0xFFFFFFFE then .done s putRefused
  else if d.cap ≤ s.rdNat mpa 4 then putFault s cPutdesc
  else if once then
    if s.mayWriteBy tok [lineOf r.pa] then .done (s.putWrite (r.pa + 40) (leBytes 4 (d.dups + 1))) putDuplicate else .wait [lineOf r.pa]
  else .claimed s (s.rdNat mpa 4)

/-- The map entry of the put, at `mpa`, can be read and written (R240, R241). -/
structure EntryAt (s : State) (r : Req) (x : Access) (d : PutDesc) (mpa : Nat) : Prop where
  found : s.engineXl (s.putEngine r) d.part d.space (d.map + 4 * x.cmp.toNat) (permR + permW) = .ok mpa
  here : devOf mpa = s.dev
  clean : s.poisoned mpa = false
  awake : s.channelsReady [lineOf mpa] = true

/-- A put without a row goes by its map entry (R241). -/
theorem putStep_first (h : PutServed s k r x d) {mpa : Nat} (entry : EntryAt s r x d mpa) (once : Bool) (row : r.row = 0) (counters : r.hint = 1) :
    s.putStep (putToken_ k) r once x = s.putFirst (putToken_ k) r once d mpa := by
  obtain ⟨⟨⟨clean, desc, awake⟩, ⟨bpa, base, bhere⟩, ⟨tpa, map, mhere⟩, walked⟩, own, aligned, ⟨part, space⟩, token, bytes⟩ := h
  obtain ⟨found, here, good, up⟩ := entry
  simp only [State.putEngine] at base map walked found ⊢
  unfold State.putStep
  simp [aligned, awake, clean, desc, base, bhere, map, mhere, walked, own, ← part, ← space, Nat.not_le.2 token, Nat.not_lt.2 bytes, token, bytes,
    row, State.inView, found, here, good, up, counters, State.putFirst]

/-- The row of a put can be written, and no weir is to be credited (R241). -/
theorem putRow_done {n pa : Nat} (ready : RowReady s k r x d n pa) (weir : d.weir = 0) :
    s.putRow (putToken_ k) (s.putEngine r) d n x = .done (s.putWrite pa (leBytes x.size x.data.toNat)) putAdmitted := by
  obtain ⟨-, ⟨found, here⟩, clean, free, awake⟩ := ready
  unfold State.putRow
  simp [found, here, clean, free, awake, weir]

end

/-! The run of the puts of a packet. -/

section
variable {s s1 : State} {k n : Nat} {r : Req} {x : Access} {once : Bool}

theorem putWrite_mem (s : State) (pa : Nat) (l : List Byte) : (s.putWrite pa l).mem = (s.wrEngine pa l).mem := rfl

theorem putWrite_dev (s : State) (pa : Nat) (l : List Byte) : (s.putWrite pa l).dev = s.dev := wrEngine_field s pa l State.dev (fun _ => rfl)

/-- The one put of a packet is made, and the packet is answered (R241). -/
theorem putRun_done {out : Nat} (accs : r.accs = [x]) (vals : r.vals = []) (own : r.dev = s1.dev)
    (step : s.putStep (putToken_ k) r once x = .done s1 out) : let t := s.putRun k r once (n + 2)
    t.mem = s1.mem ∧ Answered t k { r with readyAt := 0, row := 0, vals := [(x.thread, BitVec.ofNat 128 (out + 256 * x.cmp.toNat))] } := by
  let r1 := { r with row := 0, vals := [(x.thread, BitVec.ofNat 128 (out + 256 * x.cmp.toNat))] }
  let s2 := (s1.unqueue (putToken_ k) (fun _ => true)).walksDone (putToken_ k)
  have here : r1.dev = s2.dev := own
  have run : s.putRun k r once (n + 2) = s2.respond k r1 := by simp [State.putRun, accs, vals, step, s2, r1]
  intro t
  rw [show t = s2.respond k r1 from run]
  exact ⟨(congrArg State.mem (beyondRequests_respond here k) :), answered_respond here k⟩

/-- The one put of a packet has claimed its row, and goes on to write it (R241). -/
theorem putRun_claimed {row : Nat} (accs : r.accs = [x]) (vals : r.vals = []) (step : s.putStep (putToken_ k) r once x = .claimed s1 row) :
    s.putRun k r once (n + 1) = (s1.unqueue (putToken_ k) (fun _ => true)).putRun k { r with row := row + 1 } once n := by
  simp [State.putRun, accs, vals, step]

end
end Sys2Proof.Machine
end

section
/-! PUT_AT_DESCRIPTOR and STX_AT_TARGET (R102, R239..R241). -/

namespace Sys2Proof.Machine

section
variable {s : State} {k : Nat} {once : Bool} {r : Req} {x : Access} {d : PutDesc} {mpa : Nat}

/-- A put that is ready runs from its descriptor (R241). -/
theorem PutReady.runs (ready : PutReady s k once r x d mpa) :
    exec (.putAtDescriptor k) s = .next ((s.touchSlice r).putRun k { r with stamp := k + 1 } once 3) := by
  obtain ⟨request, kind, accs, -, -, near, -, left, -, -⟩ := ready.request
  obtain ⟨-, -, awake⟩ := ready.desc.there
  have turn := ready.first
  rcases ready.here with stamped | ⟨front, bridge, port⟩
  · simp [execPutAtDescriptor, request, kind, accs, near, left, turn, stamped]
  · simp [execPutAtDescriptor, request, kind, accs, near, left, turn, front, bridge, port, awake]

/-- The packet of a put, stamped, as its descriptor serves it. -/
theorem PutReady.served (ready : PutReady s k once r x d mpa) : PutServed (s.touchSlice r) k { r with stamp := k + 1 } x d := by
  obtain ⟨-, -, -, -, own, -, -, -, -, aligned⟩ := ready.request
  exact ⟨(ready.desc.touchSlice r).stamped _, own, aligned, ready.mine, ready.bounds⟩

/-- What the first step of a put that is ready gives (R241). -/
theorem PutReady.step (ready : PutReady s k once r x d mpa) :
    (s.touchSlice r).putStep (putToken_ k) { r with stamp := k + 1 } once x =
      (s.touchSlice r).putFirst (putToken_ k) { r with stamp := k + 1 } once d mpa := by
  obtain ⟨-, -, -, -, -, -, counters, -, row, -⟩ := ready.request
  obtain ⟨found, here, clean, awake⟩ := ready.entry
  exact putStep_first ready.served
    ⟨(engineXl_touchSlice ..).trans found, here, clean, (channelsReady_touchSlice ..).trans awake⟩ once row counters

/-- A put that its first step makes. -/
theorem PutReady.made_of_done (ready : PutReady s k once r x d mpa) {s1 m : State} {out : Nat}
    (first : (s.touchSlice r).putFirst (putToken_ k) { r with stamp := k + 1 } once d mpa = .done s1 out) (dev : s1.dev = s.dev)
    (mem : s1.mem = m.mem) : PutMade s k r x out m := by
  obtain ⟨-, -, accs, vals, own, -, -, -, row, -⟩ := ready.request
  obtain ⟨kept, answered⟩ := putRun_done (n := 1) (r := { r with stamp := k + 1 }) accs vals (own.trans dev.symm) (ready.step.trans first)
  refine ⟨_, ready.runs, kept.trans mem, ?_⟩
  simp only [row] at answered ⊢
  exact answered

/-- A put that its first step gives a row, which its second step writes. -/
theorem PutReady.made_of_claimed (ready : PutReady s k once r x d mpa) {s1 s2 m : State} {n pa : Nat} {d2 : PutDesc}
    (first : (s.touchSlice r).putFirst (putToken_ k) { r with stamp := k + 1 } once d mpa = .claimed s1 n)
    (left : s1.unqueue (putToken_ k) (fun _ => true) = s2) (dev : s2.dev = s.dev) (row : RowReady s2 k r x d2 n pa) (weir : d2.weir = 0)
    (mine : d2.part = d.part ∧ d2.space = d.space) (bounds : d2.ntok = d.ntok ∧ d2.row = d.row)
    (mem : (s2.wrEngine pa (leBytes x.size x.data.toNat)).mem = m.mem) : PutMade s k r x 0 m := by
  obtain ⟨-, -, accs, vals, own, -, -, -, noRow, aligned⟩ := ready.request
  have served : PutServed s2 k { r with stamp := k + 1, row := n + 1 } x d2 :=
    { desc := row.desc.stamped (k + 1)
      own := own.trans dev.symm
      aligned := aligned
      mine := ⟨mine.1.trans ready.mine.1, mine.2.trans ready.mine.2⟩
      bounds := by rw [bounds.1, bounds.2]; exact ready.bounds }
  have second : s2.putStep (putToken_ k) { r with stamp := k + 1, row := n + 1 } once x = _ :=
    (putStep_row served once rfl).trans ((putRow_done row weir :))
  have claims := putRun_claimed (n := 2) (r := { r with stamp := k + 1 }) accs vals (ready.step.trans first)
  rw [left] at claims
  have here : r.dev = (s2.putWrite pa (leBytes x.size x.data.toNat)).dev := own.trans (dev.symm.trans (putWrite_dev ..).symm)
  obtain ⟨kept, answered⟩ := putRun_done (n := 0) (r := { r with stamp := k + 1, row := n + 1 }) accs vals here second
  refine ⟨_, ready.runs.trans (congrArg _ claims), kept.trans mem, ?_⟩
  simp only [noRow]
  exact answered

/-! The outcomes of a put. -/

section
variable {tok : Nat} {q : Req}

/-- The first put of a token finds a row free. -/
theorem putFirst_claims (once : Bool) (new : s.rdNat mpa 4 = 0xFFFFFFFF) (may : s.mayWriteBy tok (lineOf q.pa :: linesOf mpa 4) = true)
    (room : d.count < d.cap) : s.putFirst tok q once d mpa =
      .claimed ((s.putWrite (q.pa + 32) (leBytes 4 (d.count + 1))).putWrite mpa (leBytes 4 d.count)) d.count := by
  simp [State.putFirst, new, may, room]

/-- The first put of a token finds no row free. -/
theorem putFirst_refuses (once : Bool) (new : s.rdNat mpa 4 = 0xFFFFFFFF) (may : s.mayWriteBy tok (lineOf q.pa :: linesOf mpa 4) = true)
    (full : d.cap ≤ d.count) : s.putFirst tok q once d mpa =
      .done ((s.putWrite mpa (leBytes 4 0xFFFFFFFE)).putWrite (q.pa + 36) (leBytes 4 (d.refused + 1))) putRefusedFirst := by
  simp [State.putFirst, new, may, Nat.not_lt.2 full]

/-- A later put of a token that was refused. -/
theorem putFirst_refused (once : Bool) (old : s.rdNat mpa 4 = 0xFFFFFFFE) : s.putFirst tok q once d mpa = .done s putRefused := by
  simp [State.putFirst, old]

/-- A put of a token that has its row. -/
theorem putFirst_again (low : s.rdNat mpa 4 < d.cap) (cap : d.cap ≤ 2 ^ 24) : s.putFirst tok q false d mpa = .claimed s (s.rdNat mpa 4) := by
  have new : s.rdNat mpa 4 ≠ 0xFFFFFFFF := by omega
  have old : s.rdNat mpa 4 ≠ 0xFFFFFFFE := by omega
  simp [State.putFirst, new, old, Nat.not_le.2 low]

/-- A put that is made once, of a token that has its row. -/
theorem putFirst_duplicate (low : s.rdNat mpa 4 < d.cap) (cap : d.cap ≤ 2 ^ 24) (may : s.mayWriteBy tok [lineOf q.pa] = true) :
    s.putFirst tok q true d mpa = .done (s.putWrite (q.pa + 40) (leBytes 4 (d.dups + 1))) putDuplicate := by
  have new : s.rdNat mpa 4 ≠ 0xFFFFFFFF := by omega
  have old : s.rdNat mpa 4 ≠ 0xFFFFFFFE := by omega
  simp [State.putFirst, new, old, Nat.not_le.2 low, may]

end

theorem rowClaimed_dev (s : State) (k : Nat) (r : Req) (d : PutDesc) (mpa : Nat) : (s.rowClaimed k r d mpa).dev = s.dev :=
  (putWrite_dev _ mpa _).trans (putWrite_dev (s.touchSlice r) (r.pa + 32) _)

/-- Memory after two accesses of a put depends on memory alone. -/
theorem putWrite_putWrite_mem {s t : State} (mem : s.mem = t.mem) (a b : Nat) (l m : List Byte) :
    ((s.putWrite a l).putWrite b m).mem = ((t.wrEngine a l).wrEngine b m).mem := by
  rw [putWrite_mem, wrEngine_mem, putWrite_mem, wrEngine_mem, wrEngine_mem, wrEngine_mem, mem]

/-- A first put that finds a row is made there (R241). -/
theorem PutReady.takesRow (ready : PutReady s k once r x d mpa) (new : s.rdNat mpa 4 = 0xFFFFFFFF)
    (may : s.mayWriteBy (putToken_ k) (lineOf r.pa :: linesOf mpa 4) = true) (room : d.count < d.cap) (weir : d.weir = 0) {pa : Nat}
    (row : RowReady (s.rowClaimed k r d mpa) k r x { d with count := d.count + 1 } d.count pa) :
    PutMade s k r x 0 ((s.rowClaimed k r d mpa).wrEngine pa (leBytes x.size x.data.toNat)) :=
  ready.made_of_claimed (putFirst_claims once new may room) rfl (rowClaimed_dev ..) row weir ⟨rfl, rfl⟩ ⟨rfl, rfl⟩ rfl

/-- A first put that finds no row is refused (R241). -/
theorem PutReady.refuses (ready : PutReady s k once r x d mpa) (new : s.rdNat mpa 4 = 0xFFFFFFFF)
    (may : s.mayWriteBy (putToken_ k) (lineOf r.pa :: linesOf mpa 4) = true) (full : d.cap ≤ d.count) :
    PutMade s k r x 1 ((s.wrEngine mpa (leBytes 4 0xFFFFFFFE)).wrEngine (r.pa + 36) (leBytes 4 (d.refused + 1))) :=
  ready.made_of_done (putFirst_refuses once new may full) ((putWrite_dev ..).trans (putWrite_dev (s.touchSlice r) mpa _))
    (putWrite_putWrite_mem (s := s.touchSlice r) (t := s) rfl mpa (r.pa + 36) _ _)

/-- A later put of a token that was refused writes nothing (R241). -/
theorem PutReady.refused (ready : PutReady s k once r x d mpa) (old : s.rdNat mpa 4 = 0xFFFFFFFE) : PutMade s k r x 2 s :=
  ready.made_of_done (putFirst_refused once old) rfl rfl

/-- A put of a token that has its row is made there (R241). -/
theorem PutReady.again (ready : PutReady s k false r x d mpa) (low : s.rdNat mpa 4 < d.cap) (cap : d.cap ≤ 2 ^ 24) (weir : d.weir = 0) {pa : Nat}
    (row : RowReady (s.unqueue (putToken_ k) (fun _ => true)) k r x d (s.rdNat mpa 4) pa) :
    PutMade s k r x 0 (s.wrEngine pa (leBytes x.size x.data.toNat)) :=
  ready.made_of_claimed (putFirst_again low cap) rfl rfl (row.touchSlice r) weir ⟨rfl, rfl⟩ ⟨rfl, rfl⟩ (by rw [wrEngine_mem, wrEngine_mem]; rfl)

/-- A put that is made once, of a token that has its row, counts as a duplicate (R241). -/
theorem PutReady.duplicate (ready : PutReady s k true r x d mpa) (low : s.rdNat mpa 4 < d.cap) (cap : d.cap ≤ 2 ^ 24)
    (may : s.mayWriteBy (putToken_ k) [lineOf r.pa] = true) : PutMade s k r x 3 (s.wrEngine (r.pa + 40) (leBytes 4 (d.dups + 1))) :=
  ready.made_of_done (putFirst_duplicate low cap may) (putWrite_dev (s.touchSlice r) (r.pa + 40) _)
    ((putWrite_mem ..).trans (by rw [wrEngine_mem, wrEngine_mem]; rfl))

end

/-! Exchange stores (R102, R239). -/

theorem shadowIndex_inj {c : Crew} {i j : Nat} (same : c.shadowIndex i = c.shadowIndex j) : i = j := by
  unfold Crew.shadowIndex at same
  split at same <;> omega

/-- The cells of the buffer after bytes are written at successive offsets, where different offsets have different cells. -/
theorem foldl_mset_cells {place : Nat → Nat} (inj : ∀ i j, place i = place j → i = j) (m : FMap (Option Byte)) (l : List Byte) :
    let t := (List.zip (List.range l.length) l).foldl (fun m e => mset m (place e.1) (some e.2)) m
    (∀ (i : Nat) (h : i < l.length), mget t (place i) = some l[i]) ∧ ∀ p, (∀ i < l.length, p ≠ place i) → mget t p = mget m p := by
  induction l using List.reverseRecOn with
  | nil => simp
  | append_singleton l b ih =>
    obtain ⟨written, kept⟩ := ih
    have pairs : List.zip (List.range (l ++ [b]).length) (l ++ [b]) = List.zip (List.range l.length) l ++ [(l.length, b)] := by
      rw [List.length_append, List.length_singleton, List.range_succ, List.zip_append (by simp)]
      rfl
    rw [pairs, List.foldl_append]
    refine ⟨fun i low => ?_, fun p apart => ?_⟩
    · rw [List.length_append, List.length_singleton] at low
      rw [List.foldl_cons, List.foldl_nil, mget_mset]
      by_cases last : i = l.length
      · simp [last]
      · rw [if_neg fun same => last (inj _ _ same), written i (by omega), List.getElem_append_left]
    · rw [List.foldl_cons, List.foldl_nil, mget_mset_ne _ _ (apart l.length (by simp)), kept p fun i low => apart i (by simp; omega)]

/-- The buffer after an exchange store: the shadow bank holds its bytes, and the rest is as before (R102, R132). -/
theorem stxWrite_spec (c : Crew) (x : Access) :
    (∀ i < x.size, (c.stxWrite x).abByte (c.shadowIndex (x.off + i)) = BitVec.ofNat 8 (x.data.toNat / 256 ^ i)) ∧
    ∀ p, (∀ i < x.size, p ≠ c.shadowIndex (x.off + i)) → (c.stxWrite x).abByte p = c.abByte p := by
  obtain ⟨written, kept⟩ := foldl_mset_cells (place := fun i => c.shadowIndex (x.off + i))
    (fun i j same => Nat.add_left_cancel (shadowIndex_inj same)) c.abuf (leBytes x.size x.data.toNat)
  refine ⟨fun i low => ?_, fun p apart => ?_⟩
  · have byte : i < (leBytes x.size x.data.toNat).length := by rwa [leBytes_length]
    have cell : mget (c.stxWrite x).abuf (c.shadowIndex (x.off + i)) = some _ := written i byte
    rw [Crew.abByte, cell, leBytes_getElem _ _ _ byte]
    rfl
  · have cell : mget (c.stxWrite x).abuf p = mget c.abuf p :=
      kept p fun i low => apart i (by rwa [leBytes_length] at low)
    rw [Crew.abByte, cell]
    rfl

theorem stxFirst {s : State} {k rank : Nat} {r : Req}
    (first : ∀ e ∈ s.net, e.1 < k → ¬(e.2.crew = r.crew ∧ e.2.strand = r.strand ∧ e.2.kind = .stx rank)) :
    s.net.any (fun e => decide (e.1 < k) && decide (e.2.crew = r.crew) && decide (e.2.strand = r.strand) && decide (e.2.kind = .stx rank)) = false :=
  List.any_eq_false.2 fun e mem => by simpa [and_assoc] using first e mem

section
variable {s : State} {k rank : Nat} (kind : (mget s.net k).kind = .stx rank) (bridge : s.bridgeDown = false)
  (first : ∀ e ∈ s.net, e.1 < k → ¬(e.2.crew = (mget s.net k).crew ∧ e.2.strand = (mget s.net k).strand ∧ e.2.kind = .stx rank))
include kind bridge first

/-- An exchange store to a crew of the launch (R102). -/
theorem stxAtTarget_found {u : Nat} (found : s.crewOfRank (mget s.net k).x rank = some u) :
    exec (.stxAtTarget k) s =
      .next ((s.setCrew u ((mget s.net k).accs.foldl Crew.stxWrite (s.crew u))).respond k (mget s.net k)) := by
  have front := stxFirst first
  simp [execStxAtTarget, kind, bridge, front, found]

/-- One to a crew that is lost is discarded and acknowledged (R102). -/
theorem stxAtTarget_lost (none : s.crewOfRank (mget s.net k).x rank = none) (gone : s.rankComes (mget s.net k).x rank = false) :
    exec (.stxAtTarget k) s = .next (s.respond k (mget s.net k)) := by
  have front := stxFirst first
  simp [execStxAtTarget, kind, bridge, front, none, gone]

/-- One to a crew that is still to be placed waits (R101, R102). -/
theorem stxAtTarget_waits (none : s.crewOfRank (mget s.net k).x rank = none) (comes : s.rankComes (mget s.net k).x rank = true) :
    exec (.stxAtTarget k) s = .next s := by
  have front := stxFirst first
  simp [execStxAtTarget, kind, bridge, front, none, comes]

end

/-- What an exchange store leaves: the target crew with its bytes, every other crew, and memory (R102). -/
theorem stx_answered {s : State} {k u : Nat} {r : Req} {x : Access} (own : r.dev = s.dev) :
    let c := s.crew u
    let t := (s.setCrew u (c.stxWrite x)).respond k r
    t.crew u = c.stxWrite x ∧ (∀ v, v ≠ u → t.crew v = s.crew v) ∧ t.mem = s.mem ∧ Answered t k { r with readyAt := 0 } := by
  intro c t
  have here : r.dev = (s.setCrew u (c.stxWrite x)).dev := own
  have rest : t.beyondRequests = (s.setCrew u (c.stxWrite x)).beyondRequests := beyondRequests_respond here k
  have crew (v : Nat) : t.crew v = (s.setCrew u (c.stxWrite x)).crew v := (congrArg (State.crew · v) rest :)
  refine ⟨?_, fun v other => ?_, (congrArg State.mem rest :), answered_respond here k⟩
  · rw [crew, State.crew_setCrew, if_pos rfl]
  · rw [crew, State.crew_setCrew, if_neg other]

end Sys2Proof.Machine

open Sys2Proof Sys2Proof.Machine

/-- Settles O39: a put by what its first step gives (`PutReady.made_of_done`, `PutReady.made_of_claimed`), an exchange store by the equation of its
step and `stxWrite_spec`. -/
theorem putsAndExchangeStores : Obligations.PutsAndExchangeStores := by
  refine ⟨fun s k once r x d mpa ready => ⟨fun new may => ⟨fun room weir pa => ready.takesRow new may room weir, ready.refuses new may⟩,
    ready.refused, fun low cap => ⟨fun plain weir pa => ?_, fun single may => ?_⟩⟩, fun s k rank x kind accs own bridge first => ⟨fun u found => ?_,
    fun none gone => ?_, stxAtTarget_waits kind bridge first⟩⟩
  · subst plain
    exact ready.again low cap weir
  · subst single
    exact ready.duplicate low cap may
  · obtain ⟨crew, others, mem, answered⟩ := stx_answered (k := k) (u := u) (x := x) own
    obtain ⟨written, kept⟩ := stxWrite_spec (s.crew u) x
    have step := stxAtTarget_found kind bridge first found
    rw [accs, List.foldl_cons, List.foldl_nil] at step
    refine ⟨_, step, ?_⟩
    dsimp only
    rw [crew]
    exact ⟨rfl, written, kept, rfl, rfl, others, mem, answered⟩
  · have rest := beyondRequests_respond own k
    exact ⟨_, stxAtTarget_lost kind bridge first none gone, (congrArg State.crews rest :), (congrArg State.mem rest :), answered_respond own k⟩
end

section
/-! What a step of a running device does: the agenda, the issue of the decoded word, and the next event (R25, R138, R140, R157, R391). -/

namespace Sys2Proof.Machine

/-- A step that the agenda names comes before anything else (R391). -/
theorem step_of_agenda {s : State} {i : Instr} {r : List Instr} (up : s.bootstat.getLsbD 8 = false) (named : s.agenda = i :: r) :
    step s = exec i { s with agenda := r } := by
  simp only [step, up, named, Bool.false_eq_true, if_false]

theorem step_of_idle {s : State} (up : s.bootstat.getLsbD 8 = false) (free : s.agenda = []) (none : s.nextIssue = none) :
    step s = s.nextEvent s := by
  simp only [step, up, free, none, Bool.false_eq_true, if_false]

/-- A word that the instruction cache does not hold is read from memory, in little-endian order (R138, R140). -/
theorem fetchWord_memory {s : State} {u k pa : Nat} (walked : (s.strand u k).walkFaults = [])
    (place : s.xlate (s.crew u).core (domOf (s.crew u).core) (s.crewLaunch (s.crew u)).part (s.crewLaunch (s.crew u)).space
      (s.strand u k).pc.toNat permX = .ok pa)
    (uncached : s.cachedWord (s.crew u).core pa = none) (clean : s.poisoned pa = false) (own : devOf pa = s.dev) :
    s.fetchWord u k = .word (BitVec.ofNat 32 (leNat (mgetList s.mem pa 4))) := by
  have walked' : ((s.crew u).st k).walkFaults = [] := walked
  have place' : s.xlate (s.crew u).core (domOf (s.crew u).core) (s.crewLaunch (s.crew u)).part (s.crewLaunch (s.crew u)).space
    ((s.crew u).st k).pc.toNat permX = .ok pa := place
  simp [State.fetchWord, walked', place', uncached, clean, own, State.inView, State.rdNat, State.rdBytes]

/-- A word that enters the instruction cache changes nothing else (R140). -/
theorem cacheWord_frame (s : State) (u k : Nat) (w : Word) : { s.cacheWord u k w with icache := [] } = { s with icache := [] } := by
  unfold State.cacheWord
  dsimp only
  split
  · split <;> rfl
  · rfl

/-- The issue of a word that decodes is that instruction's meaning, and then the end of the issue (R157). -/
theorem issueStep_decoded {s t : State} {w : Word} {i : Instr} (word : s.fetchWord s.cur.crew (s.cur.strands.headD 0) = .word w)
    (known : decode w = .ok i) (next : exec i (s.cacheWord s.cur.crew (s.cur.strands.headD 0) w) = .next t) :
    issueStep s = .next t.afterIssue := by
  simp only [issueStep, State.fetchIssue, word, known, next]

end Sys2Proof.Machine

open Sys2Proof Sys2Proof.Machine

/-- Settles O55: the cases of `step` (`step_of_stopped`, `step_of_agenda`, `step_of_idle`, `step_issues`), the fetch of a word from memory, and
what an issue does with a word that decodes. -/
theorem stepRunsDecodedInstruction : Obligations.StepRunsDecodedInstruction := by
  refine fun s => ⟨step_of_stopped, fun up => ⟨fun i r => step_of_agenda up, step_of_idle up, fun x free issue => ?_⟩⟩
  intro q k st c l pa walked place uncached clean own i known run
  have kept : { run with icache := [] } = { q with icache := [] } := cacheWord_frame ..
  refine ⟨fun t next => ?_, (congrArg State.mem kept :), (congrArg State.crews kept :), (congrArg State.cur kept :)⟩
  rw [step_issues up free issue]
  exact issueStep_decoded (s := q) (fetchWord_memory (s := q) walked place uncached clean own) known next
end

section
/-! What replies and acknowledgements do at the strand (R127, R227, R231, R232, R243, R291, R300, R304). -/

namespace Sys2Proof.Machine

/-! Masks of threads. -/

theorem maskOf_single {t : Nat} (thread : t < 32) : maskOf (fun j => decide (t = j)) = 1#32 <<< t := by
  refine BitVec.eq_of_getLsbD_eq fun i low => ?_
  rw [maskOf_bit _ i low, BitVec.getLsbD_shiftLeft, BitVec.getLsbD_one, Bool.eq_iff_iff]
  simp only [decide_eq_true_eq, Bool.and_eq_true, Bool.not_eq_true', decide_eq_false_iff_not, Nat.zero_lt_succ, true_and]
  omega

theorem lowThread_zero : lowThread 0 = 32 := by decide

theorem lowThread_lt {m : Word} (some : m ≠ 0) : lowThread m < 32 := by
  obtain ⟨t, low, bit⟩ : ∃ t < 32, m.getLsbD t = true := by
    by_contra none
    push Not at none
    exact some (BitVec.eq_of_getLsbD_eq fun i low => by simpa using none i low)
  cases found : (List.range 32).find? (fun t => tbit m t) with
  | none => exact absurd bit (List.find?_eq_none.1 found t (List.mem_range.2 low))
  | some j =>
    rw [lowThread, found]
    exact List.mem_range.1 (List.mem_of_find?_eq_some found)

theorem single_ne_zero {t : Nat} (thread : t < 32) : (1#32 <<< t) ≠ 0 := fun none => by
  have bit : (1#32 <<< t).getLsbD t = false := by rw [none]; simp
  simp [thread] at bit

/-! A change of one strand, and another of the same. -/

theorem OnlyStrand.setStrand {s t : State} {u k : Nat} {f : Strand} (only : OnlyStrand s u k f t) (g : Strand) :
    OnlyStrand s u k g (t.setStrand u k g) := by
  obtain ⟨_, others, crews, machine⟩ := only
  refine ⟨(State.strand_setStrand ..).trans (if_pos ⟨rfl, rfl⟩), fun v j h => ?_, fun v => (State.crew_setStrand_rest ..).trans (crews v), machine⟩
  rw [State.strand_setStrand, if_neg h, others v j h]

/-- An acknowledgement lowers the count of its strand (R127). -/
theorem OnlyStrand.ackOne {s t : State} {u k : Nat} {f : Strand} (only : OnlyStrand s u k f t) (core n : Nat) :
    OnlyStrand s u k (f.unack (domOf core) (· - n)) (t.ackOne u k core n) := by
  have same : t.strand u k = f := only.1
  rw [State.ackOne, same]
  exact only.setStrand _

/-! LOAD_REPLY (R231, R232, R300). -/

/-- The strand after a reply: its registers and O7, the failure, and with the last reply the end of the instruction. -/
def Strand.afterReply (st : Strand) (r : Req) : Strand :=
  let st1 := (st.writeReply r).writeReg (.o 7) (tagMask r.tags) (tagVal r.tags)
  let st2 := { st1 with mem := { st.mem.fails r with left := st.mem.left - 1 } }
  if st2.mem.left = 0 then st2.replied else st2

theorem deliverReply_only {s : State} {r : Req} (kept : r.dropped = false) (live : (s.strand r.crew r.strand).mem.live = true) (k : Nat) :
    OnlyStrand { s with back := mset s.back k default } r.crew r.strand ((s.strand r.crew r.strand).afterReply r) (s.deliverReply k r) := by
  have e : s.deliverReply k r =
      { s with back := mset s.back k default }.setStrand r.crew r.strand ((s.strand r.crew r.strand).afterReply r) := by
    simp [State.deliverReply, Strand.afterReply, kept, live]
  rw [e]
  exact onlyStrand_setStrand ..

/-- A reply that is due reaches its strand; one that L1 has answered passes no router port (R232, R370, R379). -/
theorem loadReply_delivers {s : State} {k : Nat} (due : (mget s.back k).readyAt ≤ s.time)
    (kind : (mget s.back k).kind = .load ∨ (∃ a, (mget s.back k).kind = .atomic a) ∨ ∃ a, (mget s.back k).kind = .atomicW a)
    (way : (mget s.back k).readyAt = 0 → s.replyHeld (mget s.back k) = false) : exec (.loadReply k) s =
      .next ((if (mget s.back k).readyAt = 0 then s.useRouter (chipOf (mget s.back k).core) else s).deliverReply k (mget s.back k)) := by
  have past : ¬ s.time < (mget s.back k).readyAt := by omega
  rw [exec_loadReply, execLoadReply]
  by_cases home : (mget s.back k).readyAt = 0
  · rcases kind with kind | ⟨a, kind⟩ | ⟨a, kind⟩ <;> simp [kind, home, way home]
  · rcases kind with kind | ⟨a, kind⟩ | ⟨a, kind⟩ <;> simp [kind, home, past]

theorem afterReply_last {st : Strand} {r : Req} (last : st.mem.left = 1) (clean : st.mem.faults = 0) (good : r.fail = 0) : st.afterReply r =
    ({ (st.writeReply r).writeReg (.o 7) (tagMask r.tags) (tagVal r.tags) with mem := default, wait := .ready } : Strand).seq := by
  simp [Strand.afterReply, Strand.replied, MemOp.fails, last, clean, good]

theorem afterReply_more {st : Strand} {r : Req} (more : 1 < st.mem.left) (good : r.fail = 0) : st.afterReply r =
    { (st.writeReply r).writeReg (.o 7) (tagMask r.tags) (tagVal r.tags) with mem := { st.mem with left := st.mem.left - 1 } } := by
  have left : st.mem.left - 1 ≠ 0 := by omega
  simp [Strand.afterReply, MemOp.fails, left, good]

/-- A reply writes V and O registers only. -/
theorem writeReply_changes (st : Strand) (r : Req) : ∃ v o, st.writeReply r = { st with v := v, o := o } := by
  unfold Strand.writeReply Strand.writeLoaded
  dsimp only
  split
  · split
    · exact ⟨_, _, rfl⟩
    · split <;> exact ⟨_, _, rfl⟩
  · exact writeReg_changes ..

/-- An instruction with threads that failed leaves its partial fault to be taken (R231). -/
theorem replied_faults {st : Strand} (failed : st.mem.faults ≠ 0) : st.replied =
    { st with mem := default, wait := .ready, pending := some (dataTrap st st.mem.cause st.mem.tval st.mem.faults) } := by
  rw [Strand.replied]
  exact if_neg failed

/-- The failure of a first reply that fails, in its one thread (R300). -/
theorem fails_first {m : MemOp} {r : Req} {x : Access} (clean : m.faults = 0) (bad : r.fail ≠ 0) (one : r.accs = [x]) (thread : x.thread < 32) :
    m.fails r = { m with faults := 1#32 <<< x.thread, cause := r.fail, tval := x.va } := by
  have mask : maskOf (fun t => [x].any (fun y => decide (y.thread = t))) = 1#32 <<< x.thread := by simpa using maskOf_single thread
  have low : lowThread (1#32 <<< x.thread) < lowThread 0 := by rw [lowThread_zero]; exact lowThread_lt (single_ne_zero thread)
  simp only [MemOp.fails, bad, if_false, one, mask, clean, low, if_true, List.headD_cons]
  simp

/-- The last reply fails in its one thread: the strand has the partial fault to take (R231, R300). -/
theorem afterReply_faults {st : Strand} {r : Req} {x : Access} (last : st.mem.left = 1) (clean : st.mem.faults = 0) (bad : r.fail ≠ 0)
    (one : r.accs = [x]) (thread : x.thread < 32) : st.afterReply r =
    { (st.writeReply r).writeReg (.o 7) (tagMask r.tags) (tagVal r.tags) with
      mem := default, wait := .ready
      pending := some { cause := r.fail, code := 0, pend := 0, epc := st.pc, tval := x.va, replay := true, mask := 1#32 <<< x.thread } } := by
  obtain ⟨v, o, written⟩ := writeReply_changes st r
  have done : st.mem.left - 1 = 0 := by omega
  unfold Strand.afterReply
  dsimp only
  rw [if_pos done, fails_first clean bad one thread, replied_faults (single_ne_zero thread), written]
  rfl

/-! ACKNOWLEDGEMENT (R127, R243, R304). -/

/-- Acknowledgement k leaves the way back: its router port carries it (R379). -/
def State.ackTaken (s : State) (k : Nat) : State := { s.useRouter (chipOf (mget s.back k).core) with back := mset s.back k default }

section
variable {s : State} {k : Nat} (kind : (mget s.back k).kind = .store) (way : s.replyHeld (mget s.back k) = false)
  (own : devOf (mget s.back k).pa = s.dev)
include kind way own

theorem acknowledgement_dropped (gone : (mget s.back k).dropped = true) : exec (.acknowledgement k) s = .next (s.ackTaken k) := by
  have here : devOf (mget s.back k).pa = (s.ackTaken k).dev := own
  simp [execAcknowledgement, kind, way, gone, State.pathAck, State.ackTaken, State.useRouter, own]

theorem acknowledgement_store (kept : (mget s.back k).dropped = false) (single : (mget s.back k).mst = 0) :
    exec (.acknowledgement k) s = .next ((s.ackTaken k).ackStore (mget s.back k)) := by
  simp [execAcknowledgement, kind, way, kept, single, State.pathAck, State.ackTaken, State.useRouter, own]

/-- The acknowledgement of one copy of an MST waits at the source switch while others are still on their way (R243, R359). -/
theorem acknowledgement_copy (kept : (mget s.back k).dropped = false) (several : (mget s.back k).mst ≠ 0)
    (first : (mget s.back k).noted = false) (more : ∃ e ∈ s.net, e.2.mst = (mget s.back k).mst ∧ e.2.dev = s.dev) :
    exec (.acknowledgement k) s =
      .next { s.useRouter (chipOf (mget s.back k).core) with back := mset s.back k { mget s.back k with noted := true } } := by
  obtain ⟨e, there, copy⟩ := more
  have under : ∀ t : State, t.net = s.net → t.dev = s.dev → t.mstWhole (mget s.back k).mst = false := fun t net dev => by
    have some : (t.copiesOf t.net (mget s.back k).mst).isEmpty = false := by
      rw [List.isEmpty_eq_false_iff_exists_mem]
      exact ⟨e, List.mem_filter.2 ⟨net ▸ there, by simp [copy, dev]⟩⟩
    simp [State.mstWhole, some]
  simp [execAcknowledgement, kind, way, kept, several, first, State.pathAck, State.useRouter, own, under]
end

theorem writeThreads_none (m : FMap Word) (base : Nat) {mask : Word} (none : mask = 0) (r : Nat → Word) : ∀ n, writeThreads m base mask r n = m
  | 0 => rfl
  | n + 1 => by simpa [writeThreads, tbit, none] using writeThreads_none m base none r n

theorem writeReg_o_none (st : Strand) (n : Fin 8) {mask : Word} (none : mask = 0) (r : Nat → Word) : st.writeReg (.o n) mask r = st := by
  rw [Strand.writeReg, writeThreads_none _ _ none]

/-- The record of a failure that has arrived (R304). -/
def State.failureRecord (s : State) (r : Req) (va : Word64) : SfRecord :=
  { core := r.core, crew := r.crew, strand := r.strand, launch := (s.crew r.crew).launch, pc := r.pc, va := va, cause := r.fail, z := r.z
    stamp := s.ltime, waiting := false }

section
variable {s : State} {r : Req} (plain : r.tag = false) (untagged : r.tags = [])
include plain untagged

/-- Without tags an acknowledgement leaves the strand's registers as they are. -/
theorem ackStore_eq : s.ackStore r =
    let s1 := s.setStrand r.crew r.strand (s.strand r.crew r.strand)
    if r.fail = 0 then s1.ackOne r.crew r.strand r.core r.accs.length else s1.failRecord r r.accs.length := by
  have mask : tagMask r.tags = 0 := by rw [untagged]; decide
  rw [State.ackStore, writeReg_o_none _ _ mask, plain]
  rfl

theorem ackStore_good (good : r.fail = 0) : OnlyStrand s r.crew r.strand
    ((s.strand r.crew r.strand).unack (domOf r.core) (· - r.accs.length)) (s.ackStore r) := by
  rw [ackStore_eq plain untagged]
  dsimp only
  rw [if_pos good]
  exact (onlyStrand_setStrand ..).ackOne _ _

variable {x : Access} (bad : r.fail ≠ 0) (one : r.accs = [x])
include bad one

/-- A failing acknowledgement of one access: the failure arrives (R304). -/
theorem ackStore_bad : ∃ t, OnlyStrand s r.crew r.strand (s.strand r.crew r.strand) t ∧
    s.ackStore r = t.addFailure r.crew r.strand r.core (s.crew r.crew).launch r.pc x.va r.fail r.z := by
  have only := (onlyStrand_setStrand s r.crew r.strand (s.strand r.crew r.strand)).ackOne r.core 0
  have same : (s.strand r.crew r.strand).unack (domOf r.core) (· - 0) = s.strand r.crew r.strand := by
    unfold Strand.unack; split <;> rfl
  rw [same] at only
  have launch : ((s.setStrand r.crew r.strand (s.strand r.crew r.strand)).crew r.crew).launch = (s.crew r.crew).launch :=
    (congrArg Crew.launch (State.crew_setStrand_rest s r.crew r.strand r.crew _) :)
  refine ⟨_, only, ?_⟩
  rw [ackStore_eq plain untagged]
  dsimp only
  rw [if_neg bad, State.failRecord, one, State.launchIdOf, launch]
  rfl

/-- That of a strand that TERM has ended makes no record (R291, R305). -/
theorem ackStore_ended (ended : (s.strand r.crew r.strand).ended = true) : OnlyStrand s r.crew r.strand
    ((s.strand r.crew r.strand).unack (domOf r.core) (· - 1)) (s.ackStore r) := by
  obtain ⟨t, only, eq⟩ := ackStore_bad plain untagged bad one
  have gone : (t.strand r.crew r.strand).ended = true := by rw [only.1, ended]
  rw [eq, State.addFailure, if_pos gone]
  exact only.ackOne _ _

/-- While the queue has room the failure has a record of its own, and the strand's count falls (R304). -/
theorem ackStore_record (lives : (s.strand r.crew r.strand).ended = false) (room : s.sfrqCount r.core < 64) :
    (s.ackStore r).strand r.crew r.strand = (s.strand r.crew r.strand).unack (domOf r.core) (· - 1) ∧ (s.ackStore r).mem = s.mem ∧
    mget (s.ackStore r).sfrq s.nextId = s.failureRecord r x.va := by
  obtain ⟨t, only, eq⟩ := ackStore_bad plain untagged bad one
  obtain ⟨same, others, crews, machine⟩ := only
  have mem : t.mem = s.mem := (congrArg State.mem machine :)
  have sfrq : t.sfrq = s.sfrq := (congrArg State.sfrq machine :)
  have next : t.nextId = s.nextId := (congrArg State.nextId machine :)
  have time : t.time = s.time := (congrArg State.time machine :)
  have free : decide (64 ≤ t.sfrqCount r.core) = false := by
    rw [State.sfrqCount, sfrq, decide_eq_false_iff_not, Nat.not_le]; exact room
  have there : ¬ (t.strand r.crew r.strand).ended = true := by rw [same, lives]; exact Bool.false_ne_true
  rw [eq, State.addFailure, if_neg there]
  simp only [free, Bool.false_eq_true, if_false]
  refine ⟨?_, mem, ?_⟩
  · rw [State.ackOne, State.strand_setStrand, if_pos ⟨rfl, rfl⟩]
    exact congrArg (fun f : Strand => f.unack _ _) same
  · rw [State.ackOne, State.setStrand_sfrq]
    simp [sfrq, next, State.failureRecord, State.ltime, time]

end

end Sys2Proof.Machine

open Sys2Proof Sys2Proof.Machine

/-- Settles O38: a reply changes its strand alone, and an acknowledgement its strand's count, the store-fault queue, or its own mark. -/
theorem replies : Obligations.Replies := by
  unfold Obligations.Replies
  intro s k
  dsimp only
  refine ⟨fun kind due kept live way => ?_, fun kind way own => ⟨fun kept single plain untagged => ?_, fun kept several first more => ?_, fun gone => ?_⟩⟩
  · have delivered := loadReply_delivers due kind way
    have only : OnlyStrand { (if (mget s.back k).readyAt = 0 then s.useRouter ((mget s.back k).core / 12) else s) with back := mset s.back k default }
        (mget s.back k).crew (mget s.back k).strand ((s.strand (mget s.back k).crew (mget s.back k).strand).afterReply (mget s.back k))
        ((if (mget s.back k).readyAt = 0 then s.useRouter ((mget s.back k).core / 12) else s).deliverReply k (mget s.back k)) := by
      split
      · exact deliverReply_only (s := s.useRouter ((mget s.back k).core / 12)) kept live k
      · exact deliverReply_only kept live k
    refine ⟨fun last clean good => ⟨_, delivered, ?_⟩, fun more good => ⟨_, delivered, ?_⟩, fun x last clean bad one thread => ⟨_, delivered, ?_⟩⟩
    · rwa [afterReply_last last clean good] at only
    · rwa [afterReply_more more good] at only
    · rwa [afterReply_faults last clean bad one thread] at only
  · have taken := acknowledgement_store kind way own kept single
    exact ⟨fun good => ⟨_, taken, ackStore_good plain untagged good⟩,
      fun x bad one ended => ⟨_, taken, ackStore_ended plain untagged bad one ended⟩,
      fun x bad one lives room => ⟨_, taken, ackStore_record plain untagged bad one lives room⟩⟩
  · exact ⟨_, acknowledgement_copy kind way own kept several first more, rfl, rfl, mget_mset_same ..⟩
  · exact ⟨_, acknowledgement_dropped kind way own gone, rfl, rfl, mget_mset_same ..⟩
end

section
/-! Steps of collective lists (R133, R136, R249, R250, R361): what a list reads, the command that it runs, and how it goes on, ends and writes. -/

namespace Sys2Proof.Machine

/-! What a read for a list changes: walks are asked for, pseudo-channels wake or stay awake (R339, R378). -/

/-- The state without what a read for a list can change. -/
def State.besidesReads (s : State) : State :=
  { s with walks := [], nextId := 0, engineFaults := [], channelUsed := [], channelAsleep := [] }

theorem askEngineWalk_besidesReads (s : State) (tok dom part space va : Nat) :
    (s.askEngineWalk tok dom part space va).besidesReads = s.besidesReads := by
  unfold State.askEngineWalk
  split
  · split <;> rfl
  · rfl

theorem withWalks_besidesReads (s : State) (tok core part space : Nat) (ranges : List (Nat × Nat)) :
    (s.withWalks tok core part space ranges id).besidesReads = s.besidesReads := by
  unfold State.withWalks
  generalize (if engDom core = noCore then [] else s.pagesMissed tok core part space ranges) = missed
  dsimp only
  split
  · rfl
  · exact foldl_keeps State.besidesReads (fun t va => askEngineWalk_besidesReads t tok (engDom core) part space va) _ s

theorem wakeChannels_besidesReads (s : State) (lines : List Nat) : (s.wakeChannels lines).besidesReads = s.besidesReads := by
  refine foldl_keeps State.besidesReads (fun t ch => ?_) _ s
  split <;> rfl

theorem listRead_besidesReads (s : State) (r : CollRun) (op : Op) (va n : Nat) : (s.listRead r op va n).2.besidesReads = s.besidesReads := by
  unfold State.listRead
  dsimp only
  split
  · rfl
  · split
    · exact withWalks_besidesReads ..
    · split
      · rfl
      · exact wakeChannels_besidesReads ..

theorem listRead_snd {s t : State} {r : CollRun} {op : Op} {va n : Nat} {x : RdRes} (read : s.listRead r op va n = (x, t)) :
    t.besidesReads = s.besidesReads := by
  have := listRead_besidesReads s r op va n
  rwa [read] at this

/-! The command that a list runs. -/

theorem begun_run (s : State) (k : Nat) (b : List Byte) : mget (s.begun k b).colls k =
    if (mget s.colls k).cmd.isEmpty then { mget s.colls k with cmd := b, weir := s.cmdWeir (s.listOp k) (cmdOf b (s.listOp k).b) }
    else mget s.colls k := by
  unfold State.begun
  dsimp only
  rw [mget_mset_same]

@[simp] theorem begun_handle (s : State) (k : Nat) (b : List Byte) : (mget (s.begun k b).colls k).handle = (mget s.colls k).handle := by
  rw [begun_run]; split <;> rfl

@[simp] theorem begun_index (s : State) (k : Nat) (b : List Byte) : (mget (s.begun k b).colls k).index = (mget s.colls k).index := by
  rw [begun_run]; split <;> rfl

theorem begun_op (s : State) (k : Nat) (b : List Byte) : (s.begun k b).listOp k = { s.listOp k with started := true } := by
  rw [State.listOp, begun_handle]
  unfold State.begun
  dsimp only
  rw [mget_mset_same]

theorem besidesReads_rest {s t : State} (same : t.besidesReads = s.besidesReads) (ops : FMap Op) (colls : FMap CollRun) :
    { ({ t with ops := ops, colls := colls } : State).besidesReads with ops := [], colls := [] } =
      { s.besidesReads with ops := [], colls := [] } := (congrArg (fun t : State => { t with ops := [], colls := [] }) same :)

/-- Up to its own operation, its own run and what a read changes, the state in which a command runs is the one before. -/
theorem begun_rest (s : State) (k : Nat) (b : List Byte) :
    { (s.begun k b).besidesReads with ops := [], colls := [] } = { s.besidesReads with ops := [], colls := [] } := by
  have read := listRead_besidesReads s (mget s.colls k) (s.listOp k) ((s.listOp k).a.toNat + 32 * (mget s.colls k).index) 32
  rw [State.begun]
  dsimp only
  generalize s.listRead (mget s.colls k) (s.listOp k) ((s.listOp k).a.toNat + 32 * (mget s.colls k).index) 32 = x at read ⊢
  refine besidesReads_rest ?_ _ _
  split
  · exact read
  · rfl

section
variable (s : State) (k : Nat) (b : List Byte)
@[simp] theorem begun_mem : (s.begun k b).mem = s.mem := (congrArg State.mem (begun_rest s k b) :)
@[simp] theorem begun_crews : (s.begun k b).crews = s.crews := (congrArg State.crews (begun_rest s k b) :)
@[simp] theorem begun_signals : (s.begun k b).signals = s.signals := (congrArg State.signals (begun_rest s k b) :)
end

theorem fetched {s : State} {r : CollRun} {op : Op} {b : List Byte} {read : RdRes × State} (some : b ≠ [])
    (now : r.cmd = b ∨ r.cmd = [] ∧ op.cancel = false ∧ s.listTurn r = true ∧ read.1 = .ok b) :
    ¬ (r.cmd.isEmpty && op.cancel) = true ∧ s.listTurn r = true ∧
      (if r.cmd.isEmpty then read else (.ok r.cmd, s)) = (.ok b, if r.cmd.isEmpty then read.2 else s) := by
  obtain kept | ⟨empty, stays, turn, got⟩ := now
  · simp [State.listTurn, kept, some]
  · rw [empty, stays, turn]
    exact ⟨Bool.false_ne_true, rfl, Prod.ext got rfl⟩

/-- The run of list k in the state in which it runs the command `b`. -/
abbrev State.runAt (s : State) (k : Nat) (b : List Byte) : CollRun := mget (s.begun k b).colls k
/-- The operation of list k in that state. -/
abbrev State.opAt (s : State) (k : Nat) (b : List Byte) : Op := (s.begun k b).listOp k
/-- The command that list k runs. -/
abbrev State.cmdAt (s : State) (k : Nat) (b : List Byte) : Cmd := cmdOf b (s.opAt k b).b

/-- A list that runs a command takes the command's step. -/
theorem listStep_runs {s : State} {k : Nat} {b : List Byte} (runs : s.runs k b) {mine : Nat → Bool}
    (body : State → CollRun → Op → Cmd → State) (own : mine (s.cmdAt k b).op = true) :
    s.listStep k mine body =
      .next (body (s.begun k b) (s.runAt k b) (s.opAt k b) (s.cmdAt k b)) := by
  obtain ⟨alive, some, now⟩ := runs
  obtain ⟨going, turn, fetch⟩ := fetched some now
  have live : ¬ (!(mget s.colls k).live) = true := by simp [alive]
  unfold State.cmdAt State.opAt at own ⊢
  unfold State.runAt
  rw [begun_run]
  rw [begun_op] at own ⊢
  unfold State.listOp at going fetch own ⊢
  unfold State.listStep
  dsimp only at fetch own ⊢
  rw [if_neg live, if_neg going, if_neg (by simp [turn]), fetch]
  exact if_pos own

/-! How a list goes on and ends. -/

section
variable {s : State} {k : Nat} {b : List Byte} {t : State} {r : CollRun} (run : r.handle = (mget s.colls k).handle) (crews : t.crews = s.crews)
include run crews

theorem goesOn_listNext (index : r.index = (mget s.colls k).index) : GoesOn s k (t.listNext k r) :=
  ⟨(mget_mset_same ..).trans (by rw [run, index]), crews⟩

theorem listEnds_listEnd (status cause detail : Nat) : ListEnds s k status cause detail (t.listEnd k r status cause detail) :=
  ⟨mget_mset_same .., run ▸ (resolved_endOp r.handle.isLt _ status cause detail).2, crews⟩

end

theorem atRun_setRun {s t m : State} (k : Nat) (r : CollRun) (mem : t.mem = m.mem) (crews : t.crews = s.crews) : AtRun s k r m (t.setRun k r) :=
  ⟨mget_mset_same .., mem, crews⟩

/-! What a list writes (R136). -/

theorem writeVirt_nothing {s : State} (k : Nat) {r : CollRun} (op : Op) (none : r.out = []) : s.writeVirt k r op = .done := by
  unfold State.writeVirt State.writeOut
  rw [none]
  rfl

/-- The first part of a list's results goes out when its line is open and may be written. -/
theorem writeOut_first {s s1 : State} {k : Nat} {r : CollRun} {op : Op} {lines : Nat × List Byte → List Nat}
    {wr : Bool → Nat × List Byte → Option (State × Nat)} {x : Nat × List Byte} {rest : List (Nat × List Byte)} (out : r.out = x :: rest)
    (way : s.listOpen op (lines x) = true) (made : wr (!(lines x).all r.lines.contains) x = some (s1, 0)) :
    s.writeOut k r op lines wr = .wait (((s1.unqueue (opToken r.handle.toNat) (fun l => (lines x).contains l)).useChannels (lines x)).setRun k
      { r with out := rest, lines := r.lines ++ lines x }) := by
  have first : (List.range (x :: rest).length).find? (fun i => s.listOpen op (lines ((x :: rest).getD i x)) &&
      (wr (!(lines ((x :: rest).getD i x)).all r.lines.contains) ((x :: rest).getD i x)).isSome) = some 0 := by
    rw [List.length_cons, List.range_succ_eq_map, List.find?_cons]
    simp [way, made]
  unfold State.writeOut
  simp only [out, first, List.getD_cons_zero, made, List.eraseIdx_cons_zero]

/-- A write for a list that performs changes memory, sequence numbers and poison only. -/
theorem wrVirtBy_field {s t : State} {tok core part space va : Nat} {counts : Bool} {l : List Byte}
    (h : s.wrVirtBy tok counts core part space va l = .ok t) {β : Type}
    (f : State → β) (hf : ∀ s : State, f s = f { s with mem := [], seqs := [], poison := [] }) : f t = f s := by
  obtain ⟨q, hq, kept⟩ := foldl_wr_field (fun r p t h => by
    cases r with
    | ok q =>
      refine ⟨q, rfl, ?_⟩
      dsimp only at h
      split at h
      · split at h
        · cases h
        · split at h
          · have wrote := fun pa l => wrEngine_field q pa l f hf
            split at h
            · cases h; exact wrote ..
            · cases h; rw [← wrote, hf, hf (State.wrEngine ..)]
          · cases h
      · cases h
      · cases h
    | fault c o => cases h
    | busy => cases h) _ _ _ h
  cases hq
  exact kept

theorem writeVirt_first {s s1 : State} {k : Nat} {r : CollRun} {op : Op} {x : Nat × List Byte} {rest : List (Nat × List Byte)} {lines : List Nat}
    (out : r.out = x :: rest)
    (walked : s.pagesMissed (opToken r.handle.toNat) op.engine op.part op.space (r.out.map (fun y => (y.1, y.2.length))) = [])
    (there : s.virtLines op.engine op.part op.space x.1 x.2.length permW = lines)
    (way : (s.walksDone (opToken r.handle.toNat)).listOpen op lines = true)
    (made : (s.walksDone (opToken r.handle.toNat)).wrVirtBy (opToken r.handle.toNat) (!lines.all r.lines.contains) op.engine op.part op.space x.1 x.2 =
      .ok s1) :
    s.writeVirt k r op = .wait (((s1.unqueue (opToken r.handle.toNat) (fun l => lines.contains l)).useChannels lines).setRun k
      { r with out := rest, lines := r.lines ++ lines }) := by
  subst there
  unfold State.writeVirt
  dsimp only
  rw [walked, List.isEmpty_nil, Bool.not_true, if_neg Bool.false_ne_true]
  refine writeOut_first (lines := fun x => s.virtLines op.engine op.part op.space x.1 x.2.length permW) out way ?_
  rw [made]

/-- A step that lets list k write its results does so. -/
theorem writesOut_of_wait {s0 s : State} {k : Nat} {i : Instr} (crews : s0.crews = s.crews)
    (step : (mget s0.colls k).formed = true → ∀ t, s0.writeVirt k (mget s0.colls k) (s0.listOp k) = .wait t → exec i s = .next t) :
    WritesOut s0 k i s := by
  intro x rest s1 formed out walked lines way made
  exact ⟨_, step formed _ (writeVirt_first out walked rfl way made),
    atRun_setRun k _ rfl ((wrVirtBy_field made State.crews fun _ => rfl).trans crews)⟩

end Sys2Proof.Machine
end

section
/-! The commands of a list that concern this device alone (R362, R364, R365), and commands that break a rule (R361). -/

namespace Sys2Proof.Machine

/-! Before a command: the list's turn, and cancellation (R133, R250). -/

theorem exec_listStep {k : Nat} {i : Instr} (own : ListStep k i) (s : State) : ∃ mine body, exec i s = s.listStep k mine body := by
  simp only [ListStep, List.mem_cons, List.not_mem_nil, or_false] at own
  rcases own with rfl | rfl | rfl | rfl | rfl | rfl | rfl | rfl | rfl | rfl | rfl
  exacts [⟨_, _, exec_cEnd s k⟩, ⟨_, _, exec_send s k⟩, ⟨_, _, exec_recv s k⟩, ⟨_, _, exec_reduce s k⟩, ⟨_, _, exec_mcast s k⟩,
    ⟨_, _, exec_waittl s k⟩, ⟨_, _, exec_waitweir s k⟩, ⟨_, _, exec_signal s k⟩, ⟨_, _, exec_compress s k⟩, ⟨_, _, exec_decompress s k⟩,
    ⟨_, _, exec_barrier s k⟩]

section
variable {s : State} {k : Nat} (live : (mget s.colls k).live = true) (idle : (mget s.colls k).cmd = []) (mine : Nat → Bool)
  (body : State → CollRun → Op → Cmd → State)
include live idle

theorem listStep_cancelled (cancel : (s.listOp k).cancel = true) : s.listStep k mine body = .next (s.listEnd k (mget s.colls k) 4 0 0) := by
  unfold State.listOp at cancel
  simp [State.listStep, live, idle, cancel]

theorem listStep_early (going : (s.listOp k).cancel = false) (early : s.listTurn (mget s.colls k) = false) : s.listStep k mine body = .next s := by
  unfold State.listOp at going
  simp [State.listStep, live, idle, going, early]

end

/-! The ends of a command's step, after what a read for it has changed. -/

section
variable {s : State} {k : Nat} (b : List Byte)

theorem begun_listEnd (status cause detail : Nat) : ListEnds s k status cause detail
      ((s.begun k b).listEnd k (s.runAt k b) status cause detail) ∧
    ((s.begun k b).listEnd k (s.runAt k b) status cause detail).mem = s.mem :=
  ⟨listEnds_listEnd (begun_handle ..) (begun_crews s k b) .., begun_mem s k b⟩

theorem begun_listNext {t : State} (crews : t.crews = (s.begun k b).crews) (mem : t.mem = (s.begun k b).mem) :
    GoesOn s k (t.listNext k (s.runAt k b)) ∧ (t.listNext k (s.runAt k b)).mem = s.mem :=
  ⟨goesOn_listNext (begun_handle ..) (crews.trans (begun_crews s k b)) (begun_index ..), mem.trans (begun_mem s k b)⟩

theorem begun_setRun {t : State} (r : CollRun) (rest : t.besidesReads = (s.begun k b).besidesReads) : AtRun s k r s (t.setRun k r) :=
  atRun_setRun k r ((congrArg State.mem rest :).trans (begun_mem s k b)) ((congrArg State.crews rest :).trans (begun_crews s k b))

end

/-! Commands without a group. -/

section
variable {s : State} {k : Nat} {b : List Byte} (runs : s.runs k b) {i : Instr} {mine : Nat → Bool} {body : State → CollRun → Op → Cmd → State}
  (step : exec i s = s.listStep k mine (plainCmd k body)) (own : mine (s.cmdAt k b).op = true)
include runs step own

/-- A command that breaks a rule resolves its list as BAD_SHAPE with its index (R361). -/
theorem plainCmd_bad (bad : (s.cmdAt k b).bad = true) :
    Answers (exec i s) (fun t => ListEnds s k 2 0 (s.runAt k b).index t ∧ t.mem = s.mem) := by
  refine ⟨_, step.trans (listStep_runs runs _ own), ?_⟩
  rw [plainCmd, if_pos bad]
  exact begun_listEnd b ..

theorem plainCmd_good (good : (s.cmdAt k b).bad = false) : exec i s =
    .next (body (s.begun k b) (s.runAt k b) (s.opAt k b) (s.cmdAt k b)) := by
  rw [step, listStep_runs runs _ own, plainCmd, good]
  rfl

end

/-! Commands that form their results at one instant and then write them (R136). -/

section
variable {s : State} {k : Nat} {r : CollRun} {op : Op}

theorem formCmd_one (first : r.formed = false) {va n : Nat} {l : List Byte} {form : List (List Byte) → List (Nat × List Byte)}
    (read : (s.listRead r op va n).1 = .ok l) : s.formCmd k r op [(va, n)] form =
    (s.listRead r op va n).2.setRun k { r with formed := true, lines := [], out := (form [l]).flatMap (fun w => lineSpans w.1 w.2) } := by
  obtain ⟨s1, whole⟩ : ∃ s1, s.listRead r op va n = (.ok l, s1) := ⟨_, Prod.ext read rfl⟩
  simp [State.formCmd, first, whole]

theorem formCmd_two (first : r.formed = false) {va n va' n' : Nat} {l l' : List Byte} {s1 : State}
    {form : List (List Byte) → List (Nat × List Byte)} (read : s.listRead r op va n = (.ok l, s1))
    (read' : (s1.listRead r op va' n').1 = .ok l') : s.formCmd k r op [(va, n), (va', n')] form =
    (s1.listRead r op va' n').2.setRun k { r with formed := true, lines := [], out := (form [l, l']).flatMap (fun w => lineSpans w.1 w.2) } := by
  obtain ⟨s2, whole⟩ : ∃ s2, s1.listRead r op va' n' = (.ok l', s2) := ⟨_, Prod.ext read' rfl⟩
  simp [State.formCmd, first, read, whole]

variable (formed : r.formed = true) (reads : List (Nat × Nat)) (form : List (List Byte) → List (Nat × List Byte))
include formed

theorem formCmd_done (none : r.out = []) : s.formCmd k r op reads form = s.listNext k r := by
  rw [State.formCmd, if_pos formed, writeVirt_nothing k op none]

theorem formCmd_writes {t : State} (wait : s.writeVirt k r op = .wait t) : s.formCmd k r op reads form = t := by
  rw [State.formCmd, if_pos formed, wait]

end

/-! Such a command as the step of its list. -/

section
variable {s : State} {k : Nat} {b : List Byte} {i : Instr} {reads : List (Nat × Nat)} {form : List (List Byte) → List (Nat × List Byte)}
  (step : exec i s = .next ((s.begun k b).formCmd k (s.runAt k b) (s.opAt k b) reads form))
include step

theorem forms_one (first : (s.runAt k b).formed = false) {va n : Nat} {l : List Byte} (one : reads = [(va, n)])
    (read : ((s.begun k b).listRead (s.runAt k b) (s.opAt k b) va n).1 = .ok l) : Answers (exec i s) (AtRun s k
      { s.runAt k b with formed := true, lines := [], out := (form [l]).flatMap (fun w => lineSpans w.1 w.2) } s) := by
  subst one
  refine ⟨_, step, ?_⟩
  rw [formCmd_one first read]
  exact begun_setRun b _ (listRead_besidesReads ..)

theorem forms_two (first : (s.runAt k b).formed = false) {va n va' n' : Nat} {l l' : List Byte} {s1 : State} (two : reads = [(va, n), (va', n')])
    (read : (s.begun k b).listRead (s.runAt k b) (s.opAt k b) va n = (.ok l, s1))
    (read' : (s1.listRead (s.runAt k b) (s.opAt k b) va' n').1 = .ok l') : Answers (exec i s) (AtRun s k
      { s.runAt k b with formed := true, lines := [], out := (form [l, l']).flatMap (fun w => lineSpans w.1 w.2) } s) := by
  subst two
  refine ⟨_, step, ?_⟩
  rw [formCmd_two first read read']
  exact begun_setRun b _ ((listRead_besidesReads ..).trans (listRead_snd read))

/-- What has been formed goes out, and then the list goes on. -/
theorem forms_ends : WritesOut (s.begun k b) k i s ∧ ((s.runAt k b).formed = true → (s.runAt k b).out = [] →
    Answers (exec i s) (fun t => GoesOn s k t ∧ t.mem = s.mem)) := by
  refine ⟨writesOut_of_wait (begun_crews s k b) fun formed t wait => ?_, fun formed none => ⟨_, step, ?_⟩⟩
  · rw [step, formCmd_writes formed _ _ wait]
  · rw [formCmd_done formed _ _ none]
    exact begun_listNext b rfl rfl

end

end Sys2Proof.Machine

open Sys2Proof Sys2Proof.Machine

/-- Settles O50: each command takes its step in the state in which its list runs it, which differs from the one before only in what its own read
of the command changes. -/
theorem listCommands : Obligations.ListCommands := by
  unfold Obligations.ListCommands
  dsimp only
  refine ⟨fun s k live idle i own => ?_, fun s k b runs => ⟨fun bad i among own => ?_, fun good => ⟨fun o => ?_, fun o => ?_, fun o => ?_,
    fun o => ?_, fun o => ?_, fun o => ?_⟩⟩⟩
  · obtain ⟨mine, body, eq⟩ := exec_listStep own s
    rw [eq]
    exact ⟨fun cancel => ⟨_, listStep_cancelled live idle mine body cancel, listEnds_listEnd rfl rfl .., rfl⟩,
      fun going early => listStep_early live idle mine body going early⟩
  · simp only [List.mem_cons, List.not_mem_nil, or_false] at among
    rcases among with rfl | rfl | rfl | rfl | rfl | rfl
    · exact plainCmd_bad runs (exec_cEnd s k) (by simpa using own) bad
    · exact plainCmd_bad runs (exec_waittl s k) (decide_eq_true own) bad
    · exact plainCmd_bad runs (exec_waitweir s k) (decide_eq_true own) bad
    · exact plainCmd_bad runs (exec_signal s k) (decide_eq_true own) bad
    · exact plainCmd_bad runs (exec_compress s k) (decide_eq_true own) bad
    · exact plainCmd_bad runs (exec_decompress s k) (decide_eq_true own) bad
  · exact ⟨_, plainCmd_good runs (exec_cEnd s k) (by simp [o]) good, begun_listEnd b ..⟩
  · have step := plainCmd_good runs (exec_waittl s k) (decide_eq_true o) good
    refine ⟨fun due => ⟨_, step, ?_⟩, fun early => ?_⟩
    · rw [if_pos due]
      exact begun_listNext b rfl rfl
    · rw [step, if_neg (Nat.not_le.2 early)]
  · have step := plainCmd_good runs (exec_waitweir s k) (decide_eq_true o) good
    refine ⟨fun gone => ⟨_, step, ?_⟩, fun there kept passed => ⟨_, step, ?_⟩, fun there kept waits => ?_⟩
    · dsimp only
      rw [if_pos (by simpa using gone)]
      exact (begun_listEnd b ..).1
    · dsimp only
      rw [if_neg (by simp [there, kept]), if_pos (by simp [there, passed])]
      exact (begun_listNext b rfl rfl).1
    · rw [step]
      dsimp only
      rw [if_neg (by simp [there, kept]), if_neg (by simp only [Bool.and_eq_true, decide_eq_true_eq]; grind)]
  · refine ⟨_, plainCmd_good runs (exec_signal s k) (decide_eq_true o) good, ?_⟩
    obtain ⟨on, mem⟩ := begun_listNext b (t := _) rfl rfl
    exact ⟨on, mem, (mget_mset_same ..).trans (by rw [begun_signals])⟩
  · have step := plainCmd_good runs (exec_compress s k) (decide_eq_true o) good
    refine ⟨fun first plain src read => ?_, fun first summed src other s1 read read' => ?_, forms_ends step⟩
    · simpa only [if_pos plain, List.getD_cons_zero, List.flatMap_cons, List.flatMap_nil, List.append_nil] using
        forms_one step first (by rw [if_pos plain]) read
    · simpa only [if_neg summed, List.getD_cons_zero, List.getD_cons_succ, List.flatMap_cons, List.flatMap_nil, List.append_nil] using
        forms_two step first (by rw [if_neg summed]) read read'
  · have step := plainCmd_good runs (exec_decompress s k) (decide_eq_true o) good
    refine ⟨fun first plain src read => ?_, fun first summed src other s1 read read' => ?_, forms_ends step⟩
    · simpa only [if_pos plain, List.getD_cons_zero, List.flatMap_cons, List.flatMap_nil, List.append_nil] using
        forms_one step first (by rw [if_pos plain]) read
    · simpa only [if_neg summed, List.getD_cons_zero, List.getD_cons_succ, List.flatMap_cons, List.flatMap_nil, List.append_nil] using
        forms_two step first (by rw [if_neg summed]) read read'
end

section
/-! The commands of a list that move data between members, and those of a group's operations (R352, R353, R357, R362, R363, R368, R369). -/

namespace Sys2Proof.Machine

/-! The state in which a command runs, as what it reads sees it. -/

/-- What does not read a list's own operation, its run or what a read changes is the same when the command runs. -/
theorem begun_field {β : Sort _} (f : State → β) (blind : ∀ s : State, f s = f { s.besidesReads with ops := [], colls := [] }) (s : State) (k : Nat)
    (b : List Byte) : f (s.begun k b) = f s := by
  rw [blind, begun_rest, ← blind]

section
variable (s : State) (k : Nat) (b : List Byte)
theorem begun_dev : (s.begun k b).dev = s.dev := begun_field State.dev (fun _ => rfl) s k b
theorem begun_sessions : (s.begun k b).sessions = s.sessions := begun_field State.sessions (fun _ => rfl) s k b
theorem begun_collSeq : (s.begun k b).collSeq = s.collSeq := begun_field State.collSeq (fun _ => rfl) s k b
theorem begun_inView (part dev : Nat) : (s.begun k b).inView part dev = s.inView part dev :=
  begun_field (State.inView · part dev) (fun _ => rfl) s k b
theorem begun_sessionReady (i : Nat) : (s.begun k b).sessionReady i = s.sessionReady i := begun_field (State.sessionReady · i) (fun _ => rfl) s k b
theorem begun_rdBytes (pa n : Nat) : (s.begun k b).rdBytes pa n = s.rdBytes pa n := begun_field (State.rdBytes · pa n) (fun _ => rfl) s k b
theorem begun_poisonAt (pa n : Nat) : (s.begun k b).poisonAt pa n = s.poisonAt pa n := begun_field (State.poisonAt · pa n) (fun _ => rfl) s k b
end

theorem memberSpans_besidesReads (s : State) (r : CollRun) (op : Op) (dev va n need : Nat) :
    (s.memberSpans r op dev va n need).2.besidesReads = s.besidesReads := by
  unfold State.memberSpans
  dsimp only
  split
  · rfl
  · split
    · exact withWalks_besidesReads ..
    · rfl

theorem memberSpans_snd {s t : State} {r : CollRun} {op : Op} {dev va n need : Nat} {x : SpanRes}
    (spans : s.memberSpans r op dev va n need = (x, t)) : t.besidesReads = s.besidesReads := by
  have := memberSpans_besidesReads s r op dev va n need
  rwa [spans] at this

/-! Packets and credits leave memory, the crews and the lists as they are. -/

/-- Memory, the crews and the lists. -/
def State.inside (s : State) : FMap Byte × FMap Crew × FMap CollRun := (s.mem, s.crews, s.colls)

theorem inside_leaveBy (s : State) (id port : Nat) (x : Sent) : (s.leaveBy id port x).inside = s.inside := by
  unfold State.leaveBy; split <;> rfl

theorem inside_emit (s : State) (dom dst flits : Nat) (p : Packet) : (s.emit dom dst flits p).inside = s.inside := by
  unfold State.emit State.emitSince
  split
  · exact inside_leaveBy ..
  · rfl

theorem inside_emitUe (s : State) (dom i : Nat) (p : Packet) : (s.emitUe dom i p).inside = s.inside := by
  unfold State.emitUe State.leaveEth
  dsimp only
  split
  · split <;> rfl
  · rfl

theorem inside_seal (s : State) (dom i : Nat) (p : Packet) : (s.seal dom i p).inside = s.inside := inside_emitUe ..

theorem inside_creditWeir (s : State) (weir n : Nat) : (s.creditWeir weir n).inside = s.inside := by
  unfold State.creditWeir State.weirAdd
  split
  · rfl
  · dsimp only; split <;> rfl

theorem inside_creditHere (s : State) (r : CollRun) (weir n : Nat) : (s.creditHere r weir n).inside = s.inside := by
  unfold State.creditHere
  split
  · rfl
  · exact inside_creditWeir ..

theorem inside_credit_if (s : State) (r : CollRun) (p : Prop) [Decidable p] (weir n : Nat) :
    (if p then s.creditHere r weir n else s).inside = s.inside := by
  split
  · exact inside_creditHere ..
  · rfl

theorem inside_mem {s t : State} (same : t.inside = s.inside) : t.mem = s.mem := congrArg Prod.fst same
theorem inside_crews {s t : State} (same : t.inside = s.inside) : t.crews = s.crews := congrArg (·.2.1) same

/-! Commands of a group (R360, R368). -/

theorem openSessions_none {s : State} {ms : List Member} (within : ∀ m ∈ ms, m.ext = false) : s.openSessions ms = (s, true, false) := by
  have none : ms.filter (fun m => m.ext) = [] := List.filter_eq_nil_iff.2 fun m h => by simp [within m h]
  rw [State.openSessions, none]
  rfl

theorem openSessions_one {s : State} {m : Member} (ext : m.ext = true) :
    s.openSessions [m] = (s.nameSession m.id, s.sessionReady m.id, decide ((mget s.sessions m.id).state = 3)) := by
  simp [State.openSessions, ext]

theorem openSessions_within {s : State} {m : Member} (within : m.ext = false) : s.openSessions [m] = (s, true, false) :=
  openSessions_none fun x h => by rw [List.mem_singleton.1 h, within]

theorem groupCmd_good {s : State} {k : Nat} {b : List Byte} {g : CollGroup} (runs : s.runs k b) {i : Instr} {mine : Nat → Bool}
    {body : State → CollRun → Op → Cmd → CollGroup → State} (step : exec i s = s.listStep k mine (groupCmd k body))
    (own : mine (s.cmdAt k b).op = true) (good : (s.cmdAt k b).bad = false)
    (group : (s.begun k b).collGroup (s.opAt k b).part (s.cmdAt k b).group = .ok g)
    (ranked : (s.cmdAt k b).rank < g.n) : exec i s =
    .next (body (s.begun k b) (s.runAt k b) (s.opAt k b) (s.cmdAt k b) g) := by
  rw [plainCmd_good runs step own good, group]
  exact congrArg Host.Outcome.next (if_neg (Nat.not_le.2 ranked))

/-! A transfer to a member, step by step (R362). -/

theorem partLen_end (va len : Nat) : partLen va len len = 0 := by simp [partLen]

theorem partLen_ne {va done len : Nat} (more : done < len) : partLen va done len ≠ 0 := by
  unfold partLen; omega

section
variable {s : State} {k : Nat} {r : CollRun} {op : Op} {m : Member} {va0 va len opId weir : Nat} {settled : Bool}

section
variable (idle : r.formed = false)
include idle

theorem moveStep_over (all : r.done = len) (done : settled = true) : s.moveStep k r op m va0 va len opId weir settled = none := by
  simp [State.moveStep, idle, all, partLen_end, done]

theorem moveStep_waits (last : r.done + partLen va r.done len = len) (pending : settled = false) :
    s.moveStep k r op m va0 va len opId weir settled = some (.wait s) := by
  simp [State.moveStep, idle, last, pending]

theorem moveStep_part (more : r.done < len) (due : settled = true ∨ r.done + partLen va r.done len ≠ len) {l : List Byte} {s1 : State}
    (read : s.listRead r op (va0 + r.done) (partLen va r.done len) = (.ok l, s1)) :
    s.moveStep k r op m va0 va len opId weir settled = some (s1.toMember k r op m va r.done len opId weir l) := by
  have goes : ¬ (decide (r.done + partLen va r.done len = len) && !settled) = true := by
    rcases due with done | early
    · simp [done]
    · simp [early]
  unfold State.moveStep
  dsimp only
  rw [idle, if_neg Bool.false_ne_true, if_neg (partLen_ne more), if_neg goes, read]

end

theorem bulkPhys_written {tok pa : Nat} {l : List Byte} {s1 : State} (made : s.bulkPhys tok 0 pa l 0 0 = some (s1, 0)) : s1 = s.wrEngine pa l := by
  unfold State.bulkPhys at made
  split at made
  · simp [cTranslation] at made
  · split at made
    · simp [cDataError] at made
    · split at made
      · simpa [State.bulkLanded, State.creditWeir, eq_comm] using made
      · cases made

variable (formed : r.formed = true)
include formed

theorem moveStep_writes {x : Nat × List Byte} {rest : List (Nat × List Byte)} {s1 : State} (out : r.out = x :: rest)
    (way : s.listOpen op (linesOf x.1 x.2.length) = true) (made : s.bulkPhys (opToken r.handle.toNat) 0 x.1 x.2 0 0 = some (s1, 0)) :
    s.moveStep k r op m va0 va len opId weir settled =
      some (.wait (((s1.unqueue (opToken r.handle.toNat) (fun l => (linesOf x.1 x.2.length).contains l)).useChannels (linesOf x.1 x.2.length)).setRun k
        { r with out := rest, lines := r.lines ++ linesOf x.1 x.2.length })) := by
  have wrote : s.writePhys k r op = _ := writeOut_first (lines := fun x => linesOf x.1 x.2.length) out way made
  rw [State.moveStep, if_pos formed, wrote]

theorem moveStep_written (none : r.out = []) : s.moveStep k r op m va0 va len opId weir settled =
    some (.ok ((if r.done = len then s.creditHere r weir len else s).setRun k { r with formed := false })) := by
  have done : s.writePhys k r op = .done := by
    unfold State.writePhys State.writeOut
    rw [none]
  rw [State.moveStep, if_pos formed, done]

end

/-- What a SEND makes of a step of its transfer. -/
def State.afterMove (s : State) (k : Nat) (r : CollRun) : Option MoveRes → State
  | none => s.listNext k r
  | some (.fault e) => s.listFail k r 3 e
  | some (.ok t) => t
  | some (.wait t) => t

section
variable {s : State} {k : Nat} {b : List Byte} {g : CollGroup} (runs : s.runs k b)
  (good : (s.cmdAt k b).bad = false)
  (group : (s.begun k b).collGroup (s.opAt k b).part (s.cmdAt k b).group = .ok g)
  (ranked : (s.cmdAt k b).rank < g.n) (sound : (s.runAt k b).cause = 0)
include runs good group ranked sound

section
variable (ext : (g.at_ (s.cmdAt k b).rank).ext = true)
include ext

section
variable (failed : (mget s.sessions (g.at_ (s.cmdAt k b).rank).id).state = 3)
include failed

theorem send_failed (o : (s.cmdAt k b).op = 1) :
    exec (.send k) s = .next ((s.begun k b).listFail k (s.runAt k b) 3 cProtection) := by
  rw [groupCmd_good runs (exec_send s k) (decide_eq_true o) good group ranked]
  simp [sound, openSessions_one ext, begun_sessions, failed]

theorem recv_failed (o : (s.cmdAt k b).op = 2) :
    exec (.recv k) s = .next ((s.begun k b).listFail k (s.runAt k b) 3 cProtection) := by
  rw [groupCmd_good runs (exec_recv s k) (decide_eq_true o) good group ranked]
  simp [sound, openSessions_one ext, begun_sessions, failed]

end

theorem recv_session (o : (s.cmdAt k b).op = 2)
    (ready : s.sessionReady (g.at_ (s.cmdAt k b).rank).id = true)
    (more : (s.runAt k b).done < (s.cmdAt k b).len) : exec (.recv k) s =
    .next (if (s.runAt k b).landed < (s.cmdAt k b).len
      then (s.begun k b).recvPull k (s.runAt k b) (s.opAt k b) (s.cmdAt k b)
        (g.at_ (s.cmdAt k b).rank)
      else s.begun k b) := by
  have opened : (mget s.sessions (g.at_ (s.cmdAt k b).rank).id).state = 2 := by
    unfold State.sessionReady at ready; simp at ready; exact ready.1
  rw [groupCmd_good runs (exec_recv s k) (decide_eq_true o) good group ranked]
  simp [sound, openSessions_one ext, begun_sessions, begun_sessionReady, opened, ready, ext, Nat.not_le.2 more]

end

section
variable (within : (g.at_ (s.cmdAt k b).rank).ext = false)
include within

theorem send_step (o : (s.cmdAt k b).op = 1) : exec (.send k) s = .next ((s.begun k b).afterMove k (s.runAt k b)
    ((s.begun k b).moveStep k (s.runAt k b) (s.opAt k b) (g.at_ (s.cmdAt k b).rank)
      (s.cmdAt k b).a0 (s.cmdAt k b).a1 (s.cmdAt k b).len (4 * k + 3)
      (weirKey (s.opAt k b).part (g.at_ (s.cmdAt k b).rank).wgrp (s.cmdAt k b).weir)
      (decide ((g.at_ (s.cmdAt k b).rank).id = s.dev) ||
        decide ((s.runAt k b).landed = (s.runAt k b).done)))) := by
  rw [groupCmd_good runs (exec_send s k) (decide_eq_true o) good group ranked]
  simp only [sound, openSessions_within within, within, begun_dev]
  unfold State.afterMove
  rfl

theorem recv_step (o : (s.cmdAt k b).op = 2) : exec (.recv k) s =
    .next (if (s.cmdAt k b).len ≤ (s.runAt k b).done
      then (s.begun k b).recvDone k (s.runAt k b) (s.opAt k b) (s.cmdAt k b) g
      else if (g.at_ (s.cmdAt k b).rank).id = s.dev
        then (s.begun k b).recvHere k (s.runAt k b) (s.opAt k b) (s.cmdAt k b)
      else if (s.runAt k b).up then s.begun k b
      else (s.begun k b).recvAsk k (s.runAt k b) (s.opAt k b) (s.cmdAt k b)
        (g.at_ (s.cmdAt k b).rank)) := by
  rw [groupCmd_good runs (exec_recv s k) (decide_eq_true o) good group ranked]
  simp [sound, openSessions_within within, within, begun_dev]

end

end

/-! A RECV's own steps (R357, R362). -/

section
variable {s : State} {k : Nat} {r : CollRun} {op : Op} {c : Cmd}

theorem recvHere_reads (idle : r.formed = false) {spans : List (Nat × Nat × Nat)} {s1 : State}
    (placed : s.memberSpans r op s.dev (c.a1 + r.done) (partLen c.a0 r.done c.len) permR = (.ok spans, s1))
    (clean : spans.any (fun p => (s.poisonAt p.2.1 p.2.2).isSome) = false)
    (way : s.listOpen op (spans.flatMap (fun p => linesOf p.2.1 p.2.2)) = true) : s.recvHere k r op c =
    (s1.useChannels (spans.flatMap (fun p => linesOf p.2.1 p.2.2))).setRun k
      { r with formed := true, lines := [], out := lineSpans (c.a0 + r.done) (spans.flatMap (fun p => s.rdBytes p.2.1 p.2.2)) } := by
  unfold State.recvHere
  dsimp only
  rw [idle, if_neg Bool.false_ne_true, placed]
  dsimp only
  rw [clean, if_neg Bool.false_ne_true, way]
  rfl

section
variable (formed : r.formed = true)
include formed

theorem recvHere_writes {t : State} (wait : s.writeVirt k r op = .wait t) : s.recvHere k r op c = t := by
  rw [State.recvHere, if_pos formed, wait]

theorem recvHere_written (none : r.out = []) : s.recvHere k r op c =
    s.setRun k { r with formed := false, done := r.done + partLen c.a0 r.done c.len } := by
  rw [State.recvHere, if_pos formed, writeVirt_nothing k op none]

end

/-- Once the device is in view and can be reached, a RECV asks it for the bytes of every span, in packets that change neither memory nor a crew. -/
theorem recvAsk_asks {m : Member} (seen : s.inView op.part m.id = true) (reach : s.canReach m = true) {spans : List (Nat × Nat × Nat)} {s1 : State}
    (placed : s.memberSpans r op m.id c.a1 c.len permR = (.ok spans, s1)) :
    ∃ t : State, t.inside = s1.inside ∧ s.recvAsk k r op c m = t.setRun k { r with up := true, heldAt := 0 } := by
  unfold State.recvAsk
  rw [seen, reach, placed]
  exact ⟨_, foldl_keeps State.inside (fun _ _ => inside_emit ..) spans s1, rfl⟩

end

/-! Operations of a group (R363). -/

theorem joinOp_joins {s : State} {k : Nat} {r : CollRun} {op : Op} {c : Cmd} : let t := s.joinOp k r op c
    let seq := mget s.collSeq (4096 * op.part + c.group) + 1
    t.mem = s.mem ∧ t.crews = s.crews ∧ mget t.collSeq (4096 * op.part + c.group) = seq ∧ (mget t.colls k).op = collKey op.part c.group seq + 1 := by
  refine ⟨rfl, rfl, mget_mset_same .., ?_⟩
  rw [State.joinOp, State.setRun]
  dsimp only
  rw [mget_mset_same]

theorem under_strict {g : CollGroup} (strict : g.elastic = false) (head : Nat) : g.under head = g := by
  cases g
  unfold CollGroup.under
  subst strict
  exact ite_self _

section
variable {s : State} {k : Nat} {b : List Byte} {g : CollGroup} (runs : s.runs k b) {i : Instr} {mine : Nat → Bool}
  {body : State → CollRun → Op → Cmd → CollGroup → Nat → State} (step : exec i s = s.listStep k mine (collCmd k body))
  (own : mine (s.cmdAt k b).op = true) (group : (s.begun k b).collGroup (s.opAt k b).part (s.cmdAt k b).group = .ok g)
include runs step own group

theorem collCmd_joins (first : (s.runAt k b).op = 0) : Answers (exec i s) (fun t => t.mem = s.mem ∧ t.crews = s.crews ∧
    mget t.collSeq (4096 * (s.opAt k b).part + (s.cmdAt k b).group) = mget s.collSeq (4096 * (s.opAt k b).part + (s.cmdAt k b).group) + 1 ∧
    (mget t.colls k).op = collKey (s.opAt k b).part (s.cmdAt k b).group
      (mget s.collSeq (4096 * (s.opAt k b).part + (s.cmdAt k b).group) + 1) + 1) := by
  refine ⟨(s.begun k b).joinOp k (s.runAt k b) (s.opAt k b) (s.cmdAt k b), ?_, ?_⟩
  · rw [step, listStep_runs runs _ own]
    simp only [collCmd, group, first, if_true]
  · obtain ⟨mem, crews, seq, run⟩ := joinOp_joins (s := s.begun k b) (k := k) (r := s.runAt k b) (op := s.opAt k b) (c := s.cmdAt k b)
    rw [begun_collSeq] at seq run
    exact ⟨mem.trans (begun_mem s k b), crews.trans (begun_crews s k b), seq, run⟩

variable (joined : (s.runAt k b).op ≠ 0)
include joined

theorem collCmd_failed (failed : (mget (s.begun k b).collOps ((s.runAt k b).op - 1)).failed ≠ 0) : Answers (exec i s) (fun t =>
    ListEnds s k (mget (s.begun k b).collOps ((s.runAt k b).op - 1)).failed (mget (s.begun k b).collOps ((s.runAt k b).op - 1)).cause
      (s.runAt k b).index t ∧ t.mem = s.mem) := by
  refine ⟨((s.begun k b).setOp ((s.runAt k b).op - 1) default).listFail k (s.runAt k b)
      (mget (s.begun k b).collOps ((s.runAt k b).op - 1)).failed (mget (s.begun k b).collOps ((s.runAt k b).op - 1)).cause, ?_,
    listEnds_listEnd (begun_handle ..) (begun_crews s k b) .., begun_mem s k b⟩
  rw [step, listStep_runs runs _ own]
  simp only [collCmd, group, if_neg joined, ne_eq, failed, not_false_eq_true, if_true]

/-- A member's command that breaks no rule, in a group of the pod that is not elastic, takes its own step. -/
theorem collCmd_body (going : (mget (s.begun k b).collOps ((s.runAt k b).op - 1)).failed = 0) (good : (s.cmdAt k b).bad = false)
    (ranked : (s.cmdAt k b).op = 10 ∨ (s.cmdAt k b).rank < g.n) (strict : g.elastic = false) (within : ∀ x ∈ g.members, x.ext = false) :
    exec i s = .next (body (s.begun k b) (s.runAt k b) (s.opAt k b) (s.cmdAt k b) g ((s.runAt k b).op - 1)) := by
  have member : (decide ((s.cmdAt k b).op ≠ 10) && decide (g.n ≤ (s.cmdAt k b).rank)) = false := by
    rcases ranked with barrier | below
    · simp [barrier]
    · simp [Nat.not_le.2 below]
  rw [step, listStep_runs runs _ own]
  simp only [collCmd, group, if_neg joined, under_strict strict, openSessions_none within, going, good, member]
  rfl

end

/-- A member's contribution to an operation that has not closed is there (R363). -/
theorem contribute_puts {s : State} {g : CollGroup} {key : Nat} (strict : g.elastic = false) (still : (mget s.collOps key).closed = false)
    (rank len head : Nat) (elems : List Word) : let t := s.contribute g key rank len head elems
    (mget t.collOps key).has rank = true ∧ mget (mget t.collOps key).parts rank = elems ∧ t.mem = s.mem ∧ t.crews = s.crews := by
  have alone : ∀ t : State, t.tryClose g key = t := fun t => by simp [State.tryClose, strict]
  unfold State.contribute
  simp only [still, alone, State.setOp, mget_mset_same, CollOp.has, CollOp.put, Bool.false_eq_true, if_false, and_self]

/-- A result that has come and has been passed on is what the tree gives (R363). -/
theorem treeStep_done {s : State} {k : Nat} {r : CollRun} {g : CollGroup} {key : Nat} (len head : Nat) (strict : g.elastic = false)
    (agreed : (mget s.collOps key).disagrees = false) (ready : (mget s.collOps key).ready = true) (passed : (g.children g.me).length ≤ r.served) :
    s.treeStep k r g key len head = .done (mget s.collOps key) := by
  unfold State.treeStep
  simp only [strict, agreed, ready, Bool.and_false, Bool.false_eq_true, if_false, if_true, List.drop_eq_nil_of_le passed]

/-- The root's transfer is over once every member has had it and all its bytes have performed (R363). -/
theorem mcastStep_done {s : State} {k : Nat} {r : CollRun} {op : Op} {c : Cmd} {g : CollGroup} {key : Nat}
    (sent : g.n ≤ r.served - (g.children g.me).length) (acked : (mget s.collOps key).acked = c.len * s.podBelow g g.n) :
    s.mcastStep k r op c g key = s.opDone k r g key := by
  unfold State.mcastStep
  dsimp only
  rw [if_pos sent, if_pos acked]

/-- A contribution made after what the command has read: memory and the crews are as before the command. -/
theorem begun_contribute {s t : State} {k : Nat} {b : List Byte} {g : CollGroup} {key : Nat} (rest : t.besidesReads = (s.begun k b).besidesReads)
    (strict : g.elastic = false) (still : (mget (s.begun k b).collOps key).closed = false) (len head : Nat) (elems : List Word) :
    let u := t.contribute g key g.me len head elems
    (mget u.collOps key).has g.me = true ∧ mget (mget u.collOps key).parts g.me = elems ∧ u.mem = s.mem ∧ u.crews = s.crews := by
  have same : t.collOps = (s.begun k b).collOps := (congrArg State.collOps rest :)
  obtain ⟨here, part, mem, crews⟩ := contribute_puts strict (same ▸ still) g.me len head elems
  exact ⟨here, part, mem.trans ((congrArg State.mem rest :).trans (begun_mem s k b)),
    crews.trans ((congrArg State.crews rest :).trans (begun_crews s k b))⟩

/-! The writes that end an operation (R136, R363). -/

section
variable {s : State} {k : Nat} {b : List Byte} {i : Instr} {g : CollGroup} {key va : Nat} {l : List Byte} {fin : State → State}
  (step : exec i s = .next ((s.begun k b).endWrites k (s.runAt k b) (s.opAt k b) g key va 0 l fin))
include step

theorem endWrites_forms (idle : (s.runAt k b).formed = false) :
    Answers (exec i s) (AtRun s k { s.runAt k b with formed := true, lines := [], out := lineSpans va l } s) := by
  refine ⟨_, step, ?_⟩
  simp only [State.endWrites, idle, Bool.false_eq_true, if_false, Bool.not_false, if_true]
  exact begun_setRun b _ rfl

theorem endWrites_writes : WritesOut (s.begun k b) k i s :=
  writesOut_of_wait (begun_crews s k b) fun formed t wait => by
    rw [step, State.endWrites, if_pos formed, wait]

theorem endWrites_done (formed : (s.runAt k b).formed = true) (none : (s.runAt k b).out = []) : exec i s = .next (fin (s.begun k b)) := by
  rw [step, State.endWrites, if_pos formed, writeVirt_nothing k _ none]
  simp [formed]

end

theorem opDone_strict {s : State} {g : CollGroup} (strict : g.elastic = false) (k : Nat) (r : CollRun) (key : Nat) :
    s.opDone k r g key = (s.setOp key default).listNext k r := by
  rw [State.opDone, strict]
  rfl

theorem recvPull_asks (s : State) (k : Nat) (r : CollRun) (op : Op) (c : Cmd) (m : Member) : ∃ t : State, t.inside = s.inside ∧
    s.recvPull k r op c m =
      t.setRun k { r with landed := r.landed + partLen c.a0 r.landed c.len, served := (c.a0 + 2 ^ 64 - c.a1) % 2 ^ 64 } :=
  ⟨_, inside_seal .., rfl⟩

theorem begun_inside {s t : State} {k : Nat} (b : List Byte) (r : CollRun) (same : t.inside = (s.begun k b).inside) : AtRun s k r s (t.setRun k r) :=
  atRun_setRun k r ((inside_mem same).trans (begun_mem s k b)) ((inside_crews same).trans (begun_crews s k b))

end Sys2Proof.Machine

open Sys2Proof Sys2Proof.Machine

/-- Settles O51: a transfer takes the step that `moveStep` names for its run, a RECV its own, and an operation of a group joins, contributes and ends
by the group's record. -/
theorem collectiveOperations : Obligations.CollectiveOperations := by
  unfold Obligations.CollectiveOperations
  intro s k b g runs
  dsimp only
  intro group
  refine ⟨fun good ranked ext sound => ⟨fun failed => ⟨fun o => ?_, fun o => ?_⟩, fun o ready more => ⟨fun asked => ?_, fun rest => ?_⟩⟩,
    fun good ranked within sound => ⟨fun o idle => ?_, fun o formed => ?_, fun o all => ?_, fun o more self => ?_, fun o more other => ?_⟩, ?_⟩
  · exact ⟨_, send_failed runs good group ranked sound ext failed o, (begun_listEnd b ..).1⟩
  · exact ⟨_, recv_failed runs good group ranked sound ext failed o, (begun_listEnd b ..).1⟩
  · rw [recv_session runs good group ranked sound ext o ready more, if_neg (Nat.not_lt.2 asked)]
  · refine ⟨_, recv_session runs good group ranked sound ext o ready more, ?_⟩
    rw [if_pos rest]
    obtain ⟨t, same, eq⟩ := recvPull_asks (s.begun k b) k (s.runAt k b) (s.opAt k b) (s.cmdAt k b) (g.at_ (s.cmdAt k b).rank)
    rw [eq]
    exact begun_inside b _ same
  · have step := send_step runs good group ranked sound within o
    refine ⟨fun all settled => ⟨_, step, ?_⟩, fun pending last => ?_, fun more due l s1 s2 read => ⟨fun moved => ?_, fun e fault => ⟨_, step, ?_⟩⟩⟩
    · rw [moveStep_over idle all (by simpa using settled)]
      exact (begun_listNext b rfl rfl).1
    · rw [step, moveStep_waits idle last (by simpa using pending)]
      rfl
    · rw [step, moveStep_part idle more (by simpa using due) read]
      rcases moved with moved | moved <;> rw [moved] <;> rfl
    · rw [moveStep_part idle more (by simpa using due) read, fault]
      exact (begun_listEnd b ..).1
  · have step := send_step runs good group ranked sound within o
    refine ⟨fun x rest s1 out way made => ⟨_, step, ?_⟩, fun none => ⟨_, step, ?_⟩⟩
    · rw [moveStep_writes formed out way made]
      exact atRun_setRun k _ rfl
        ((congrArg State.crews (bulkPhys_written made)).trans ((wrEngine_field _ _ _ State.crews fun _ => rfl).trans (begun_crews s k b)))
    · rw [moveStep_written formed none]
      exact begun_inside b _ (inside_credit_if ..)
  · refine ⟨_, recv_step runs good group ranked sound within o, ?_⟩
    rw [if_pos all]
    exact begun_listNext b (inside_crews (inside_creditHere ..)) (inside_mem (inside_creditHere ..))
  · have step := recv_step runs good group ranked sound within o
    rw [if_neg (Nat.not_le.2 more), if_pos self] at step
    refine ⟨fun idle spans s1 placed clean way => ⟨_, step, ?_⟩, writesOut_of_wait (begun_crews s k b) fun formed t wait => ?_,
      fun formed none => ⟨_, step, ?_⟩⟩
    · rw [recvHere_reads idle (begun_dev s k b ▸ placed) (by simpa only [begun_poisonAt] using clean) way]
      simp only [begun_rdBytes]
      have rest := memberSpans_snd placed
      exact begun_setRun (t := s1.useChannels _) b _ rest
    · rw [step, recvHere_writes formed wait]
    · rw [recvHere_written formed none]
      exact begun_setRun b _ rfl
  · have step := recv_step runs good group ranked sound within o
    rw [if_neg (Nat.not_le.2 more), if_neg other] at step
    refine ⟨fun up => ?_, fun first seen reach spans s1 placed => ⟨_, step, ?_⟩⟩
    · rw [step, if_pos up]
    · rw [if_neg (by simp [first])]
      obtain ⟨t, same, eq⟩ := recvAsk_asks (k := k) ((begun_inView s k b ..).trans seen) reach placed
      rw [eq]
      have rest := memberSpans_snd placed
      exact begun_inside b _ (same.trans (Prod.ext (congrArg State.mem rest :) (Prod.ext (congrArg State.crews rest :) (congrArg State.colls rest :))))
  · intro i among own
    simp only [List.mem_cons, List.not_mem_nil, or_false] at among
    rcases among with rfl | rfl | rfl
    · have o : (s.cmdAt k b).op = 3 := own
      have step := exec_reduce s k
      refine ⟨collCmd_joins runs step (decide_eq_true o) group, fun joined => ⟨collCmd_failed runs step (decide_eq_true o) group joined,
        fun going good ranked strict within => ⟨fun c => absurd (o.symm.trans c) (by decide), fun _ out still spans s1 l s2 placed read => ?_,
          fun here agreed ready passed => ⟨fun c => absurd (o.symm.trans c) (by decide), fun c => absurd (o.symm.trans c) (by decide), fun _ => ?_⟩⟩⟩⟩
      · have body := collCmd_body runs step (decide_eq_true o) group joined going good ranked strict within
        have where_ : (if ((s.cmdAt k b).all_ || decide (g.me = (s.cmdAt k b).rank)) = true then (s.cmdAt k b).len else 0) =
            if (s.cmdAt k b).all_ = true ∨ g.me = (s.cmdAt k b).rank then (s.cmdAt k b).len else 0 := by simp
        dsimp only at body
        rw [out, Bool.not_false, if_pos rfl, begun_dev, where_, placed] at body
        dsimp only at body
        rw [read] at body
        exact ⟨_, body, begun_contribute ((listRead_snd read).trans (memberSpans_snd placed)) strict still ..⟩
      · have body := collCmd_body runs step (decide_eq_true o) group joined going good ranked strict within
        dsimp only at body
        rw [here, Bool.not_true, if_neg Bool.false_ne_true, treeStep_done _ _ strict agreed ready passed, strict, if_neg Bool.false_ne_true] at body
        refine ⟨fun idle => ?_, endWrites_writes body, fun formed none => ⟨_, endWrites_done body formed none, ?_⟩⟩
        · have forms := endWrites_forms body idle
          simpa [o] using forms
        · dsimp only
          rw [opDone_strict strict]
          have kept := inside_credit_if (s.begun k b) (s.runAt k b) (((s.cmdAt k b).all_ || decide (g.me = (s.cmdAt k b).rank)) = true)
            (weirKey (s.opAt k b).part (g.at_ g.me).wgrp (s.cmdAt k b).weir) (s.cmdAt k b).len
          exact begun_listNext b (t := State.setOp _ _ _) (inside_crews kept) (inside_mem kept)
    · have o : (s.cmdAt k b).op = 4 := own
      have step := exec_mcast s k
      refine ⟨collCmd_joins runs step (decide_eq_true o) group, fun joined => ⟨collCmd_failed runs step (decide_eq_true o) group joined,
        fun going good ranked strict within => ⟨fun c => absurd (o.symm.trans c) (by decide), fun c => absurd (o.symm.trans c) (by decide),
          fun here agreed ready passed => ⟨fun _ other came => ?_, fun _ root sent acked => ?_, fun c => absurd o c⟩⟩⟩⟩
      · have body := collCmd_body runs step (decide_eq_true o) group joined going good ranked strict within
        dsimp only at body
        rw [here, Bool.not_true, if_neg Bool.false_ne_true, ready, Bool.true_and, if_pos (decide_eq_true passed), if_neg other, if_pos came,
          opDone_strict strict] at body
        exact ⟨_, body, begun_listNext b rfl rfl⟩
      · have body := collCmd_body runs step (decide_eq_true o) group joined going good ranked strict within
        dsimp only at body
        rw [here, Bool.not_true, if_neg Bool.false_ne_true, ready, Bool.true_and, if_pos (decide_eq_true passed), if_pos root,
          mcastStep_done (Nat.le_sub_of_add_le' sent) acked, opDone_strict strict] at body
        exact ⟨_, body, begun_listNext b rfl rfl⟩
    · have o : (s.cmdAt k b).op = 10 := own
      have step := exec_barrier s k
      refine ⟨collCmd_joins runs step (decide_eq_true o) group, fun joined => ⟨collCmd_failed runs step (decide_eq_true o) group joined,
        fun going good ranked strict within => ⟨fun _ out still => ?_, fun c => absurd (o.symm.trans c) (by decide),
          fun here agreed ready passed => ⟨fun c => absurd (o.symm.trans c) (by decide), fun c => absurd (o.symm.trans c) (by decide), fun _ => ?_⟩⟩⟩⟩
      · have body := collCmd_body runs step (decide_eq_true o) group joined going good ranked strict within
        dsimp only at body
        rw [out, Bool.not_false, if_pos rfl] at body
        exact ⟨_, body, begun_contribute rfl strict still ..⟩
      · have body := collCmd_body runs step (decide_eq_true o) group joined going good ranked strict within
        dsimp only at body
        rw [here, Bool.not_true, if_neg Bool.false_ne_true, treeStep_done _ _ strict agreed ready passed, strict, if_neg Bool.false_ne_true] at body
        refine ⟨fun idle => ?_, endWrites_writes body, fun formed none => ⟨_, endWrites_done body formed none, ?_⟩⟩
        · have forms := endWrites_forms body idle
          simpa [o] using forms
        · dsimp only
          rw [opDone_strict strict]
          exact begun_listNext b rfl rfl
end

section
/-! Requests of a strand on their way to their homes (R110, R112, R231, R232): what sending them changes, and what an instruction that sends
requests does in the strands of a sub-gang, one after the other. -/

namespace Sys2Proof.Machine

/-! Sending a request changes the requests on their way, and what its path uses. -/

/-- The state without what the path of a request uses. -/
def State.beyondPaths (s : State) : State :=
  { s with pathCnt := [], packetsOut := [], held := [], ports := [], activity := [], routerUsed := [], routerDown := [] }

theorem beyondPaths_leaveBy (s : State) (id port : Nat) (x : Sent) : (s.leaveBy id port x).beyondPaths = s.beyondPaths := by
  unfold State.leaveBy; split <;> rfl

theorem beyondPaths_joinCopy (s : State) (j m id : Nat) : (s.joinCopy j m id).beyondPaths = s.beyondPaths := by
  unfold State.joinCopy; split <;> rfl

theorem beyondPaths_wakeRouter (s : State) (port : Nat) : (s.wakeRouter port).beyondPaths = s.beyondPaths := by
  unfold State.wakeRouter; split <;> rfl

/-- Counting a write on its path. -/
theorem beyondPaths_countIf (s : State) (p : Prop) [Decidable p] (key : Nat) (f : Nat → Nat) :
    (if p then s.pathCount key f else s).beyondPaths = s.beyondPaths := by
  split <;> rfl

theorem depart_puts (s : State) (id : Nat) (r : Req) : ∃ q : Req, q.strand = r.strand ∧
    (s.depart id r).beyondPaths = { s with net := mset s.net id q }.beyondPaths := by
  unfold State.depart
  extract_lets r0 s0 noCounter count waits
  have before : s0.beyondPaths = s.beyondPaths := beyondPaths_countIf ..
  have put (q : Req) : ({ s0 with net := mset s0.net id q } : State).beyondPaths = { s with net := mset s.net id q }.beyondPaths := by
    have net : s0.net = s.net := (congrArg State.net before :)
    rw [net]
    exact (congrArg (fun t : State => { t with net := mset s.net id q }) before :)
  have counted (q : Req) (t : State) : (count q t).beyondPaths = t.beyondPaths := beyondPaths_countIf ..
  have waiting : ∃ q : Req, q.strand = r.strand ∧ waits.beyondPaths = { s with net := mset s.net id q }.beyondPaths :=
    ⟨{ r0 with path := if r.counted then r.path else pathPort, left := false }, rfl, rfl⟩
  split
  · extract_lets r1
    split
    · exact waiting
    · refine ⟨r1, rfl, (counted ..).trans (Eq.trans ?_ (put r1))⟩
      split
      · exact beyondPaths_joinCopy ..
      · exact beyondPaths_leaveBy ..
  · split
    · exact waiting
    · exact ⟨{ r0 with path := pathHeld, left := false }, rfl, (counted ..).trans (put _)⟩

theorem sendOn_puts (s : State) (id : Nat) (r : Req) : ∃ q : Req, q.strand = r.strand ∧
    (s.sendOn id r).beyondPaths = { s with net := mset s.net id q }.beyondPaths := by
  unfold State.sendOn
  dsimp only
  split
  · exact ⟨{ r with path := pathWaits, left := false }, rfl, rfl⟩
  · exact depart_puts (s.useRouter (chipOf r.core)) id r

/-- A request takes the next number; one to this device is on its way as it is (R112). -/
theorem send_puts (s : State) (r : Req) : ∃ q : Req, q.strand = r.strand ∧ (devOf r.pa = s.dev → q = { r with left := true }) ∧
    (s.send r).beyondPaths = { s with nextId := s.nextId + 1, net := mset s.net s.nextId q }.beyondPaths := by
  unfold State.send
  dsimp only
  split
  next own => exact ⟨{ r with left := true }, rfl, fun _ => rfl, rfl⟩
  next away =>
    split
    · obtain ⟨q, strand, puts⟩ := sendOn_puts { s with nextId := s.nextId + 1 } s.nextId { r with path := pathWaits }
      exact ⟨q, strand, fun own => absurd own away, puts⟩
    · exact ⟨{ r with path := pathRouter, left := false }, rfl, fun own => absurd own away, beyondPaths_wakeRouter ..⟩

theorem mem_mset {α : Type} [Inhabited α] [DecidableEq α] {e : Nat × α} {k : Nat} {v : α} : ∀ {m : FMap α}, e ∈ mset m k v → e = (k, v) ∨ e ∈ m := by
  have beyond : ∀ m : FMap α, ∀ e ∈ mbeyond m k, e ∈ m := by
    intro m
    induction m with
    | nil => exact fun _ h => h
    | cons x r ih =>
      intro e h
      rw [mbeyond] at h
      split at h
      · exact List.mem_cons_of_mem _ (ih e h)
      · exact h
  intro m
  induction m with
  | nil => grind [mset]
  | cons x r ih => grind [mset]

/-! What an instruction that sends requests may change, in one strand. -/

/-- The state without its crews and what sending, dropped lines and failing accesses change. -/
def State.beyondSends (s : State) : State := { s.beyondPaths with nextId := 0, net := [], back := [], l1 := [], sfrq := [], crews := [] }

/-- The request r is on its way to its home, or already answered. -/
def State.posts (s : State) (r : Req) : Prop :=
  ∃ id < s.nextId, ∃ q, (mget s.net id = q ∨ mget s.back id = q) ∧ q.kind = r.kind ∧ q.crew = r.crew ∧ q.strand = r.strand ∧ q.dev = r.dev ∧
    q.pa = r.pa ∧ q.accs = r.accs

/-- From s to t, strand k of crew u has sent the requests `rs`, and nothing but that strand and what goes with requests has changed. -/
structure StrandSends (u k : Nat) (rs : List Req) (s t : State) : Prop where
  others : ∀ v j, ¬(v = u ∧ j = k) → t.strand v j = s.strand v j
  bodies : ∀ v, (t.crew v).body = (s.crew v).body
  rest : t.beyondSends = s.beyondSends
  next : s.nextId ≤ t.nextId
  kept : ∀ id < s.nextId, mget t.net id = mget s.net id ∧ mget t.back id = mget s.back id
  posts : ∀ r ∈ rs, devOf r.pa = s.dev → t.posts r
  ports : ∀ j, (∀ r ∈ rs, r.strand ≠ j ∨ devOf r.pa = s.dev) → s.portWaits u j = false → t.portWaits u j = false

theorem State.posts.later {s t : State} {r : Req} (sent : s.posts r) (next : s.nextId ≤ t.nextId)
    (kept : ∀ id < s.nextId, mget t.net id = mget s.net id ∧ mget t.back id = mget s.back id) : t.posts r := by
  obtain ⟨id, low, q, there, same⟩ := sent
  obtain ⟨net, back⟩ := kept id low
  exact ⟨id, low.trans_le next, q, by rwa [net, back], same⟩

section
variable {u k : Nat} {rs rs' : List Req} {s t v : State}

theorem StrandSends.dev (h : StrandSends u k rs s t) : t.dev = s.dev := (congrArg State.dev h.rest :)

theorem StrandSends.refl (u k : Nat) (s : State) : StrandSends u k [] s s where
  others _ _ _ := rfl
  bodies _ := rfl
  rest := rfl
  next := Nat.le_refl _
  kept _ _ := ⟨rfl, rfl⟩
  posts _ none := absurd none List.not_mem_nil
  ports _ _ h := h

theorem StrandSends.trans (h : StrandSends u k rs s t) (g : StrandSends u k rs' t v) : StrandSends u k (rs ++ rs') s v where
  others w j other := (g.others w j other).trans (h.others w j other)
  bodies w := (g.bodies w).trans (h.bodies w)
  rest := g.rest.trans h.rest
  next := h.next.trans g.next
  kept id low := by
    obtain ⟨net, back⟩ := g.kept id (low.trans_le h.next)
    obtain ⟨net', back'⟩ := h.kept id low
    exact ⟨net.trans net', back.trans back'⟩
  posts r here own := by
    rcases List.mem_append.1 here with first | second
    · exact (h.posts r first own).later g.next g.kept
    · exact g.posts r second (own.trans h.dev.symm)
  ports j apart free := g.ports j (fun r here => (apart r (List.mem_append_right _ here)).imp_right (·.trans h.dev.symm))
    (h.ports j (fun r here => apart r (List.mem_append_left _ here)) free)

/-- A change of the strand alone. -/
theorem sends_setStrand (s : State) (u k : Nat) (f : Strand) : StrandSends u k [] s (s.setStrand u k f) :=
  { StrandSends.refl u k s with
    others := fun _ _ other => (State.strand_setStrand ..).trans (if_neg other)
    bodies := fun _ => State.crew_setStrand_rest .. }

/-- A change of the lines in L1 and of the records of failing stores. -/
theorem sends_of_beyond (s t : State) (net : t.net = s.net) (back : t.back = s.back) (crews : t.crews = s.crews) (next : s.nextId ≤ t.nextId)
    (rest : t.beyondSends = s.beyondSends) (u k : Nat) : StrandSends u k [] s t where
  others _ _ _ := by rw [State.strand, State.crew, crews]; rfl
  bodies _ := by rw [State.crew, crews]; rfl
  rest := rest
  next := next
  kept _ _ := by rw [net, back]; exact ⟨rfl, rfl⟩
  posts _ none := absurd none List.not_mem_nil
  ports _ _ free := by
    have dev : t.dev = s.dev := (congrArg State.dev rest :)
    rw [State.portWaits, net, dev]
    exact free

theorem portWaits_mset {s : State} {id : Nat} {q : Req} {j : Nat} (free : s.portWaits u j = false) (apart : q.strand ≠ j ∨ q.left = true) :
    { s with net := mset s.net id q }.portWaits u j = false := by
  rw [State.portWaits, List.any_eq_false] at free ⊢
  intro e here
  rcases mem_mset here with rfl | old
  · rcases apart with other | left
    · simp [other]
    · simp [left]
  · exact free e old

theorem crews_send (s : State) (r : Req) : (s.send r).crews = s.crews := by
  obtain ⟨q, _, _, puts⟩ := send_puts s r
  exact (congrArg State.crews puts :)

theorem sends_send (s : State) (u k : Nat) (r : Req) : StrandSends u k [r] s (s.send r) := by
  obtain ⟨q, strand, own, puts⟩ := send_puts s r
  have net : (s.send r).net = mset s.net s.nextId q := (congrArg State.net puts :)
  have back : (s.send r).back = s.back := (congrArg State.back puts :)
  have crews : (s.send r).crews = s.crews := (congrArg State.crews puts :)
  have next : (s.send r).nextId = s.nextId + 1 := (congrArg State.nextId puts :)
  have dev : (s.send r).dev = s.dev := (congrArg State.dev puts :)
  refine ⟨fun _ _ _ => by rw [State.strand, State.crew, crews]; rfl, fun _ => by rw [State.crew, crews]; rfl,
    (congrArg (fun t : State => { t with nextId := 0, net := [], back := [], l1 := [], sfrq := [], crews := [] }) puts :), by omega,
    fun id low => ⟨by rw [net, mget_mset_ne _ _ (Nat.ne_of_lt low)], by rw [back]⟩, fun r' here near => ?_, fun j apart free => ?_⟩
  · obtain rfl := List.mem_singleton.1 here
    refine ⟨s.nextId, by omega, q, .inl (by rw [net, mget_mset_same]), ?_⟩
    rw [own near]
    exact ⟨rfl, rfl, rfl, rfl, rfl, rfl⟩
  · have waits : (s.send r).portWaits u j = { s with net := mset s.net s.nextId q }.portWaits u j := by
      rw [State.portWaits, net, dev]
      rfl
    rw [waits]
    refine portWaits_mset free ((apart r (List.mem_singleton_self r)).imp (strand ▸ ·) fun near => ?_)
    rw [own near]

/-- A line that L1 holds is answered there (R232). -/
theorem sends_answer (s : State) (u k : Nat) {r q : Req} (same : q.kind = r.kind ∧ q.crew = r.crew ∧ q.strand = r.strand ∧ q.dev = r.dev ∧
    q.pa = r.pa ∧ q.accs = r.accs) : StrandSends u k [r] s { s with back := mset s.back s.nextId q, nextId := s.nextId + 1 } where
  others _ _ _ := rfl
  bodies _ := rfl
  rest := rfl
  next := Nat.le_succ _
  kept id low := ⟨rfl, mget_mset_ne _ _ (Nat.ne_of_lt low)⟩
  posts r' here _ := by
    obtain rfl := List.mem_singleton.1 here
    exact ⟨s.nextId, Nat.lt_succ_self _, q, .inr (mget_mset_same ..), same⟩
  ports _ _ free := free

/-- Requests one after the other. -/
theorem sends_foldl {f : State → Req → State} (each : ∀ s r, StrandSends u k [r] s (f s r)) : ∀ (rs : List Req) (s : State), StrandSends u k rs s (rs.foldl f s)
  | [], s => .refl u k s
  | r :: rs, s => (each s r).trans (sends_foldl each rs (f s r))

theorem sends_nothing {α : Type} {f : State → α → State} (each : ∀ s x, StrandSends u k [] s (f s x)) : ∀ (l : List α) (s : State),
    StrandSends u k [] s (l.foldl f s)
  | [], s => .refl u k s
  | x :: l, s => (each s x).trans (sends_nothing each l (f s x))

end

end Sys2Proof.Machine
end

section
/-! Loads and stores of global memory as they leave a sub-gang (R110, R227, R231, R232). -/

namespace Sys2Proof.Machine

theorem StrandSends.then_nothing {u k : Nat} {rs : List Req} {s t v : State} (h : StrandSends u k rs s t) (g : StrandSends u k [] t v) :
    StrandSends u k rs s v := by
  simpa using h.trans g

/-! Each strand of a sub-gang in turn. -/

/-- A site without what other strands' requests change. -/
def Site.bare (a : Site) : Site := { a with s := a.s.beyondSends, c := a.c.body }

/-- What does not depend on other strands' requests is the same at two sites that agree but in them. -/
theorem bare_congr {β : Sort _} (f : Site → β) (blind : ∀ a, f a = f a.bare) {a b : Site} (same : a.bare = b.bare) : f a = f b := by
  rw [blind a, same, ← blind b]

/-- From s to t the strands `done` of the sub-gang have sent their requests, and nothing but they and what goes with requests has changed. -/
structure GangSends (s : State) (done : List Nat) (rs : Nat → List Req) (t : State) : Prop where
  others : ∀ v j, ¬(v = s.cur.crew ∧ j ∈ done) → t.strand v j = s.strand v j
  bodies : ∀ v, (t.crew v).body = (s.crew v).body
  rest : t.beyondSends = s.beyondSends
  posts : ∀ k ∈ done, ∀ r ∈ rs k, devOf r.pa = s.dev → t.posts r
  ports : ∀ j, j ∉ done → s.portWaits s.cur.crew j = false → t.portWaits s.cur.crew j = false

section
variable {s t v : State} {done : List Nat} {rs : Nat → List Req}

theorem GangSends.refl (s : State) (rs : Nat → List Req) : GangSends s [] rs s where
  others _ _ _ := rfl
  bodies _ := rfl
  rest := rfl
  posts _ none := absurd none List.not_mem_nil
  ports _ _ h := h

theorem GangSends.dev (h : GangSends s done rs t) : t.dev = s.dev := (congrArg State.dev h.rest :)
theorem GangSends.results (h : GangSends s done rs t) : t.results = s.results := (congrArg State.results h.rest :)

theorem GangSends.step (h : GangSends s done rs t) {k : Nat} (g : StrandSends s.cur.crew k (rs k) t v) (own : ∀ r ∈ rs k, r.strand = k) :
    GangSends s (done ++ [k]) rs v where
  others w j other := (g.others w j fun p => other ⟨p.1, by simp [p.2]⟩).trans (h.others w j fun p => other ⟨p.1, by simp [p.2]⟩)
  bodies w := (g.bodies w).trans (h.bodies w)
  rest := g.rest.trans h.rest
  posts j here r sent near := by
    rcases List.mem_append.1 here with old | new
    · exact (h.posts j old r sent near).later g.next g.kept
    · obtain rfl := List.mem_singleton.1 new
      exact g.posts r sent (near.trans h.dev.symm)
  ports j apart free := by
    rw [List.mem_append, not_or, List.mem_singleton] at apart
    exact g.ports j (fun r sent => .inl (own r sent ▸ Ne.symm apart.2)) (h.ports j apart.1 free)

theorem GangSends.site (h : GangSends s done rs t) {x : Use} (clear : s.clear x) {k : Nat} (here : k ∈ s.cur.strands) (new : k ∉ done) :
    t.site s.cur.crew k x.reads = some ⟨t, s.cur.crew, k, t.crew s.cur.crew, s.reading x k⟩ := by
  have own : t.strand s.cur.crew k = s.strand s.cur.crew k := h.others _ _ fun p => new p.2
  have resolved := (clear.2 k here).2.2
  rw [site_some (by rwa [own, deliver_congr h.results]), own, deliver_congr h.results]
  rfl

theorem GangSends.bare (h : GangSends s done rs t) (x : Use) (k : Nat) :
    (⟨t, s.cur.crew, k, t.crew s.cur.crew, s.reading x k⟩ : Site).bare = (s.at x k).bare := by
  unfold Site.bare State.at
  dsimp only
  rw [h.rest, h.bodies]

/-- What an instruction leaves whose effect in each strand is to send its requests and to leave the strand as `g` allows. -/
theorem gangSends_eachStrand {x : Use} (clear : s.clear x) {f : Site → State} (g : Nat → Strand → Prop)
    (own : ∀ k ∈ s.cur.strands, ∀ r ∈ rs k, r.strand = k)
    (acts : ∀ k ∈ s.cur.strands, ∀ (t : State) (a : Site), a = ⟨t, s.cur.crew, k, t.crew s.cur.crew, s.reading x k⟩ →
      a.bare = (s.at x k).bare → (s.portWaits s.cur.crew k = false → t.portWaits s.cur.crew k = false) →
        StrandSends s.cur.crew k (rs k) t (f a) ∧ g k ((f a).strand s.cur.crew k)) :
    ∀ (rest done : List Nat) (t : State), s.cur.strands = done ++ rest → GangSends s done rs t → (∀ k ∈ done, g k (t.strand s.cur.crew k)) →
      let v := eachStrand x f t s.cur.crew rest
      GangSends s s.cur.strands rs v ∧ ∀ k ∈ s.cur.strands, g k (v.strand s.cur.crew k)
  | [], done, t, all, h, left => by
    rw [List.append_nil] at all
    rw [all]
    exact ⟨h, left⟩
  | k :: rest, done, t, all, h, left => by
    obtain ⟨here, new⟩ := next_strand clear all
    obtain ⟨sends, leaves⟩ := acts k here t _ rfl (h.bare x k) (h.ports k new)
    have one : eachStrand x f t s.cur.crew (k :: rest) = eachStrand x f (f ⟨t, s.cur.crew, k, t.crew s.cur.crew, s.reading x k⟩) s.cur.crew rest := by
      simp only [eachStrand, List.foldl_cons, h.site clear here new]
    rw [one]
    refine gangSends_eachStrand clear g own acts rest (done ++ [k]) _ (by simp [all]) (h.step sends (own k here)) fun j old => ?_
    by_cases last : j = k
    · rw [last]; exact leaves
    · rw [sends.others _ _ fun p => last p.2]
      exact left j ((List.mem_append.1 old).resolve_right (by simpa using last))

end

/-! The requests of an access, line by line (R110, R227). -/

theorem devOf_lineOf (pa : Nat) : devOf (lineOf pa) = devOf pa := by
  unfold devOf lineOf; omega

/-- The groups hold every access in the line of its address, and nothing else. -/
theorem groupLines_spec (l : List (Nat × Nat)) :
    (∀ e ∈ l, ∃ g ∈ groupLines l, g.1 = lineOf e.2 ∧ e ∈ g.2) ∧ ∀ g ∈ groupLines l, ∃ e ∈ l, g.1 = lineOf e.2 := by
  induction l using List.reverseRecOn with
  | nil => simp [groupLines]
  | append_singleton l e ih =>
    obtain ⟨holds, only⟩ := ih
    have step : groupLines (l ++ [e]) =
        if (groupLines l).any (fun g => decide (g.1 = lineOf e.2))
        then (groupLines l).map (fun g => if g.1 = lineOf e.2 then (g.1, g.2 ++ [e]) else g) else groupLines l ++ [(lineOf e.2, [e])] := by
      rw [groupLines, List.foldl_append]
      rfl
    rw [step]
    split
    next old =>
      obtain ⟨g0, here, line⟩ := List.any_eq_true.1 old
      have grown (g : Nat × List (Nat × Nat)) : let n := if g.1 = lineOf e.2 then (g.1, g.2 ++ [e]) else g
          n.1 = g.1 ∧ (∀ d ∈ g.2, d ∈ n.2) ∧ (g.1 = lineOf e.2 → e ∈ n.2) := by
        dsimp only
        split
        · exact ⟨rfl, fun d h => List.mem_append_left _ h, fun _ => by simp⟩
        · exact ⟨rfl, fun d h => h, fun h => absurd h ‹_›⟩
      refine ⟨fun d among => ?_, fun n among => ?_⟩
      · rcases List.mem_append.1 among with first | last
        · obtain ⟨g, there, at_, inside⟩ := holds d first
          obtain ⟨same, keeps, _⟩ := grown g
          exact ⟨_, List.mem_map_of_mem there, same.trans at_, keeps d inside⟩
        · obtain rfl := List.mem_singleton.1 last
          obtain ⟨same, _, adds⟩ := grown g0
          have at_ : g0.1 = lineOf d.2 := by simpa using line
          exact ⟨_, List.mem_map_of_mem here, same.trans at_, adds at_⟩
      · obtain ⟨g, there, rfl⟩ := List.mem_map.1 among
        obtain ⟨d, old, at_⟩ := only g there
        exact ⟨d, List.mem_append_left _ old, (grown g).1.trans at_⟩
    next new =>
      refine ⟨fun d among => ?_, fun n among => ?_⟩
      · rcases List.mem_append.1 among with first | last
        · obtain ⟨g, there, rest⟩ := holds d first
          exact ⟨g, List.mem_append_left _ there, rest⟩
        · obtain rfl := List.mem_singleton.1 last
          exact ⟨_, List.mem_append_right _ (List.mem_singleton_self _), rfl, by simp⟩
      · rcases List.mem_append.1 among with first | last
        · obtain ⟨d, old, at_⟩ := only n first
          exact ⟨d, List.mem_append_left _ old, at_⟩
        · obtain rfl := List.mem_singleton.1 last
          exact ⟨e, List.mem_append_right _ (List.mem_singleton_self _), rfl⟩

theorem mem_okThreads {a : Site} {v : Nat → Word64} {xl : Word64 → Xl} {th pa : Nat} :
    (th, pa) ∈ okThreads a v xl ↔ (th < 32 ∧ a.st.active.getLsbD th = true) ∧ xl (v th) = .ok pa := by
  unfold okThreads
  rw [List.mem_filterMap, ← mem_threadsOf]
  refine ⟨fun ⟨t, active, found⟩ => ?_, fun ⟨active, ok⟩ => ⟨th, active, by rw [ok]⟩⟩
  split at found
  next ok =>
    cases found
    exact ⟨active, ok⟩
  next => cases found

/-- A request carries an access: line, offset, size and data. -/
def Req.carries (r : Req) (a : Site) (th : Nat) (kind : ReqKind) (pa size : Nat) (data cmp : BitVec 128) : Prop :=
  r.kind = kind ∧ r.crew = a.u ∧ r.strand = a.k ∧ r.dev = a.s.dev ∧ r.pa = lineOf pa ∧
    ∃ x ∈ r.accs, x.thread = th ∧ x.off = pa % 128 ∧ x.size = size ∧ x.data = data ∧ x.cmp = cmp

section
variable (a : Site) (kind : ReqKind) (z x hint : Nat) (data cmp : Nat → BitVec 128) (v : Nat → Word64) (ok : List (Nat × Nat))

theorem lineReqs_carry {th pa : Nat} (here : (th, pa) ∈ ok) :
    ∃ r ∈ lineReqs a kind z x hint data cmp v ok, r.carries a th kind pa (zBytes z) (data th) (cmp th) := by
  obtain ⟨g, there, line, inside⟩ := (groupLines_spec ok).1 _ here
  exact ⟨_, List.mem_map_of_mem there, rfl, rfl, rfl, rfl, line, _, List.mem_map_of_mem inside, rfl, rfl, rfl, rfl, rfl⟩

theorem lineReqs_strand : ∀ r ∈ lineReqs a kind z x hint data cmp v ok, r.strand = a.k := by
  intro r here
  obtain ⟨g, _, rfl⟩ := List.mem_map.1 here
  rfl

theorem lineReqs_dev {d : Nat} (near : ∀ e ∈ ok, devOf e.2 = d) : ∀ r ∈ lineReqs a kind z x hint data cmp v ok, devOf r.pa = d := by
  intro r here
  obtain ⟨g, there, rfl⟩ := List.mem_map.1 here
  obtain ⟨e, old, line⟩ := (groupLines_spec ok).2 g there
  have pa : devOf g.1 = devOf e.2 := by rw [line, devOf_lineOf]
  exact pa.trans (near e old)

end

/-- Every active thread's address translates to this device. -/
def Site.allHere (a : Site) (dom need : Nat) (v : Nat → Word64) : Prop :=
  ∀ th < 32, a.st.active.getLsbD th = true → ∃ pa, strandXl a dom need (v th) = .ok pa ∧ devOf pa = a.s.dev

theorem faultsOf_none {a : Site} {v : Nat → Word64} {xl : Word64 → Xl}
    (all : ∀ th < 32, a.st.active.getLsbD th = true → ∃ pa, xl (v th) = .ok pa) : (faultsOf a v xl).mask = 0 := by
  refine BitVec.eq_of_getLsbD_eq fun th low => ?_
  rw [faultsOf, maskOf_bit _ th low]
  cases active : tbit a.st.active th with
  | false => simp
  | true =>
    obtain ⟨pa, ok⟩ := all th low active
    simp [ok]

theorem okThreads_dev {a : Site} {dom need : Nat} {v : Nat → Word64} (all : a.allHere dom need v) :
    ∀ e ∈ okThreads a v (strandXl a dom need), devOf e.2 = a.s.dev := by
  intro e here
  obtain ⟨⟨low, active⟩, ok⟩ := mem_okThreads.1 here
  obtain ⟨pa, found, near⟩ := all e.1 low active
  rw [ok] at found
  cases found
  exact near

/-! LD (R231, R232). -/

theorem seq_registers (st : Strand) : st.seq.sameRegs st := by
  unfold Strand.seq Strand.inline
  dsimp only
  split <;> exact ⟨rfl, rfl, rfl, rfl, rfl, rfl, rfl, rfl, rfl, rfl, rfl, rfl, rfl, rfl⟩

theorem awaitReplies_registers (st : Strand) (x z left : Nat) (flt : Faults) : (awaitReplies st x z left flt).sameRegs st := by
  unfold awaitReplies
  dsimp only
  split
  · exact ⟨rfl, rfl, rfl, rfl, rfl, rfl, rfl, rfl, rfl, rfl, rfl, rfl, rfl, rfl⟩
  · split
    · exact seq_registers st.latchKill
    · exact ⟨rfl, rfl, rfl, rfl, rfl, rfl, rfl, rfl, rfl, rfl, rfl, rfl, rfl, rfl⟩

/-- The requests of LD, and its threads that fail. -/
def ldReqs (f : FM) (a : Site) : List Req :=
  lineReqs a .load f.z.val f.x.code f.h.val (fun _ => 0) (fun _ => 0) (threadAddr a.st f.b.val f.i)
    (okThreads a (threadAddr a.st f.b.val f.i) (loadXl a (tlbDom a.st a.c) permR))
@[inherit_doc ldReqs] def ldFaults (f : FM) (a : Site) : Faults := faultsOf a (threadAddr a.st f.b.val f.i) (loadXl a (tlbDom a.st a.c) permR)

theorem loadXl_here {a : Site} {dom need pa : Nat} {v : Word64} (ok : strandXl a dom need v = .ok pa) (near : devOf pa = a.s.dev) :
    loadXl a dom need v = .ok pa := by
  unfold loadXl
  rw [ok]
  simp [State.inView, near]

theorem ldAct_sends (f : FM) (a : Site) : StrandSends a.u a.k (ldReqs f a) a.s (ldAct f a) ∧
    (ldAct f a).strand a.u a.k = awaitReplies a.st f.x.code f.z.val (ldReqs f a).length (ldFaults f a) := by
  refine ⟨StrandSends.then_nothing (sends_foldl (fun t r => ?_) (ldReqs f a) a.s) (sends_setStrand ..),
    (State.strand_setStrand ..).trans (if_pos ⟨rfl, rfl⟩)⟩
  split
  · exact sends_answer t a.u a.k ⟨rfl, rfl, rfl, rfl, rfl, rfl⟩
  · exact sends_send t a.u a.k r

/-! ST and STP (R127, R230, R231, R232). -/

/-- A strand apart from its counts of writes and what orders its later accesses. -/
def Strand.beyondWrites (st : Strand) : Strand := { st with unacked0 := 0, unacked1 := 0, scHold := false, fence := 0, tagWait := 0 }

theorem beyondWrites_unack (st : Strand) (dom : Nat) (f : Nat → Nat) : (st.unack dom f).beyondWrites = st.beyondWrites := by
  unfold Strand.unack; split <;> rfl

theorem sends_ackOne (s : State) (u k core n : Nat) : StrandSends u k [] s (s.ackOne u k core n) ∧
    ((s.ackOne u k core n).strand u k).beyondWrites = (s.strand u k).beyondWrites :=
  ⟨sends_setStrand .., by rw [State.ackOne, State.strand_setStrand, if_pos ⟨rfl, rfl⟩, beyondWrites_unack]⟩

theorem sends_addFailure (s : State) (u k core launch : Nat) (pc : VAddr) (va : Word64) (cause z : Nat) :
    StrandSends u k [] s (s.addFailure u k core launch pc va cause z) ∧
      ((s.addFailure u k core launch pc va cause z).strand u k).beyondWrites = (s.strand u k).beyondWrites := by
  unfold State.addFailure
  split
  · exact sends_ackOne ..
  · extract_lets full r s1
    have recorded : StrandSends u k [] s s1 := sends_of_beyond s s1 rfl rfl rfl (Nat.le_succ _) rfl u k
    split
    · exact ⟨recorded, rfl⟩
    · obtain ⟨acked, same⟩ := sends_ackOne s1 u k core 1
      exact ⟨recorded.then_nothing acked, same⟩

theorem sends_failAccess (s : State) (a : Site) (va : Word64) (cause z : Nat) : StrandSends a.u a.k [] s (s.failAccess a va cause z) ∧
    ((s.failAccess a va cause z).strand a.u a.k).beyondWrites = (s.strand a.u a.k).beyondWrites := by
  obtain ⟨fails, same⟩ := sends_addFailure (s.setStrand a.u a.k ((s.strand a.u a.k).unack (domOf a.c.core) (· + 1))) a.u a.k a.c.core a.c.launch a.st.pc va
    cause z
  refine ⟨(sends_setStrand ..).then_nothing fails, same.trans ?_⟩
  rw [State.strand_setStrand, if_pos ⟨rfl, rfl⟩, beyondWrites_unack]

/-- Failing accesses one after the other. -/
theorem sends_failures {α : Type} {a : Site} {f : State → α → State}
    (each : ∀ t x, f t x = t ∨ ∃ va cause z, f t x = t.failAccess a va cause z) (l : List α) (s : State) :
    StrandSends a.u a.k [] s (l.foldl f s) ∧ ((l.foldl f s).strand a.u a.k).beyondWrites = (s.strand a.u a.k).beyondWrites := by
  refine ⟨sends_nothing (fun t x => ?_) l s, foldl_keeps (fun t : State => (t.strand a.u a.k).beyondWrites) (fun t x => ?_) l s⟩
  all_goals obtain same | ⟨va, cause, z, same⟩ := each t x
  all_goals rw [same]
  · exact .refl ..
  · exact (sends_failAccess ..).1
  · exact (sends_failAccess ..).2

theorem sends_dropL1 (u k : Nat) (s : State) (core line : Nat) : StrandSends u k [] s (s.dropL1 core line) :=
  sends_of_beyond s (s.dropL1 core line) rfl rfl rfl (Nat.le_refl _) rfl u k

theorem sends_dropLines (u k : Nat) (s : State) (core : Nat) (ok : List (Nat × Nat)) : StrandSends u k [] s (s.dropLines core ok) := by
  unfold State.dropLines
  refine sends_nothing ?_ ok s
  exact fun t e => sends_dropL1 u k t core (lineOf e.2)

theorem crews_dropLines (s : State) (core : Nat) (ok : List (Nat × Nat)) : (s.dropLines core ok).crews = s.crews := by
  unfold State.dropLines
  refine foldl_keeps State.crews ?_ ok s
  exact fun _ _ => rfl

/-- The requests of a store. -/
def storeReqs (f : FM) (tag : Bool) (a : Site) : List Req :=
  let ok := okThreads a (threadAddr a.st f.b.val f.i) (strandXl a (domOf a.c.core) permW)
  (lineReqs a .store f.z.val 0 f.h.val (storeData a.st f.x f.z.val) (fun _ => 0) (threadAddr a.st f.b.val f.i)
      (ok.filter (fun e => a.s.inView (a.s.crewLaunch a.c).part (devOf e.2)))).map
    (fun r => { r with tag := tag, flagged := (flagDev a f.o.val (ok.map (·.2))).isSome })

theorem sendStore_sends (f : FM) (tag : Bool) (a : Site) :
    let t := sendStore a f tag (okThreads a (threadAddr a.st f.b.val f.i) (strandXl a (domOf a.c.core) permW))
    StrandSends a.u a.k (storeReqs f tag a) a.s t ∧ (t.strand a.u a.k).beyondWrites = a.st.beyondWrites := by
  unfold sendStore
  extract_lets l v z near far flag rs counted st1 s1
  have before : StrandSends a.u a.k [] a.s ((a.s.setStrand a.u a.k st1).dropLines a.c.core near) :=
    (sends_setStrand ..).then_nothing (sends_dropLines ..)
  have sends : StrandSends a.u a.k rs a.s s1 := before.trans (sends_foldl (fun t r => sends_send t a.u a.k r) rs _)
  have strand : s1.strand a.u a.k = st1 := by
    have kept : s1.crews = (a.s.setStrand a.u a.k st1).crews :=
      (foldl_keeps State.crews crews_send rs _).trans (crews_dropLines ..)
    rw [State.strand, State.crew, kept]
    exact (State.strand_setStrand ..).trans (if_pos ⟨rfl, rfl⟩)
  obtain ⟨failed, same⟩ := sends_failures (a := a) (f := fun s e => s.failAccess a (v e.1) cRemote z) (fun t x => .inr ⟨_, _, _, rfl⟩) far s1
  exact ⟨sends.then_nothing failed, same.trans (by rw [strand]; exact beyondWrites_unack ..)⟩

end Sys2Proof.Machine
end

section
/-! What the statement about loads and stores says of the requests that a sub-gang has sent (R110, R227, R231, R232). -/

namespace Sys2Proof.Machine

/-- A posted store whose core's record queue has room runs like any other instruction (R246). -/
theorem runInstr_room {i : Instr} {m : Meaning} {s : State} (room : m.full s s.cur.crew = false) :
    runInstr i m s = runInstr i { m with posted := false } s := by
  have trap (ks : List Nat) (k : Nat) : m.trapOf i s s.cur.crew ks k = ({ m with posted := false } : Meaning).trapOf i s s.cur.crew ks k := by
    unfold Meaning.trapOf
    rw [room, full_of_posted rfl]
    rfl
  have wait (k : Nat) : m.waitOf s s.cur.crew k = ({ m with posted := false } : Meaning).waitOf s s.cur.crew k := by
    unfold Meaning.waitOf
    rw [room, full_of_posted rfl]
  have waits (ks : List Nat) : m.waits s s.cur.crew ks = ({ m with posted := false } : Meaning).waits s s.cur.crew ks := by
    unfold Meaning.waits
    simp only [wait]
    rfl
  unfold runInstr
  simp only [trap, waits]

theorem alignTrap_none {st : Strand} {n : Nat} {v : Nat → Word64} (aligned : misaligned st.active n v = none) : alignTrap st n v = none :=
  congrArg (Option.map _) aligned

/-- How an access leaves a strand whose active threads all translate to this device. -/
def Site.leaves (a : Site) (waits : Bool) (free : Prop) (n : Strand) : Prop :=
  if waits then n.wait = .reply ∧ n.pc = a.st.pc ∧ n.mem.live = true ∧ 0 < n.mem.left ∧ n.mem.faults = 0
  else (free → n.wait = .ready) ∧ n.pc = a.st.seq.pc

section
variable {s t : State} {x : Use} {rs : Nat → List Req} {kind : ReqKind} {z need : Nat} {dom : Site → Nat} {addr : Strand → Nat → Word64}
  {data cmp : Strand → Nat → BitVec 128} {waits : Bool}

/-- The requests of a sub-gang are the access that its instruction makes, given what its effect does in each strand after those before it. -/
theorem accesses_eachStrand (clear : s.clear x) {f : Site → State} (g : Nat → Strand → Prop) (own : ∀ k ∈ s.cur.strands, ∀ r ∈ rs k, r.strand = k)
    (acts : ∀ k ∈ s.cur.strands, ∀ (t : State) (a : Site), a = ⟨t, s.cur.crew, k, t.crew s.cur.crew, s.reading x k⟩ →
      a.bare = (s.at x k).bare → (s.portWaits s.cur.crew k = false → t.portWaits s.cur.crew k = false) →
        StrandSends s.cur.crew k (rs k) t (f a) ∧ g k ((f a).strand s.cur.crew k))
    (left : ∀ k ∈ s.cur.strands, ∀ n, g k n → let a := s.at x k
      n.sameRegs a.st ∧ ((∃ th < 32, a.st.active.getLsbD th = true) → a.allHere (dom a) need (addr a.st) →
        a.leaves waits (s.portWaits s.cur.crew k = false) n))
    (carry : ∀ k ∈ s.cur.strands, let a := s.at x k
      ∀ th < 32, a.st.active.getLsbD th = true → ∀ pa, strandXl a (dom a) need (addr a.st th) = .ok pa → devOf pa = s.dev →
        ∃ r ∈ rs k, r.carries a th kind pa (zBytes z) (data a.st th) (cmp a.st th)) :
    Accesses s x (.next (eachStrand x f s s.cur.crew s.cur.strands)) kind z need dom addr data cmp waits := by
  obtain ⟨sent, each⟩ := gangSends_eachStrand clear g own acts s.cur.strands [] s rfl (.refl ..) (by simp)
  refine ⟨_, rfl, (congrArg State.mem sent.rest :), sent.others, fun k here => ?_⟩
  obtain ⟨regs, leaves⟩ := left k here _ (each k here)
  refine ⟨regs, fun th low active pa ok near => ?_, fun some all => leaves some all⟩
  obtain ⟨r, among, kind', crew, strand, dev, line, acc⟩ := carry k here th low active pa ok near
  obtain ⟨id, _, q, there, kind'', crew', strand', dev', line', accs⟩ := sent.posts k here r among (by rw [line, devOf_lineOf, near])
  exact ⟨id, q, there, kind''.trans kind', crew'.trans crew, strand'.trans strand, dev'.trans dev, line'.trans line, accs ▸ acc⟩

end

/-! LD. -/

theorem ldReqs_strand (f : FM) (a : Site) : ∀ r ∈ ldReqs f a, r.strand = a.k := fun r sent => lineReqs_strand _ _ _ _ _ _ _ _ _ r sent

theorem ldReqs_carry {f : FM} {a : Site} {th pa : Nat} (low : th < 32) (active : a.st.active.getLsbD th = true)
    (ok : strandXl a (tlbDom a.st a.c) permR (threadAddr a.st f.b.val f.i th) = .ok pa) (near : devOf pa = a.s.dev) :
    ∃ r ∈ ldReqs f a, r.carries a th .load pa (zBytes f.z.val) 0 0 :=
  lineReqs_carry a .load f.z.val f.x.code f.h.val (fun _ => 0) (fun _ => 0) (threadAddr a.st f.b.val f.i) _
    (mem_okThreads.2 ⟨⟨low, active⟩, loadXl_here ok near⟩)

theorem awaitReplies_waits {a : Site} {x z left : Nat} {flt : Faults} (some : 0 < left) (none : flt.mask = 0) (free : Prop) :
    a.leaves true free (awaitReplies a.st x z left flt) := by
  unfold awaitReplies
  dsimp only
  rw [if_pos some]
  exact ⟨rfl, rfl, rfl, some, none⟩

theorem ld_leaves {f : FM} {a : Site} (some : ∃ th < 32, a.st.active.getLsbD th = true)
    (all : a.allHere (tlbDom a.st a.c) permR (threadAddr a.st f.b.val f.i)) (free : Prop) :
    a.leaves true free (awaitReplies a.st f.x.code f.z.val (ldReqs f a).length (ldFaults f a)) := by
  obtain ⟨th, low, active⟩ := some
  obtain ⟨pa, ok, near⟩ := all th low active
  obtain ⟨r, among, _⟩ := ldReqs_carry low active ok near
  refine awaitReplies_waits (List.length_pos_of_mem among) (faultsOf_none fun th low active => ?_) free
  obtain ⟨pa, ok, near⟩ := all th low active
  exact ⟨pa, loadXl_here ok near⟩

theorem ld_accesses {s : State} {f : FM} (clear : s.clear (ldUse f))
    (ready : s.accessReady (ldUse f) f.z.val permR (fun a => tlbDom a.st a.c) (fun st => threadAddr st f.b.val f.i) (decide (f.o.val = 3))) :
    Accesses s (ldUse f) (exec (.ld f) s) .load f.z.val permR (fun a => tlbDom a.st a.c) (fun st => threadAddr st f.b.val f.i)
      (fun _ _ => 0) (fun _ _ => 0) true := by
  rw [exec_ld, execLd, runNext, runInstr_acts clear rfl rfl (fun k here => alignTrap_none (ready k here).1) (fun k here => ?_)]
  · refine accesses_eachStrand (rs := fun k => ldReqs f (s.at (ldUse f) k)) clear
      (fun k n => n = awaitReplies (s.reading (ldUse f) k) f.x.code f.z.val (ldReqs f (s.at (ldUse f) k)).length (ldFaults f (s.at (ldUse f) k)))
      (fun k _ => ldReqs_strand f (s.at (ldUse f) k)) (fun k here t a at_ same ports => ?_) (fun k here n is => ?_)
      (fun k here th low active pa ok near => ldReqs_carry low active ok near)
    · rw [← bare_congr (ldReqs f) (fun _ => rfl) same, ← bare_congr (ldFaults f) (fun _ => rfl) same]
      subst at_
      exact ldAct_sends f ⟨t, s.cur.crew, k, t.crew s.cur.crew, s.reading (ldUse f) k⟩
    · subst is
      exact ⟨awaitReplies_registers .., fun some all => ld_leaves some all _⟩
  · obtain ⟨_, order, walk, row⟩ := ready k here
    unfold State.at at order walk row
    dsimp only at order walk row ⊢
    rw [order, walk, row]
    rfl

/-! ST and STP. -/

theorem registers_of_beyondWrites {a b : Strand} (same : a.beyondWrites = b.beyondWrites) : a.sameRegs b := by
  have : a.beyondWrites.sameRegs b.beyondWrites := by
    rw [same]
    exact ⟨rfl, rfl, rfl, rfl, rfl, rfl, rfl, rfl, rfl, rfl, rfl, rfl, rfl, rfl⟩
  exact this

theorem registers_pending {a b : Strand} (same : a.sameRegs b) (p : Option Trap) : ({ a with pending := p } : Strand).sameRegs b := same

theorem seq_wait (st : Strand) : st.seq.wait = .ready := by
  unfold Strand.seq Strand.inline
  dsimp only
  split <;> rfl

theorem seq_pc (st : Strand) : st.seq.pc = (backEdge st.loops st.next).2.1 := by
  unfold Strand.seq Strand.inline
  dsimp only
  split <;> rfl

theorem seq_pc_of_beyondWrites {a b : Strand} (same : a.beyondWrites = b.beyondWrites) : a.seq.pc = b.seq.pc := by
  rw [seq_pc, seq_pc]
  exact (congrArg (fun st : Strand => (backEdge st.loops st.next).2.1) same :)

/-- How a store ends: its strand goes on, unless one of its writes waits at the core's port (R231, R356). -/
theorem store_ends {a : Site} {s1 : State} {rs : List Req} (sends : StrandSends a.u a.k rs a.s s1) {n : Strand} (regs : n.sameRegs a.st) :
    let v := (s1.setStrand a.u a.k n).portWait a.u a.k
    StrandSends a.u a.k rs a.s v ∧ (v.strand a.u a.k).sameRegs a.st ∧ (v.strand a.u a.k).pc = n.pc ∧
      ((∀ r ∈ rs, devOf r.pa = a.s.dev) → a.s.portWaits a.u a.k = false → (v.strand a.u a.k).wait = n.wait) := by
  have ended : StrandSends a.u a.k rs a.s (s1.setStrand a.u a.k n) := sends.then_nothing (sends_setStrand ..)
  have own : (s1.setStrand a.u a.k n).strand a.u a.k = n := (State.strand_setStrand ..).trans (if_pos ⟨rfl, rfl⟩)
  unfold State.portWait
  dsimp only
  split
  next waits =>
    refine ⟨ended.then_nothing (sends_setStrand ..), ?_, ?_, fun near free => ?_⟩
    · rw [State.strand_setStrand, if_pos ⟨rfl, rfl⟩, own]
      exact regs
    · rw [State.strand_setStrand, if_pos ⟨rfl, rfl⟩, own]
    · exact absurd waits (by rw [ended.ports a.k (fun r sent => .inr (near r sent)) free]; exact Bool.false_ne_true)
  next => exact ⟨ended, by rw [own]; exact regs, by rw [own], fun _ _ => by rw [own]⟩

theorem storeReqs_strand (f : FM) (tag : Bool) (a : Site) : ∀ r ∈ storeReqs f tag a, r.strand = a.k := by
  intro r sent
  obtain ⟨q, line, rfl⟩ := List.mem_map.1 sent
  exact lineReqs_strand _ _ _ _ _ _ _ _ _ q line

theorem storeReqs_carry {f : FM} {tag : Bool} {a : Site} {th pa : Nat} (low : th < 32) (active : a.st.active.getLsbD th = true)
    (ok : strandXl a (domOf a.c.core) permW (threadAddr a.st f.b.val f.i th) = .ok pa) (near : devOf pa = a.s.dev) :
    ∃ r ∈ storeReqs f tag a, r.carries a th .store pa (zBytes f.z.val) (storeData a.st f.x f.z.val th) 0 := by
  have viewed : (th, pa) ∈ (okThreads a (threadAddr a.st f.b.val f.i) (strandXl a (domOf a.c.core) permW)).filter
      (fun e => a.s.inView (a.s.crewLaunch a.c).part (devOf e.2)) :=
    List.mem_filter.2 ⟨mem_okThreads.2 ⟨⟨low, active⟩, ok⟩, by simp [State.inView, near]⟩
  obtain ⟨r, line, carries⟩ := lineReqs_carry a .store f.z.val 0 f.h.val (storeData a.st f.x f.z.val) (fun _ => 0) (threadAddr a.st f.b.val f.i) _ viewed
  exact ⟨_, List.mem_map_of_mem line, carries⟩

theorem storeReqs_dev {f : FM} {a : Site} (tag : Bool) (all : a.allHere (domOf a.c.core) permW (threadAddr a.st f.b.val f.i)) :
    ∀ r ∈ storeReqs f tag a, devOf r.pa = a.s.dev := by
  intro r sent
  obtain ⟨q, line, rfl⟩ := List.mem_map.1 sent
  exact lineReqs_dev _ _ _ _ _ _ _ _ _ (fun e here => okThreads_dev all e (List.mem_filter.1 here).1) q line

/-- What a store leaves of a strand. -/
def Site.stored (a : Site) (f : FM) (free : Prop) (n : Strand) : Prop :=
  n.sameRegs a.st ∧ (a.allHere (domOf a.c.core) permW (threadAddr a.st f.b.val f.i) → a.leaves false free n)

theorem store_leaves {f : FM} {a : Site} {s1 : State} {tag : Bool} {n : Strand} (sends : StrandSends a.u a.k (storeReqs f tag a) a.s s1)
    (same : (s1.strand a.u a.k).beyondWrites = a.st.beyondWrites) (regs : n.sameRegs a.st)
    (goes : a.allHere (domOf a.c.core) permW (threadAddr a.st f.b.val f.i) → n = (s1.strand a.u a.k).seq) :
    let v := (s1.setStrand a.u a.k n).portWait a.u a.k
    StrandSends a.u a.k (storeReqs f tag a) a.s v ∧ a.stored f (a.s.portWaits a.u a.k = false) (v.strand a.u a.k) := by
  obtain ⟨all, left, pc, wait⟩ := store_ends sends regs
  refine ⟨all, left, fun here => ?_⟩
  have next := goes here
  exact ⟨fun free => (wait (storeReqs_dev tag here) free).trans (next ▸ seq_wait _), (pc.trans (congrArg Strand.pc next)).trans (seq_pc_of_beyondWrites same)⟩

theorem stAct_sends (f : FM) (a : Site) : StrandSends a.u a.k (storeReqs f false a) a.s (stAct f a) ∧
    a.stored f (a.s.portWaits a.u a.k = false) ((stAct f a).strand a.u a.k) := by
  obtain ⟨sends, same⟩ := sendStore_sends f false a
  unfold stAct
  refine store_leaves sends same ?_ fun here => if_pos (faultsOf_none fun th low active => (here th low active).imp fun _ ok => ok.1)
  split
  · exact sameRegs_trans (seq_registers _) (registers_of_beyondWrites same)
  · exact registers_pending (registers_of_beyondWrites same) _

theorem stpAct_sends (f : FM) (a : Site) : StrandSends a.u a.k (storeReqs f (decide (f.h.val = 3)) a) a.s (stpAct f a) ∧
    a.stored f (a.s.portWaits a.u a.k = false) ((stpAct f a).strand a.u a.k) := by
  obtain ⟨sends, same⟩ := sendStore_sends f (decide (f.h.val = 3)) a
  obtain ⟨failed, still⟩ := sends_failures (a := a) (f := fun (s : State) (t : Nat) => match postXl a permW (threadAddr a.st f.b.val f.i t) with
    | .fault c => s.failAccess a (threadAddr a.st f.b.val f.i t) c f.z.val | _ => s) (fun t x => by split; exacts [.inr ⟨_, _, _, rfl⟩, .inl rfl])
    (threadsOf a.st.active) (sendStore a f (decide (f.h.val = 3)) (okThreads a (threadAddr a.st f.b.val f.i) (strandXl a (domOf a.c.core) permW)))
  have kept := still.trans same
  exact store_leaves (sends.then_nothing failed) kept (sameRegs_trans (seq_registers _) (registers_of_beyondWrites kept)) fun _ => rfl

/-- A store that neither traps nor waits sends its requests. -/
theorem store_accesses {s : State} {x : Use} {f : FM} {tag : Bool} {act : Site → State} (clear : s.clear x)
    (acts : ∀ a, StrandSends a.u a.k (storeReqs f tag a) a.s (act a) ∧ a.stored f (a.s.portWaits a.u a.k = false) ((act a).strand a.u a.k)) :
    Accesses s x (.next (eachStrand x act s s.cur.crew s.cur.strands)) .store f.z.val permW (fun a => domOf a.c.core)
      (fun st => threadAddr st f.b.val f.i) (fun st t => storeData st f.x f.z.val t) (fun _ _ => 0) false := by
  refine accesses_eachStrand (rs := fun k => storeReqs f tag (s.at x k)) clear (fun k n => (s.at x k).stored f (s.portWaits s.cur.crew k = false) n)
    (fun k _ => storeReqs_strand f tag (s.at x k)) (fun k here t a at_ same ports => ?_) (fun k here n ⟨regs, leaves⟩ => ⟨regs, fun _ => leaves⟩)
    (fun k here th low active pa ok near => storeReqs_carry low active ok near)
  · have reqs : storeReqs f tag a = storeReqs f tag (s.at x k) := bare_congr (storeReqs f tag) (fun _ => rfl) same
    have here (dom need : Nat) (v : Nat → Word64) : a.allHere dom need v = (s.at x k).allHere dom need v :=
      bare_congr (fun a : Site => a.allHere dom need v) (fun _ => rfl) same
    have core : a.c.core = (s.at x k).c.core := (congrArg (fun a : Site => a.c.core) same :)
    obtain ⟨sends, regs, leaves⟩ := acts a
    rw [reqs] at sends
    rw [here, core] at leaves
    subst at_
    refine ⟨sends, regs, fun all => ?_⟩
    obtain ⟨wait, pc⟩ := leaves all
    exact ⟨fun free => wait (ports free), pc⟩

end Sys2Proof.Machine

open Sys2Proof Sys2Proof.Machine

/-- Settles O22: each strand of the sub-gang in turn sends the requests of its access, which later strands leave on their way. -/
theorem loadAndStoreIssues : Obligations.LoadAndStoreIssues := by
  unfold Obligations.LoadAndStoreIssues
  refine ⟨fun s f clear ready => ld_accesses clear ready, fun s f => ⟨fun clear ready => ?_, fun clear room ready => ?_⟩⟩
  · rw [exec_st, execSt, runNext, runInstr_acts clear rfl rfl (fun k here => alignTrap_none (ready k here).1) (fun k here => ?_)]
    · exact store_accesses clear (stAct_sends f)
    · obtain ⟨_, walk, hold⟩ := ready k here
      exact (if_neg (Bool.eq_false_iff.1 walk)).trans hold
  · have full (m : Meaning) (posted : m.posted = true) : m.full s s.cur.crew = false := by
      simp [Meaning.full, posted, Nat.not_le.2 room]
    rw [exec_stp, execStp, runNext, runInstr_room (full _ rfl),
      runInstr_acts clear rfl rfl (fun k here => alignTrap_none (ready k here).1) (fun k here => (ready k here).2)]
    exact store_accesses clear (stpAct_sends f)
end

section
/-! Instructions that wait in every strand of a sub-gang while they ask for walks (R34, R339), and the waits of accesses after a FENCE.REL (R126). -/

namespace Sys2Proof.Machine

/-! What the delivery of futures leaves of a strand (R53). -/

theorem deliver_field {s : State} {β : Sort _} (f : Strand → β) (blind : ∀ st n v, f ((st.setS n v).latchKill) = f st) :
    ∀ {l : List Nat} {st st' : Strand}, s.deliver st l = some st' → f st' = f st
  | [], st, st', given => by cases given; rfl
  | n :: l, st, st', given => by
    unfold State.deliver at given
    split at given
    · split at given
      · exact (deliver_field f blind given).trans (blind ..)
      · cases given
    · exact deliver_field f blind given

theorem setS_field {β : Sort _} (f : Strand → β) (blind : ∀ st : Strand, f { st with s := [], f := 0, lvalid := 0 } = f st) (st : Strand) (n : Nat)
    (v : Word64) : f ((st.setS n v).latchKill) = f st := by
  rw [← blind, ← blind st]
  unfold Strand.setS
  split <;> rfl

/-- What a strand keeps while its futures are delivered. -/
theorem reading_field {s : State} {x : Use} (clear : s.clear x) {k : Nat} (here : k ∈ s.cur.strands) {β : Sort _} (f : Strand → β)
    (blind : ∀ st : Strand, f { st with s := [], f := 0, lvalid := 0 } = f st) : f (s.reading x k) = f (s.strand s.cur.crew k) :=
  deliver_field f (setS_field f blind) (deliver_reading clear here)

/-- The delivery of futures does not look at what the strand waits for. -/
theorem deliver_wait {s : State} (w : Wait) : ∀ (l : List Nat) (st : Strand),
    s.deliver { st with wait := w } l = (s.deliver st l).map (fun st => { st with wait := w })
  | [], _ => rfl
  | n :: l, st => by
    have live : ({ st with wait := w } : Strand).isFut n = st.isFut n := rfl
    have value : s.futureValue { st with wait := w } (({ st with wait := w } : Strand).sreg n) = s.futureValue st (st.sreg n) := rfl
    have given (v : Word64) : (({ st with wait := w } : Strand).setS n v).latchKill = { (st.setS n v).latchKill with wait := w } := by
      unfold Strand.setS
      split <;> rfl
    unfold State.deliver
    rw [live, value]
    split
    · split
      · rw [given, deliver_wait w l]
      · rfl
    · exact deliver_wait w l st

/-! Strands that have been set to wait. -/

theorem setWaits_strand (u k : Nat) : ∀ (ws : List (Nat × Wait)) (s : State), ∃ w, (s.setWaits u ws).strand u k = { s.strand u k with wait := w }
  | [], _ => ⟨_, rfl⟩
  | e :: ws, s => by
    obtain ⟨w, rest⟩ := setWaits_strand u k ws (s.setStrand u e.1 { s.strand u e.1 with wait := e.2 })
    by_cases own : e.1 = k
    · subst own
      rw [State.strand_setStrand, if_pos ⟨rfl, rfl⟩] at rest
      exact ⟨w, rest⟩
    · rw [State.strand_setStrand, if_neg fun h => own h.2.symm] at rest
      exact ⟨w, rest⟩

theorem setWaits_same (u : Nat) : ∀ (ws : List (Nat × Wait)) (s : State), Same s (s.setWaits u ws)
  | [], s => .refl s
  | _ :: ws, _ => (same_setStrand ..).trans (setWaits_same u ws _)

/-- A site without the strands of its crew and what its own strand waits for. -/
def Site.still (a : Site) : Site := { a.bare with st := { a.st with wait := .ready } }

theorem still_congr {β : Sort _} (f : Site → β) (blind : ∀ a, f a = f a.still) {a b : Site} (same : a.still = b.still) : f a = f b := by
  rw [blind a, same, ← blind b]

/-- A strand of a clear sub-gang reads the same while the sub-gang waits. -/
theorem site_setWaits {s : State} {x : Use} (clear : s.clear x) {k : Nat} (here : k ∈ s.cur.strands) (ws : List (Nat × Wait)) {a : Site}
    (site : (s.setWaits s.cur.crew ws).site s.cur.crew k x.reads = some a) : a.still = (s.at x k).still := by
  obtain ⟨w, own⟩ := setWaits_strand s.cur.crew k ws s
  obtain ⟨bodies, rest⟩ := setWaits_same s.cur.crew ws s
  have beyond : (s.setWaits s.cur.crew ws).beyondSends = s.beyondSends := (congrArg State.beyondSends rest :)
  have body : ((s.setWaits s.cur.crew ws).crew s.cur.crew).body = (s.crew s.cur.crew).body := bodies _
  have results : (s.setWaits s.cur.crew ws).results = s.results := (congrArg State.results rest :)
  have given : s.deliver (s.strand s.cur.crew k) x.reads = some (s.reading x k) := deliver_reading clear here
  have waiting : (s.setWaits s.cur.crew ws).deliver ((s.setWaits s.cur.crew ws).strand s.cur.crew k) x.reads =
      some { s.reading x k with wait := w } := by
    rw [own, deliver_wait, deliver_congr results, given]
    rfl
  have found : (s.setWaits s.cur.crew ws).site s.cur.crew k x.reads = some ⟨s.setWaits s.cur.crew ws, s.cur.crew, k,
      (s.setWaits s.cur.crew ws).crew s.cur.crew, { s.reading x k with wait := w }⟩ := by
    dsimp only [State.site]
    rw [← State.strand, waiting]
    rfl
  rw [found] at site
  cases site
  simp only [Site.still, Site.bare, State.at, beyond, body]

/-! The runner where every strand waits, whatever it asks for. -/

theorem mem_waits {m : Meaning} {s : State} {u : Nat} {ks : List Nat} {e : Nat × Wait} (here : e ∈ m.waits s u ks) : e.1 ∈ ks := by
  unfold Meaning.waits at here
  dsimp only at here
  split at here
  · obtain ⟨k, among, found⟩ := List.mem_filterMap.1 here
    obtain ⟨w, _, rfl⟩ := Option.map_eq_some_iff.1 found
    exact among
  · obtain ⟨k, among, rfl⟩ := List.mem_map.1 here
    exact among

/-- What waiting strands ask for does not matter where it is nothing new. -/
theorem runInstr_quiet {i : Instr} {m : Meaning} {s : State}
    (safe : ∀ k ∈ s.cur.strands, m.trapOf i s s.cur.crew s.cur.strands k = none)
    (quiet : ∀ ws : List (Nat × Wait), (∀ e ∈ ws, e.1 ∈ s.cur.strands) →
      m.ask (s.setWaits s.cur.crew ws) s.cur.crew (ws.map (·.1)) = s.setWaits s.cur.crew ws) :
    runInstr i m s = runInstr i { m with ask := fun t _ _ => t } s := by
  have none : s.cur.strands.filterMap (fun k => (m.trapOf i s s.cur.crew s.cur.strands k).map (fun t => (k, t))) = [] := by
    rw [List.filterMap_eq_nil_iff]
    intro k here
    simp [safe k here]
  have none' : s.cur.strands.filterMap (fun k =>
      (({ m with ask := fun t _ _ => t } : Meaning).trapOf i s s.cur.crew s.cur.strands k).map (fun t => (k, t))) = [] := none
  have waits : ({ m with ask := fun t _ _ => t } : Meaning).waits s s.cur.crew s.cur.strands = m.waits s s.cur.crew s.cur.strands := rfl
  unfold runInstr
  simp only [none, none', waits, List.isEmpty_nil, if_true, State.takeTraps, List.foldl_nil, quiet _ fun e here => mem_waits here]

/-- An instruction that traps in no strand, waits in each and asks for nothing new does nothing else. -/
theorem waits_of_held {i : Instr} {m : Meaning} {s : State} {w : Nat → Wait} (clear : s.clear m.use) (room : m.full s s.cur.crew = false)
    (quiet : ∀ ws : List (Nat × Wait), (∀ e ∈ ws, e.1 ∈ s.cur.strands) →
      m.ask (s.setWaits s.cur.crew ws) s.cur.crew (ws.map (·.1)) = s.setWaits s.cur.crew ws)
    (safe : ∀ k ∈ s.cur.strands, m.trap ⟨s, s.cur.crew, k, s.crew s.cur.crew, s.reading m.use k⟩ = none)
    (held : ∀ k ∈ s.cur.strands, m.hold ⟨s, s.cur.crew, k, s.crew s.cur.crew, s.reading m.use k⟩ = some (w k)) :
    Waits s (runNext i m s) w := by
  have plain := waits_of_hold (i := i) (m := { m with posted := false, ask := fun t _ _ => t }) clear rfl (fun _ _ _ => rfl) safe held
  rw [runNext, runInstr_room room,
    runInstr_quiet (fun k here => (clear_trapOf (m := { m with posted := false }) clear rfl i here).trans (safe k here)) quiet]
  exact plain

/-- No walk is asked for where no address needs one. -/
theorem askWalks_quiet {s : State} {x : Use} {v : Strand → Nat → Word64} (blind : ∀ (st : Strand) w, v { st with wait := w } = v st)
    (clear : s.clear x) (walked : s.walked x v) (ws : List (Nat × Wait)) (sub : ∀ e ∈ ws, e.1 ∈ s.cur.strands) :
    askWalks x (fun a => domOf a.c.core) (fun a => v a.st) (s.setWaits s.cur.crew ws) s.cur.crew (ws.map (·.1)) = s.setWaits s.cur.crew ws := by
  refine foldl_idle fun k among => ?_
  obtain ⟨e, there, rfl⟩ := List.mem_map.1 among
  split
  next => rfl
  next a site =>
    have same := site_setWaits clear (sub e there) ws site
    refine foldl_idle fun t active => if_neg fun misses => ?_
    have walk : needsWalk a (domOf a.c.core) (v a.st) = needsWalk (s.at x e.1) (domOf (s.at x e.1).c.core) (v (s.at x e.1).st) :=
      still_congr (fun a : Site => needsWalk a (domOf a.c.core) (v a.st)) (fun a => by
        have own : v a.still.st = v a.st := blind a.st .ready
        rw [own]
        rfl) same
    have none : needsWalk a (domOf a.c.core) (v a.st) = false := walk.trans (walked e.1 (sub e there))
    exact absurd (decide_eq_true misses) (List.any_eq_false.1 none t active)

end Sys2Proof.Machine
end

section
/-! The waits of accesses after a FENCE.REL (R126), and of the fences themselves (R123, R125, R245). -/

namespace Sys2Proof.Machine

theorem not_ordered_of_unacked {s : State} {u k scope : Nat} (wide : 3 ≤ scope) (unacked : (s.strand u k).unacked ≠ 0) : ordered s u k scope = false := by
  simp [ordered, wide, unacked]

theorem flagDev_some {a : Site} {o d : Nat} {pas : List Nat} (flag : flagDev a o pas = some d) : o = 2 ∧ mrSCOPE a.st.mr = 5 := by
  unfold flagDev at flag
  split at flag
  · simp_all
  · cases flag

section
variable {s : State} {x : Use} {k : Nat} {o : Nat}

/-- A strand whose writes are to be acknowledged before what follows its FENCE.REL of device scope or wider (R126). -/
def State.heldBack (s : State) (x : Use) (k : Nat) : Prop :=
  2 ≤ (s.reading x k).fence ∧ (s.reading x k).unacked ≠ 0 ∧ (s.strand s.cur.crew k).unacked ≠ 0

theorem fenced_of_access {n : Nat} {v : Strand → Nat → Word64} (fenced : s.fencedAccess x n v) (here : k ∈ s.cur.strands) : s.heldBack x k := by
  obtain ⟨clear, each⟩ := fenced
  obtain ⟨fence, unacked, _⟩ := each k here
  exact ⟨fence, unacked, reading_field clear here Strand.unacked (fun _ => rfl) ▸ unacked⟩

theorem fenceHold_fenced (fenced : s.heldBack x k) : fenceHold (s.at x k) = some .acks := by
  obtain ⟨fence, -, unacked⟩ := fenced
  have waits : ordered s s.cur.crew k 4 = false := not_ordered_of_unacked (by decide) unacked
  have fence' : 2 ≤ (s.at x k).st.fence := fence
  have waits' : ordered (s.at x k).s (s.at x k).u (s.at x k).k 4 = false := waits
  simp [fenceHold, fence', waits']

/-- What a FENCE.REL of device scope or wider makes a posted store wait for. -/
theorem putHold_fenced (fenced : s.heldBack x k) : putHold (s.at x k) o = some (fencedWait s x o k) := by
  rw [putHold, fenceHold_fenced fenced]
  obtain ⟨-, own, unacked⟩ := fenced
  have own' : (s.at x k).st.unacked ≠ 0 := own
  by_cases sc : (s.reading x k).scHold = true
  · have sc' : (s.at x k).st.scHold = true := sc
    simp [orderHold, sc', own', orWait, fencedWait, sc]
  · have sc' : (s.at x k).st.scHold = false := Bool.eq_false_iff.2 sc
    by_cases rel : 2 ≤ o
    · have order : orderHold (s.at x k) (decide (2 ≤ o)) = relHold (mrSCOPE (s.reading x k).mr) (s.at x k) := by
        simp [orderHold, sc', rel]
        rfl
      rw [order, relHold, show ordered (s.at x k).s (s.at x k).u (s.at x k).k = ordered s s.cur.crew k from rfl]
      by_cases wide : 3 ≤ mrSCOPE (s.reading x k).mr
      · simp [not_ordered_of_unacked wide unacked, wide, orWait, fencedWait, Nat.not_lt.2 wide]
      · cases before : ordered s s.cur.crew k (mrSCOPE (s.reading x k).mr)
        · simp [wide, orWait, fencedWait, rel, sc, before, Nat.not_le.1 wide]
        · simp [wide, orWait, fencedWait, before]
    · simp [orderHold, sc', rel, orWait, fencedWait]

theorem storeHold_fenced (fenced : s.heldBack x k) (pas : List Nat) : storeHold (s.at x k) o pas = some (fencedWait s x o k) := by
  unfold storeHold
  split
  case h_1 d flag =>
    obtain ⟨-, scope⟩ := flagDev_some flag
    have acks : orWait (orderHold (s.at x k) false) (fenceHold (s.at x k)) = some .acks := by
      rw [fenceHold_fenced fenced, orderHold]
      split <;> rfl
    have wide : ¬mrSCOPE (s.reading x k).mr < 3 := by rw [show mrSCOPE (s.reading x k).mr = 5 from scope]; decide
    have acks' : some (fencedWait s x o k) = some .acks := congrArg some (if_neg fun ⟨_, _, narrow, _⟩ => wide narrow)
    rw [acks, acks']
    rfl
  case h_2 =>
    have put := putHold_fenced (o := o) fenced
    rw [putHold] at put
    rw [put]
    rfl

end

/-! Instructions that a FENCE.REL holds. -/

section
variable {s : State} {x : Use} {m : Meaning} {i : Instr} {n o : Nat} {v : Strand → Nat → Word64}

/-- An access that its fence holds waits, where no walk is asked for that is not there already. -/
theorem waits_of_fenced (fenced : s.fencedAccess m.use n v) (room : m.full s s.cur.crew = false)
    (trap : ∀ a, m.trap a = alignTrap a.st n (v a.st))
    (quiet : ∀ ws : List (Nat × Wait), (∀ e ∈ ws, e.1 ∈ s.cur.strands) →
      m.ask (s.setWaits s.cur.crew ws) s.cur.crew (ws.map (·.1)) = s.setWaits s.cur.crew ws)
    (held : ∀ k ∈ s.cur.strands, s.heldBack m.use k → m.hold (s.at m.use k) = some (fencedWait s m.use o k)) :
    Waits s (runNext i m s) (fencedWait s m.use o) := by
  refine waits_of_held fenced.1 room quiet (fun k here => ?_) fun k here => held k here (fenced_of_access fenced here)
  obtain ⟨_, _, aligned⟩ := fenced.2 k here
  exact (trap _).trans (alignTrap_none aligned)

theorem execSt_fenced {f : FM} (fenced : s.fencedAccess (stUse f) (zBytes f.z.val) (fun st => threadAddr st f.b.val f.i))
    (walked : s.walked (stUse f) (fun st => threadAddr st f.b.val f.i)) : Waits s (execSt f s) (fencedWait s (stUse f) f.o.val) :=
  waits_of_fenced fenced (full_of_posted rfl ..) (fun _ => rfl) (askWalks_quiet (fun _ _ => rfl) fenced.1 walked)
    fun k here wait => (if_neg (Bool.eq_false_iff.1 (walked k here))).trans (storeHold_fenced wait _)

theorem full_of_room (room : s.sfrqCount (s.crew s.cur.crew).core < 64) : m.full s s.cur.crew = false := by
  simp [Meaning.full, Nat.not_le.2 room]

theorem execStp_fenced {f : FM} (fenced : s.fencedAccess (stpUse f) (zBytes f.z.val) (fun st => threadAddr st f.b.val f.i))
    (walked : s.walked (stpUse f) (fun st => threadAddr st f.b.val f.i)) (room : s.sfrqCount (s.crew s.cur.crew).core < 64) :
    Waits s (execStp f s) (fencedWait s (stpUse f) f.o.val) :=
  waits_of_fenced fenced (full_of_room room) (fun _ => rfl) (askWalks_quiet (fun _ _ => rfl) fenced.1 walked)
    fun k here wait => (if_neg (Bool.eq_false_iff.1 (walked k here))).trans (storeHold_fenced wait _)

theorem atomOp_fenced {f : FMA} {kind : ReqKind} {z : Nat} {data cmp : Site → Nat → BitVec 128}
    (fenced : s.fencedAccess x (zBytes z) (fun st => threadAddr st f.b.val f.i)) (walked : s.walked x (fun st => threadAddr st f.b.val f.i)) :
    Waits s (atomOp i f x kind z data cmp s) (fencedWait s x f.o.val) := by
  unfold atomOp
  exact waits_of_fenced fenced (full_of_posted rfl ..) (fun _ => rfl) (askWalks_quiet (fun _ _ => rfl) fenced.1 walked)
    fun _ _ wait => congrArg (orWait · _) (putHold_fenced wait)

theorem execStx_fenced {f : FMz} (room : s.sfrqCount (s.crew s.cur.crew).core < 64)
    (fenced : s.fencedAccess (fmzUse f) (zBytes f.z.val) (fun st t => BitVec.ofInt 64 (stxOffset st f.b.val f.i t))) :
    Waits s (execStx f s) (fencedWait s (fmzUse f) f.o.val) :=
  waits_of_fenced fenced (full_of_room room) (fun _ => rfl) (fun _ _ => rfl) fun _ _ wait => putHold_fenced wait

theorem execPuta_fenced {f : FMz} {once : Bool} (room : s.sfrqCount (s.crew s.cur.crew).core < 64)
    (fenced : s.fencedAccess (fmzUse f) (zBytes f.z.val) (fun st t => BitVec.ofNat 64 (putOffset st f.i t)))
    (walked : s.walked (fmzUse f) (fun st _ => st.sreg f.b.val)) : Waits s (execPuta f once s) (fencedWait s (fmzUse f) f.o.val) :=
  waits_of_fenced fenced (full_of_room room) (fun _ => rfl) (askWalks_quiet (v := fun st _ => st.sreg f.b.val) (fun _ _ => rfl) fenced.1 walked)
    fun _ _ wait => congrArg (orWait · _) (putHold_fenced wait)

/-- No walk is asked for where no multicast address misses. -/
theorem mst_quiet {f : FMz} (clear : s.clear (fmzUse f))
    (walked : ∀ k ∈ s.cur.strands, ∀ t < 32, mstXl (s.at (fmzUse f) k) (threadAddr (s.reading (fmzUse f) k) f.b.val f.i t) ≠ .miss)
    (ws : List (Nat × Wait)) (sub : ∀ e ∈ ws, e.1 ∈ s.cur.strands) :
    (ws.map (·.1)).foldl (fun s' k => match s'.site s.cur.crew k (fmzUse f).reads with
        | none => s'
        | some a => (threadsOf a.st.active).foldl (fun s' t =>
            if mstXl a (threadAddr a.st f.b.val f.i t) = .miss then
              s'.askWalk s.cur.crew k a.c.core (domOf a.c.core) (s'.crewLaunch a.c).part (s'.crewLaunch a.c).space
                (mstAddr (threadAddr a.st f.b.val f.i t)).toNat
            else s') s') (s.setWaits s.cur.crew ws) = s.setWaits s.cur.crew ws := by
  refine foldl_idle fun k among => ?_
  obtain ⟨e, there, rfl⟩ := List.mem_map.1 among
  split
  next => rfl
  next a site =>
    refine foldl_idle fun t active => if_neg fun miss => walked e.1 (sub e there) t ((mem_threadsOf ..).1 active).1 ?_
    have same : mstXl a (threadAddr a.st f.b.val f.i t) =
        mstXl (s.at (fmzUse f) e.1) (threadAddr (s.at (fmzUse f) e.1).st f.b.val f.i t) :=
      still_congr (fun a : Site => mstXl a (threadAddr a.st f.b.val f.i t)) (fun _ => rfl) (site_setWaits clear (sub e there) ws site)
    exact same.symm.trans miss

theorem execMst_fenced {f : FMz} (room : s.sfrqCount (s.crew s.cur.crew).core < 64)
    (fenced : s.fencedAccess (fmzUse f) (zBytes f.z.val) (fun st => threadAddr st f.b.val f.i))
    (walked : ∀ k ∈ s.cur.strands, ∀ t < 32, mstXl (s.at (fmzUse f) k) (threadAddr (s.reading (fmzUse f) k) f.b.val f.i t) ≠ .miss) :
    Waits s (execMst f s) (fencedWait s (fmzUse f) f.o.val) :=
  waits_of_fenced fenced (full_of_room room) (fun _ => rfl) (mst_quiet fenced.1 walked)
    fun _ _ wait => congrArg (orWait · _) (putHold_fenced wait)

/-- A store to the buffer after a FENCE.REL of crew scope or less. -/
theorem execSta_fenced {f : FMz} (clear : s.clear (staUse f)) (plain : f.o.val < 2)
    (fenced : ∀ k ∈ s.cur.strands, let st := s.reading (staUse f) k
      st.fence % 2 = 1 ∧ st.scHold = false ∧ ordered s s.cur.crew k 2 = false ∧
      misaligned st.active (zBytes f.z.val) (threadAddr st f.b.val f.i) = none) :
    Waits s (execSta f s) (fun _ => .remoteAcks) := by
  refine waits_of_hold clear rfl (fun _ _ _ => rfl) (fun k here => ?_) fun k here => ?_
  · obtain ⟨_, _, _, aligned⟩ := fenced k here
    exact alignTrap_none aligned
  · obtain ⟨fence, sc, before, _⟩ := fenced k here
    simp [abHold, orderHold, abFenceHold, orWait, Nat.not_le.2 plain, fence, sc, before]

/-- Every ATOM and ATOMW function waits. -/
theorem atomics_fenced (s : State) (f : FMA) :
    let v := fun st => threadAddr st f.b.val f.i
    everyAtomic f (fun i x n => s.fencedAccess x n v → s.walked x v → Waits s (exec i s) (fencedWait s x f.o.val)) := by
  refine ⟨?_, ?_, ?_, ?_, ?_, ?_, ?_, ?_, ?_, ?_, ?_, ?_, ?_, ?_, ?_, ?_, ?_, ?_, ?_, ?_, ?_, ?_, ?_⟩ <;>
    exact fun fenced walked => atomOp_fenced fenced walked

end

/-! Fences. -/

section
variable {s : State} {i : Instr} {hold : Site → Option Wait}

theorem fenceOp_completes (clear : s.clear {}) (free : ∀ k ∈ s.cur.strands, hold (s.at {} k) = none) :
    Completes s (fenceOp i hold s) (fun k => (s.strand s.cur.crew k).latchKill.seq) :=
  completes_onStrand i _ (fun a => a.st.latchKill.seq) s _ rfl rfl clear (fun _ _ => rfl) free fun _ _ _ _ _ => rfl

theorem fenceOp_waits {w : Nat → Wait} (clear : s.clear {}) (held : ∀ k ∈ s.cur.strands, hold (s.at {} k) = some (w k)) :
    Waits s (fenceOp i hold s) w :=
  waits_of_hold (m := { strandOp {} (fun a => a.st.latchKill) with hold := hold }) clear rfl (fun _ _ _ => rfl) (fun _ _ => rfl) held

theorem execFenceRel_completes (c : Fin 8) (clear : s.clear {}) :
    Completes s (execFenceRel c s) (fun k => let st := s.strand s.cur.crew k
      ({ st.latchKill with fence := fenceUp st.fence c.val s.nextId } : Strand).seq) :=
  completes_onStrand _ _ (fun a => ({ a.st.latchKill with fence := fenceUp a.st.fence c.val a.s.nextId } : Strand).seq) s _ rfl rfl clear
    (fun _ _ => rfl) (fun _ _ => rfl) fun t k alike _ _ => by
    have next : t.nextId = s.nextId := (congrArg State.nextId alike.2 :)
    dsimp only
    rw [next]
    rfl

theorem relHold_free {k scope : Nat} (acked : ordered s s.cur.crew k scope = true) (crew : 3 ≤ scope → s.crewClear {} k) :
    relHold scope (s.at {} k) = none := by
  have acked' : ordered (s.at {} k).s (s.at {} k).u (s.at {} k).k scope = true := acked
  simp only [relHold, acked', Bool.not_true, Bool.false_eq_true, if_false]
  split
  next wide => exact if_neg (Bool.eq_false_iff.1 (crew wide))
  next => rfl

theorem relHold_crew {k scope : Nat} (acked : ordered s s.cur.crew k scope = true) (wide : 3 ≤ scope) (crew : ¬s.crewClear {} k) :
    relHold scope (s.at {} k) = some (.crewAcks (crewMark (s.at {} k))) := by
  have acked' : ordered (s.at {} k).s (s.at {} k).u (s.at {} k).k scope = true := acked
  simp only [relHold, acked', Bool.not_true, Bool.false_eq_true, if_false, if_pos wide]
  exact if_pos (Bool.not_eq_false _ ▸ crew)

theorem relHold_unacked {k scope : Nat} (acked : ordered s s.cur.crew k scope = false) :
    relHold scope (s.at {} k) = some (if 3 ≤ scope then .acks else .remoteAcks) := by
  have acked' : ordered (s.at {} k).s (s.at {} k).u (s.at {} k).k scope = false := acked
  simp [relHold, acked']

end

end Sys2Proof.Machine
end

section
/-! What the hints leave (R244): LDROP takes lines out of L1, PHINT sends a request for each leaf that it finds. -/

namespace Sys2Proof.Machine

/-! LDROP. -/

/-- The line of a thread's address leaves a core's L1, where the address translates. -/
def dropThread (xl : Nat → Xl) (core : Nat) (s : State) (th : Nat) : State :=
  match xl th with
  | .ok pa => s.dropL1 core (lineOf pa)
  | _ => s

/-- No line that an active thread of a strand addresses is in the L1 of its core. -/
def Site.gone (a : Site) (v : Strand → Nat → Word64) (t : State) : Prop :=
  ∀ th < 32, a.st.active.getLsbD th = true → ∀ pa, postXl a 0 (v a.st th) = .ok pa → ∀ e ∈ t.l1, ¬(e.core = a.c.core ∧ e.line = lineOf pa)

theorem sends_dropThread (u k : Nat) (xl : Nat → Xl) (core : Nat) (s : State) (th : Nat) : StrandSends u k [] s (dropThread xl core s th) := by
  unfold dropThread
  split
  · exact sends_dropL1 ..
  · exact .refl ..

theorem l1_dropThread (xl : Nat → Xl) (core : Nat) (s : State) (th : Nat) : ∀ e ∈ (dropThread xl core s th).l1,
    e ∈ s.l1 ∧ ∀ pa, xl th = .ok pa → ¬(e.core = core ∧ e.line = lineOf pa) := by
  intro e here
  unfold dropThread at here
  split at here
  next pa ok =>
    obtain ⟨old, apart⟩ := List.mem_filter.1 here
    refine ⟨old, fun pa' ok' => ?_⟩
    cases ok.symm.trans ok'
    rw [← Bool.decide_and] at apart
    simpa only [Bool.not_eq_true', decide_eq_false_iff_not] using apart
  next none => exact ⟨here, fun pa ok => absurd ok (none pa)⟩

theorem l1_dropThreads (xl : Nat → Xl) (core : Nat) : ∀ (l : List Nat) (s : State), ∀ e ∈ (l.foldl (dropThread xl core) s).l1,
    e ∈ s.l1 ∧ ∀ th ∈ l, ∀ pa, xl th = .ok pa → ¬(e.core = core ∧ e.line = lineOf pa)
  | [], _, _, here => ⟨here, fun _ none => absurd none List.not_mem_nil⟩
  | th :: l, s, e, here => by
    obtain ⟨mid, later⟩ := l1_dropThreads xl core l _ e here
    obtain ⟨old, first⟩ := l1_dropThread xl core s th e mid
    exact ⟨old, fun j among => (List.mem_cons.1 among).elim (fun same => same ▸ first) (later j)⟩

/-- The effect of LDROP in a strand. -/
def ldropAct (b : Fin 32) (i : Opnd) (a : Site) : State :=
  ((threadsOf a.st.active).foldl (dropThread (fun th => postXl a 0 (threadAddr a.st b.val i th)) a.c.core) a.s).setStrand a.u a.k a.st.seq

section
variable (b : Fin 32) (i : Opnd)

theorem ldropAct_sends (a : Site) : StrandSends a.u a.k [] a.s (ldropAct b i a) ∧ (ldropAct b i a).strand a.u a.k = a.st.seq :=
  ⟨(sends_nothing (fun t th => sends_dropThread a.u a.k (fun th => postXl a 0 (threadAddr a.st b.val i th)) a.c.core t th) _ a.s).then_nothing
    (sends_setStrand ..), (State.strand_setStrand ..).trans (if_pos ⟨rfl, rfl⟩)⟩

theorem ldropAct_l1 (a : Site) :
    (∀ e ∈ (ldropAct b i a).l1, e ∈ a.s.l1) ∧ a.gone (fun st => threadAddr st b.val i) (ldropAct b i a) := by
  have l1 := l1_dropThreads (fun th => postXl a 0 (threadAddr a.st b.val i th)) a.c.core (threadsOf a.st.active) a.s
  exact ⟨fun e here => (l1 e here).1, fun th low active pa ok e here => (l1 e here).2 th ((mem_threadsOf ..).2 ⟨low, active⟩) pa ok⟩

/-- The strands `done` of the sub-gang have dropped their lines and gone on. -/
structure GangDrops (s : State) (x : Use) (done : List Nat) (t : State) : Prop where
  sends : GangSends s done (fun _ => []) t
  fewer : ∀ e ∈ t.l1, e ∈ s.l1
  strands : ∀ k ∈ done, t.strand s.cur.crew k = (s.reading x k).seq ∧ (s.at x k).gone (fun st => threadAddr st b.val i) t

theorem GangDrops.step {s t : State} {x : Use} {done : List Nat} {k : Nat} (h : GangDrops b i s x done t) :
    GangDrops b i s x (done ++ [k]) (ldropAct b i ⟨t, s.cur.crew, k, t.crew s.cur.crew, s.reading x k⟩) := by
  obtain ⟨sends, strand⟩ := ldropAct_sends b i ⟨t, s.cur.crew, k, t.crew s.cur.crew, s.reading x k⟩
  obtain ⟨fewer, gone⟩ := ldropAct_l1 b i ⟨t, s.cur.crew, k, t.crew s.cur.crew, s.reading x k⟩
  rw [bare_congr (fun a : Site => a.gone (fun st => threadAddr st b.val i) _) (fun _ => rfl) (h.sends.bare x k)] at gone
  refine ⟨h.sends.step sends fun _ none => absurd none List.not_mem_nil, fun e here => h.fewer e (fewer e here), fun j here => ?_⟩
  by_cases last : j = k
  · rw [last]
    exact ⟨strand, gone⟩
  · obtain ⟨own, was⟩ := h.strands j ((List.mem_append.1 here).resolve_right (by simpa using last))
    exact ⟨(sends.others _ _ fun p => last p.2).trans own, fun th low active pa ok e there => was th low active pa ok e (fewer e there)⟩

theorem ldrop_eachStrand {s : State} {x : Use} (clear : s.clear x) : ∀ (rest done : List Nat) (t : State), s.cur.strands = done ++ rest →
    GangDrops b i s x done t → GangDrops b i s x s.cur.strands (eachStrand x (ldropAct b i) t s.cur.crew rest)
  | [], done, t, all, h => by
    rw [List.append_nil] at all
    rw [all]
    exact h
  | k :: rest, done, t, all, h => by
    obtain ⟨here, new⟩ := next_strand clear all
    have one : eachStrand x (ldropAct b i) t s.cur.crew (k :: rest) =
        eachStrand x (ldropAct b i) (ldropAct b i ⟨t, s.cur.crew, k, t.crew s.cur.crew, s.reading x k⟩) s.cur.crew rest := by
      simp only [eachStrand, List.foldl_cons, h.sends.site clear here new]
    rw [one]
    exact ldrop_eachStrand clear rest (done ++ [k]) _ (by simp [all]) h.step

/-- What LDROP names. -/
def ldropUse : Use := { src := [i], sr := [b.val] }

theorem execLdrop_drops {s : State} (clear : s.clear (ldropUse b i)) (walked : s.walked (ldropUse b i) (fun st => threadAddr st b.val i)) :
    ∃ t, execLdrop b i s = .next t ∧ GangDrops b i s (ldropUse b i) s.cur.strands t := by
  refine ⟨eachStrand (ldropUse b i) (ldropAct b i) s s.cur.crew s.cur.strands, ?_,
    ldrop_eachStrand b i clear _ [] s rfl ⟨.refl s _, fun _ here => here, fun _ none => absurd none List.not_mem_nil⟩⟩
  exact congrArg Host.Outcome.next (runInstr_acts clear rfl rfl (fun _ _ => rfl) fun k here => if_neg (Bool.eq_false_iff.1 (walked k here)))

end

/-! PHINT. -/

theorem walkFrom_beyondSends (s : State) (va : Nat) : ∀ (l : List (Nat × Nat × Nat)) (tbl : Nat), s.beyondSends.walkFrom va l tbl = s.walkFrom va l tbl
  | [], _ => rfl
  | (level, shift, n) :: l, tbl => by
    rw [State.walkFrom, State.walkFrom, walkFrom_beyondSends s va l]
    rfl

theorem hintWalk_bare (a : Site) (v : Word64) : hintWalk a v = hintWalk a.bare v := by
  unfold hintWalk State.walk
  dsimp only [Site.bare]
  rw [walkFrom_beyondSends]
  rfl

theorem hintLeaf_bare (a : Site) (v : Word64) : hintLeaf a v = hintLeaf a.bare v := by
  rw [hintLeaf, hintLeaf, hintWalk_bare]

section
variable (x : Opnd) (b : Fin 32) (i : Opnd)

/-- The request of PHINT for a thread's leaf. -/
def hintReq (a : Site) (th leaf : Nat) : Req :=
  { mkReq a (.atomic 8) (lineOf leaf) 0 0 0 [mkAccess th (leaf + 1) 1 ((a.st.src x th).setWidth 128) 0 (threadAddr a.st b.val i th)] with dropped := true }

/-- The requests of PHINT in a strand. -/
def hintReqs (a : Site) : List Req :=
  (threadsOf a.st.active).filterMap (fun th => (hintLeaf a (threadAddr a.st b.val i th)).map (hintReq x b i a th))

theorem hintReqs_bare (a : Site) : hintReqs x b i a = hintReqs x b i a.bare := by
  unfold hintReqs
  simp only [hintLeaf_bare a]
  rfl

/-- The effect of PHINT in a strand. -/
def phintAct (a : Site) : State := ((hintReqs x b i a).foldl State.send a.s).setStrand a.u a.k a.st.seq

/-- What PHINT names. -/
def phintUse : Use := { src := [x, i], sr := [b.val] }

theorem execPhint_sends {s : State} (clear : s.clear (phintUse x b i))
    (walks : ∀ k ∈ s.cur.strands, let a := s.at (phintUse x b i) k
      ∀ th < 32, a.st.active.getLsbD th = true → hintWalk a (threadAddr a.st b.val i th) ≠ .busy) :
    ∃ t, execPhint x b i s = .next t ∧ GangSends s s.cur.strands (fun k => hintReqs x b i (s.at (phintUse x b i) k)) t ∧
      ∀ k ∈ s.cur.strands, t.strand s.cur.crew k = (s.reading (phintUse x b i) k).seq := by
  refine ⟨eachStrand (phintUse x b i) (phintAct x b i) s s.cur.crew s.cur.strands, ?_, ?_⟩
  · refine congrArg Host.Outcome.next ((runInstr_acts clear rfl rfl (fun _ _ => rfl) fun k here => if_neg ?_).trans
      (congrArg (eachStrand (phintUse x b i) · s s.cur.crew s.cur.strands) (funext fun a => ?_)))
    · rw [List.any_eq_true]
      rintro ⟨th, active, busy⟩
      obtain ⟨low, active⟩ := (mem_threadsOf ..).1 active
      exact walks k here th low active (of_decide_eq_true busy)
    · rw [phintAct, hintReqs, List.foldl_filterMap]
      refine congrArg (fun t : State => t.setStrand a.u a.k a.st.seq) (List.foldl_ext _ _ _ fun t th _ => ?_)
      cases hintLeaf a (threadAddr a.st b.val i th) <;> rfl
  · refine gangSends_eachStrand clear (fun k n => n = (s.reading (phintUse x b i) k).seq) (fun k _ r sent => ?_) (fun k here t a at_ same _ => ?_) _ [] s rfl
      (.refl s _) fun _ none => absurd none List.not_mem_nil
    · obtain ⟨th, _, made⟩ := List.mem_filterMap.1 sent
      obtain ⟨leaf, _, rfl⟩ := Option.map_eq_some_iff.1 made
      rfl
    · have reqs := bare_congr (hintReqs x b i) (hintReqs_bare x b i) same
      subst at_
      refine ⟨StrandSends.then_nothing (reqs ▸ sends_foldl (fun t r => sends_send t s.cur.crew k r) _ t) (sends_setStrand ..),
        (State.strand_setStrand ..).trans (if_pos ⟨rfl, rfl⟩)⟩

theorem hint_carried {s t : State} (sends : GangSends s s.cur.strands (fun k => hintReqs x b i (s.at (phintUse x b i) k)) t) {k th leaf : Nat}
    (here : k ∈ s.cur.strands) (low : th < 32) (active : (s.reading (phintUse x b i) k).active.getLsbD th = true)
    (found : hintLeaf (s.at (phintUse x b i) k) (threadAddr (s.reading (phintUse x b i) k) b.val i th) = some leaf) (near : devOf leaf = s.dev) :
    s.carries t k th (.atomic 8) (lineOf leaf) ((leaf + 1) % 128) 1 (((s.reading (phintUse x b i) k).src x th).setWidth 128) 0 := by
  have sent : hintReq x b i (s.at (phintUse x b i) k) th leaf ∈ hintReqs x b i (s.at (phintUse x b i) k) :=
    List.mem_filterMap.2 ⟨th, (mem_threadsOf ..).2 ⟨low, active⟩, Option.map_eq_some_iff.2 ⟨leaf, found, rfl⟩⟩
  obtain ⟨id, _, q, there, kind, crew, strand, dev, line, accs⟩ := sends.posts k here _ sent ((devOf_lineOf leaf).trans near)
  exact ⟨id, q, there, kind, crew, strand, dev, line, accs ▸ ⟨_, List.mem_singleton_self _, rfl, rfl, rfl, rfl, rfl⟩⟩

end

end Sys2Proof.Machine
end

section
/-! Fences and hints (R123, R126, R244, R245). -/

open Sys2Proof Sys2Proof.Machine

/-- Settles O25: each fence by its own wait, each access by the wait of a FENCE.REL before it, each hint by what it leaves. -/
theorem fencesAndHints : Obligations.FencesAndHints := by
  unfold Obligations.FencesAndHints
  refine ⟨fun s c clear => ⟨fenceOp_completes clear fun _ _ => rfl, execFenceRel_completes c clear, fun acked crew => ?_, fun acked wide crew => ?_,
      fun narrow before => ?_, fun acked => fenceOp_completes clear fun k here => if_pos (acked k here),
      fun unacked => fenceOp_waits clear fun k here => if_neg (unacked k here), fun wide unacked => ?_⟩,
    fun s => ⟨fun f => ⟨execSt_fenced, execStp_fenced⟩, atomics_fenced s,
      fun f room => ⟨execStx_fenced room, fun once => execPuta_fenced room, execMst_fenced room⟩, fun f => execSta_fenced⟩,
    fun s b i => ⟨fun clear => ⟨completes_plain _ _ Strand.seq clear, fun walked => ?_⟩, fun x clear walks => ?_⟩⟩
  · have free : ∀ k ∈ s.cur.strands, relHold c.val (s.at {} k) = none := fun k here => relHold_free (acked k here) fun wide => crew wide k here
    exact ⟨fenceOp_completes clear free, fenceOp_completes clear free⟩
  · have held : ∀ k ∈ s.cur.strands, relHold c.val (s.at {} k) = some (.crewAcks (crewMark (s.at {} k))) :=
      fun k here => relHold_crew (acked k here) wide (crew k here)
    exact ⟨fenceOp_waits clear held, fenceOp_waits clear held⟩
  · have held : ∀ k ∈ s.cur.strands, relHold c.val (s.at {} k) = some .remoteAcks :=
      fun k here => (relHold_unacked (before k here)).trans (congrArg some (if_neg (Nat.not_le.2 narrow)))
    exact ⟨fenceOp_waits clear held, fenceOp_waits clear held⟩
  · have held : ∀ k ∈ s.cur.strands, relHold c.val (s.at {} k) = some .acks :=
      fun k here => (relHold_unacked (not_ordered_of_unacked wide (unacked k here))).trans (congrArg some (if_pos wide))
    exact ⟨fenceOp_waits clear held, fenceOp_waits clear held⟩
  · obtain ⟨t, next, drops⟩ := execLdrop_drops b i clear walked
    exact ⟨t, next, (congrArg State.mem drops.sends.rest :), drops.strands, drops.fewer⟩
  · obtain ⟨t, next, sends, strands⟩ := execPhint_sends x b i clear walks
    exact ⟨t, next, (congrArg State.mem sends.rest :), fun k here => ⟨strands k here, fun th low active leaf found near =>
      hint_carried x b i sends here low active found near⟩⟩
end


section
/-! The fields of a word and the layouts of R142. Each layout has one law: a word is the sum of its fields exactly when reading the fields
gives them. -/

namespace Sys2Proof

/-- The word with number `w` is that of the well-formed instruction `i`. -/
def Encodes (w : Nat) (i : Instr) : Prop := i.wellFormed = true ∧ encodeNat i = some w

/-! What a field holds. -/

@[simp] theorem Opnd.code_lt (o : Opnd) : o.code < 128 := by cases o <;> simp only [Opnd.code] <;> omega

theorem Opnd.code_ofCode {c : Nat} (h : c < 128) : (Opnd.ofCode c).code = c := by
  unfold Opnd.ofCode
  split_ifs <;> simp only [Opnd.code, Fin.val_ofNat] <;> omega

theorem Opnd.code_inj {a b : Opnd} (h : a.code = b.code) : a = b := by
  cases a <;> cases b <;>
    simp only [Opnd.code, reduceCtorEq, Opnd.v.injEq, Opnd.o.injEq, Opnd.l.injEq, Opnd.s.injEq, Opnd.rsv.injEq] at h ⊢ <;> omega

theorem Opnd.ofCode_code (o : Opnd) : Opnd.ofCode o.code = o := Opnd.code_inj (Opnd.code_ofCode o.code_lt)

@[simp] theorem bits_eq_code {w lo : Nat} {o : Opnd} : bits w lo 7 = o.code ↔ opnd w lo = o := by
  unfold opnd
  constructor
  · intro h; rw [h, Opnd.ofCode_code]
  · rintro rfl; exact (Opnd.code_ofCode (Nat.mod_lt _ (by decide))).symm

@[simp] theorem bits_eq_toNat {w lo : Nat} {b : Bool} : bits w lo 1 = b.toNat ↔ flag w lo = b := by
  have := Nat.mod_two_eq_zero_or_one (w / 2 ^ lo)
  cases b <;> simp [bits, flag]

@[simp] theorem bits_eq_zero {w lo : Nat} : bits w lo 1 = 0 ↔ flag w lo = false := bits_eq_toNat (b := false)

@[simp] theorem bits_eq_bitVec {w lo n : Nat} {x : BitVec n} : bits w lo n = x.toNat ↔ BitVec.ofNat n (bits w lo n) = x := by
  rw [← BitVec.toNat_inj, BitVec.toNat_ofNat, bits, Nat.mod_mod]

theorem bits_eq_fin {w lo n k : Nat} [NeZero k] {x : Fin k} (hk : 2 ^ n = k) : bits w lo n = x.val ↔ fld w lo k = x := by
  subst hk; simp [bits, fld, Fin.ext_iff]

/-- A number in a field whose upper `m` bits are reserved. -/
theorem bits_eq_fin_low {w lo n k : Nat} (m : Nat) [NeZero k] {x : Fin k} (hk : 2 ^ n = k) :
    bits w lo (n + m) = x.val ↔ bits w (lo + n) m = 0 ∧ fld w lo k = x := by
  have split : bits w lo (n + m) = bits w lo n + 2 ^ n * bits w (lo + n) m := by
    simp only [bits, Nat.pow_add, ← Nat.div_div_eq_div_mul, Nat.mod_mul]
  rw [← bits_eq_fin hk, split]
  have low : x.val < 2 ^ n := hk ▸ x.isLt
  constructor
  · intro h
    have none : bits w (lo + n) m = 0 := by
      by_contra some
      have := Nat.mul_le_mul_left (2 ^ n) (Nat.one_le_iff_ne_zero.2 some)
      omega
    rw [none] at h
    exact ⟨none, h⟩
  · rintro ⟨none, h⟩
    rw [none, h, Nat.mul_zero, Nat.add_zero]

@[simp] theorem bits4_eq_pair {w lo : Nat} {j k : Fin 4} : bits w lo 4 = j.val * 4 + k.val ↔ fld w (lo + 2) 4 = j ∧ fld w lo 4 = k := by
  have split : bits w lo 4 = bits w (lo + 2) 2 * 4 + bits w lo 2 := by
    simp only [bits, Nat.pow_add, ← Nat.div_div_eq_div_mul]
    omega
  have low : bits w lo 2 < 4 := Nat.mod_lt _ (by decide)
  rw [← bits_eq_fin (k := 4) (n := 2) rfl, ← bits_eq_fin (k := 4) (n := 2) rfl, split]
  omega

@[simp] theorem pair_lt_16 (j k : Fin 4) : j.val * 4 + k.val < 16 := by omega
@[simp] theorem fin8_lt_128 (x : Fin 8) : x.val < 128 := by omega
@[simp] theorem fin16_lt_128 (x : Fin 16) : x.val < 128 := by omega
@[simp] theorem fin4_lt_16 (x : Fin 4) : x.val < 16 := by omega

section
variable {w lo : Nat}

@[simp] theorem bits2_eq_fin4 {x : Fin 4} : bits w lo 2 = x.val ↔ fld w lo 4 = x := bits_eq_fin rfl
@[simp] theorem bits3_eq_fin8 {x : Fin 8} : bits w lo 3 = x.val ↔ fld w lo 8 = x := bits_eq_fin rfl
@[simp] theorem bits4_eq_fin16 {x : Fin 16} : bits w lo 4 = x.val ↔ fld w lo 16 = x := bits_eq_fin rfl
@[simp] theorem bits5_eq_fin32 {x : Fin 32} : bits w lo 5 = x.val ↔ fld w lo 32 = x := bits_eq_fin rfl
@[simp] theorem bits7_eq_fin128 {x : Fin 128} : bits w lo 7 = x.val ↔ fld w lo 128 = x := bits_eq_fin rfl
@[simp] theorem bits8_eq_fin256 {x : Fin 256} : bits w lo 8 = x.val ↔ fld w lo 256 = x := bits_eq_fin rfl
@[simp] theorem bits7_eq_fin8 {x : Fin 8} : bits w lo 7 = x.val ↔ bits w (lo + 3) 4 = 0 ∧ fld w lo 8 = x := bits_eq_fin_low 4 rfl
@[simp] theorem bits7_eq_fin16 {x : Fin 16} : bits w lo 7 = x.val ↔ bits w (lo + 4) 3 = 0 ∧ fld w lo 16 = x := bits_eq_fin_low 3 rfl
@[simp] theorem bits4_eq_fin4 {x : Fin 4} : bits w lo 4 = x.val ↔ bits w (lo + 2) 2 = 0 ∧ fld w lo 4 = x := bits_eq_fin_low 2 rfl

end

/-! The layouts. -/

section
variable {w mj fn n d a b c x i z o h q sel rc : Nat}

theorem encR_eq_iff (fn_ : fn < 16 := by simp) (n_ : n < 2 := by simp [Bool.toNat_le]) (d_ : d < 128 := by simp) (a_ : a < 128 := by simp)
    (b_ : b < 128 := by simp) : encR mj fn n d a b = w ↔
    w / 2 ^ 26 = mj ∧ w % 16 = fn ∧ bits w 25 1 = n ∧ bits w 18 7 = d ∧ bits w 11 7 = a ∧ bits w 4 7 = b := by
  unfold encR bits; omega

theorem encI_eq_iff (n_ : n < 2 := by simp [Bool.toNat_le]) (d_ : d < 128 := by simp) (a_ : a < 128 := by simp)
    (i_ : i < 2048 := by simp) : encI mj n d a i = w ↔
    w / 2 ^ 26 = mj ∧ bits w 25 1 = n ∧ bits w 18 7 = d ∧ bits w 11 7 = a ∧ bits w 0 11 = i := by
  unfold encI bits; omega

theorem encM_eq_iff (x_ : x < 128 := by simp) (b_ : b < 32 := by simp) (i_ : i < 128 := by simp) (z_ : z < 8 := by simp)
    (o_ : o < 4 := by simp) (h_ : h < 4 := by simp) : encM mj x b i z o h = w ↔
    w / 2 ^ 26 = mj ∧ bits w 19 7 = x ∧ bits w 14 5 = b ∧ bits w 7 7 = i ∧ bits w 4 3 = z ∧ bits w 2 2 = o ∧ bits w 0 2 = h := by
  unfold encM bits; omega

theorem encMA_eq_iff (x_ : x < 128 := by simp) (b_ : b < 32 := by simp) (i_ : i < 128 := by simp) (fn_ : fn < 16 := by simp)
    (o_ : o < 4 := by simp) (q_ : q < 2 := by simp [Bool.toNat_le]) : encMA mj x b i fn o q = w ↔
    w / 2 ^ 26 = mj ∧ bits w 3 4 = fn ∧ bits w 19 7 = x ∧ bits w 14 5 = b ∧ bits w 7 7 = i ∧ bits w 1 2 = o ∧ bits w 0 1 = q := by
  unfold encMA bits; omega

theorem encE_eq_iff (d_ : d < 32 := by simp) (a_ : a < 32 := by simp) (b_ : b < 32 := by simp) (c_ : c < 32 := by simp)
    (fn_ : fn < 64 := by simp) : encE mj d a b c fn = w ↔
    w / 2 ^ 26 = mj ∧ w % 64 = fn ∧ bits w 21 5 = d ∧ bits w 16 5 = a ∧ bits w 11 5 = b ∧ bits w 6 5 = c := by
  unfold encE bits; omega

theorem encT_eq_iff (d_ : d < 128 := by simp) (sel_ : sel < 16 := by simp) (rc_ : rc < 2 := by simp [Bool.toNat_le])
    (x_ : x < 32 := by simp) (n_ : n < 16 := by simp) (fn_ : fn < 16 := by simp) : encT mj d sel rc x n fn = w ↔
    w / 2 ^ 26 = mj ∧ w % 16 = fn ∧ bits w 25 1 = 0 ∧ bits w 18 7 = d ∧ bits w 14 4 = sel ∧ bits w 13 1 = rc ∧ bits w 8 5 = x ∧ bits w 4 4 = n := by
  unfold encT bits; omega

/-! The words that have a format to themselves (R145, R149, R151). -/

variable {t k r s v g p j l : Nat}

theorem modeWord_eq_iff (v_ : v < 2 ^ 23) (g_ : g < 8 := by simp) : 1 * 2 ^ 26 + g * 2 ^ 23 + v = w ↔
    w / 2 ^ 26 = 1 ∧ bits w 23 3 = g ∧ bits w 0 23 = v := by
  unfold bits; omega

theorem branchWord_eq_iff (o_ : o < 2 ^ 21) (h_ : h < 2 := by simp [Bool.toNat_le]) (p_ : p < 8 := by simp) (t_ : t < 2 := by simp) :
    mj * 2 ^ 26 + h * 2 ^ 25 + p * 2 ^ 22 + t * 2 ^ 21 + o = w ↔
      w / 2 ^ 26 = mj ∧ bits w 21 1 = t ∧ bits w 25 1 = h ∧ bits w 22 3 = p ∧ bits w 0 21 = o := by
  unfold bits; omega

theorem bruWord_eq_iff (o_ : o < 2 ^ 18) (r_ : r < 32 := by simp) (c_ : c < 4 := by simp) : mj * 2 ^ 26 + r * 2 ^ 20 + c * 2 ^ 18 + o = w ↔
    w / 2 ^ 26 = mj ∧ bits w 25 1 = 0 ∧ bits w 20 5 = r ∧ bits w 18 2 = c ∧ bits w 0 18 = o := by
  unfold bits; omega

theorem jumpWord_eq_iff (o_ : o < 2 ^ 26) : mj * 2 ^ 26 + o = w ↔ w / 2 ^ 26 = mj ∧ bits w 0 26 = o := by
  unfold bits; omega

theorem loopWord_eq_iff (l_ : l < 256 := by simp) (c_ : c < 128 := by simp) : mj * 2 ^ 26 + l * 2 ^ 18 + c * 2 ^ 11 = w ↔
    w / 2 ^ 26 = mj ∧ bits w 0 11 = 0 ∧ bits w 18 8 = l ∧ bits w 11 7 = c := by
  unfold bits; omega

theorem moviWord_eq_iff (i_ : i < 2 ^ 18) (n_ : n < 2 := by simp [Bool.toNat_le]) (d_ : d < 128 := by simp) :
    mj * 2 ^ 26 + n * 2 ^ 25 + d * 2 ^ 18 + i = w ↔ w / 2 ^ 26 = mj ∧ bits w 25 1 = n ∧ bits w 18 7 = d ∧ bits w 0 18 = i := by
  unfold bits; omega

theorem movhWord_eq_iff (v_ : v < 2 ^ 16) (d_ : d < 128 := by simp) (j_ : j < 4 := by simp) :
    mj * 2 ^ 26 + d * 2 ^ 18 + j * 2 ^ 16 + v = w ↔
      w / 2 ^ 26 = mj ∧ bits w 25 1 = 0 ∧ bits w 18 7 = d ∧ bits w 16 2 = j ∧ bits w 0 16 = v := by
  unfold bits; omega

theorem mmaLow_eq_iff (b_ : b < 8) (s_ : s < 32) (z_ : z < 2) (k_ : k < 2) (v_ : v < 2) :
    b * 2 ^ 9 + s * 2 ^ 4 + z * 2 ^ 3 + k * 2 ^ 2 + v * 2 = w % 2 ^ 12 ↔
      bits w 0 1 = 0 ∧ bits w 9 3 = b ∧ bits w 4 5 = s ∧ bits w 3 1 = z ∧ bits w 2 1 = k ∧ bits w 1 1 = v := by
  unfold bits; omega

theorem mmaHigh_eq_iff (a_ : a < 4) (t_ : t < 16) (b_ : b < 32) (s_ : s < 8) :
    mj * 2 ^ 14 + a * 2 ^ 12 + t * 2 ^ 8 + b * 2 ^ 3 + s = w / 2 ^ 12 ↔
      w / 2 ^ 26 = mj ∧ bits w 24 2 = a ∧ bits w 20 4 = t ∧ bits w 15 5 = b ∧ bits w 12 3 = s := by
  unfold bits; omega

theorem mmaWord_eq_iff {f : FX} : 40 * 2 ^ 26 + f.acc.val * 2 ^ 24 + f.tile.val * 2 ^ 20 + f.b.val * 2 ^ 15 + f.slotA.val * 2 ^ 12 +
      f.slotB.val * 2 ^ 9 + f.sf.val * 2 ^ 4 + f.z.toNat * 2 ^ 3 + f.k.toNat * 2 ^ 2 + f.w.toNat * 2 = w ↔
    (w / 2 ^ 26 = 40 ∧ bits w 24 2 = f.acc.val ∧ bits w 20 4 = f.tile.val ∧ bits w 15 5 = f.b.val ∧ bits w 12 3 = f.slotA.val) ∧
      bits w 0 1 = 0 ∧ bits w 9 3 = f.slotB.val ∧ bits w 4 5 = f.sf.val ∧ bits w 3 1 = f.z.toNat ∧ bits w 2 1 = f.k.toNat ∧
      bits w 1 1 = f.w.toNat := by
  rw [← mmaHigh_eq_iff f.acc.isLt f.tile.isLt f.b.isLt f.slotA.isLt,
    ← mmaLow_eq_iff f.slotB.isLt f.sf.isLt f.z.toNat_lt f.k.toNat_lt f.w.toNat_lt]
  have := f.z.toNat_lt
  have := f.k.toNat_lt
  have := f.w.toNat_lt
  omega

/-! The values of MODE (R151). -/

theorem bits_eq_guard {g : Bool} {p : Fin 8} : bits w 0 23 = g.toNat * 8 + p.val ↔ bits w 4 19 = 0 ∧ flag w 3 = g ∧ fld w 0 8 = p := by
  have := g.toNat_lt
  rw [← bits_eq_toNat, ← bits3_eq_fin8]
  unfold bits; omega

theorem bits_eq_two_flags {z a : Bool} : bits w 0 23 = z.toNat * 2 + a.toNat ↔ bits w 2 21 = 0 ∧ flag w 1 = z ∧ flag w 0 = a := by
  have := z.toNat_lt
  have := a.toNat_lt
  rw [← bits_eq_toNat, ← bits_eq_toNat]
  unfold bits; omega

end

end Sys2Proof
end

section
/-! The formats whose operands an instruction takes as one record: each has one rule, which holds for every instruction of the format. -/

namespace Sys2Proof

/-- The instruction is well formed when `ok` says so, and its word has number `n`. -/
def Fits (i : Instr) (ok : Bool) (n : Nat) : Prop := i.wellFormed = ok ∧ encodeNat i = some n

theorem need_ok {c : Bool} {e : DecodeError} {r : Dec} {i : Instr} : need c e r = .ok i ↔ c = true ∧ r = .ok i := by
  cases c <;> simp [need]

/-- What a decoder reads is what is encoded, where the number of the word determines the fields that it reads. -/
theorem reads_iff {φ : Type} {c : φ → Instr} {ok : φ → Bool} {num : φ → Nat} {rd : φ} {P : Prop} {i : Instr} {w : Nat}
    (form : ∀ f, Fits (c f) (ok f) (num f)) (law : ∀ f, num f = w ↔ P ∧ rd = f) :
    (P ∧ ok rd = true ∧ c rd = i) ↔ Encodes w i ∧ ∃ f, c f = i := by
  constructor
  · rintro ⟨frame, good, rfl⟩
    obtain ⟨wf, word⟩ := form rd
    exact ⟨⟨wf.trans good, word.trans (congrArg some ((law rd).2 ⟨frame, rfl⟩))⟩, rd, rfl⟩
  · rintro ⟨⟨good, here⟩, f, rfl⟩
    obtain ⟨wf, word⟩ := form f
    obtain ⟨frame, rfl⟩ := (law f).1 (Option.some.inj (word.symm.trans here))
    exact ⟨frame, wf.symm.trans good, rfl⟩

section
variable {w mj fn : Nat} {i : Instr} (major : w / 2 ^ 26 = mj)
include major

theorem decR3_iff {c : FR3 → Instr} (function : w % 16 = fn)
    (form : ∀ f, Fits (c f) (latchForm f.n f.d) (encR mj fn f.n.toNat f.d.code f.a.code f.b.code)) :
    decR3 w c = .ok i ↔ Encodes w i ∧ ∃ f, c f = i := by
  rw [← reads_iff (P := True) (rd := ⟨flag w 25, opnd w 18, opnd w 11, opnd w 4⟩) form fun ⟨n, d, a, b⟩ => ?_]
  · simp [decR3, need_ok]
  · rw [encR_eq_iff (function ▸ Nat.mod_lt _ (by decide))]
    simp [← major, ← function]

theorem decR2_iff {c : FR2 → Instr} (function : w % 16 = fn)
    (form : ∀ f, Fits (c f) (latchForm f.n f.d) (encR mj fn f.n.toNat f.d.code f.a.code 0)) :
    decR2 w c = .ok i ↔ Encodes w i ∧ ∃ f, c f = i := by
  rw [← reads_iff (P := bits w 4 7 = 0) (rd := ⟨flag w 25, opnd w 18, opnd w 11⟩) form fun ⟨n, d, a⟩ => ?_]
  · simp [decR2, need_ok]
  · rw [encR_eq_iff (function ▸ Nat.mod_lt _ (by decide))]
    simp [← major, ← function, and_assoc, and_comm, and_left_comm]

theorem decRA_iff {c : FRA → Instr} (function : w % 16 = fn)
    (form : ∀ f, Fits (c f) true (encR mj fn 0 f.d.code f.a.code f.b.code)) : decRA w c = .ok i ↔ Encodes w i ∧ ∃ f, c f = i := by
  rw [← reads_iff (P := flag w 25 = false) (rd := ⟨opnd w 18, opnd w 11, opnd w 4⟩) form fun ⟨d, a, b⟩ => ?_]
  · simp [decRA, need_ok]
  · rw [encR_eq_iff (function ▸ Nat.mod_lt _ (by decide))]
    simp [← major, ← function]

theorem decCmp_iff {c : FCmp → Instr} (function : w % 16 = fn)
    (form : ∀ f, Fits (c f) true (encR mj fn 0 f.p.val f.a.code f.b.code)) : decCmp w c = .ok i ↔ Encodes w i ∧ ∃ f, c f = i := by
  rw [← reads_iff (P := flag w 25 = false ∧ bits w 21 4 = 0) (rd := ⟨fld w 18 8, opnd w 11, opnd w 4⟩) form fun ⟨p, a, b⟩ => ?_]
  · simp [decCmp, need_ok, and_assoc]
  · rw [encR_eq_iff (function ▸ Nat.mod_lt _ (by decide))]
    simp [← major, ← function, and_assoc]

theorem decCvt_iff {c : FCvt → Instr} (function : w % 16 = fn)
    (form : ∀ f, Fits (c f) (latchForm f.n f.d && decide (f.e.val ≤ 8)) (encR mj fn f.n.toNat f.d.code f.a.code f.e.val)) :
    decCvt w c = .ok i ↔ Encodes w i ∧ ∃ f, c f = i := by
  rw [← reads_iff (P := bits w 8 3 = 0) (rd := ⟨flag w 25, opnd w 18, opnd w 11, fld w 4 16⟩) form fun ⟨n, d, a, e⟩ => ?_]
  · simp [decCvt, need_ok, and_assoc]
  · rw [encR_eq_iff (function ▸ Nat.mod_lt _ (by decide))]
    simp [← major, ← function, and_assoc, and_comm, and_left_comm]

theorem decSlot_iff {c : FSlot → Instr} (function : w % 16 = fn)
    (form : ∀ f, Fits (c f) (latchForm f.n f.d) (encR mj fn f.n.toNat f.d.code f.a.code f.s.val)) :
    decSlot w c = .ok i ↔ Encodes w i ∧ ∃ f, c f = i := by
  rw [← reads_iff (P := bits w 7 4 = 0) (rd := ⟨flag w 25, opnd w 18, opnd w 11, fld w 4 8⟩) form fun ⟨n, d, a, s⟩ => ?_]
  · simp [decSlot, need_ok]
  · rw [encR_eq_iff (function ▸ Nat.mod_lt _ (by decide))]
    simp [← major, ← function, and_assoc, and_comm, and_left_comm]

theorem decImm_iff {c : FImm → Instr}
    (form : ∀ f, Fits (c f) (latchForm f.n f.d) (encI mj f.n.toNat f.d.code f.a.code f.i.toNat)) :
    decImm w c = .ok i ↔ Encodes w i ∧ ∃ f, c f = i := by
  rw [← reads_iff (P := True) (rd := ⟨flag w 25, opnd w 18, opnd w 11, BitVec.ofNat 11 (bits w 0 11)⟩) form fun ⟨n, d, a, x⟩ => ?_]
  · simp [decImm, need_ok]
  · rw [encI_eq_iff (i_ := x.isLt)]
    simp [← major]

/-- The operation of ISHI stands over its amount (R144). -/
theorem decShi_iff {c : FShi → Instr} {op : Nat} (function : bits w 7 4 = 0 ∧ bits w 5 2 = op)
    (form : ∀ f, Fits (c f) (latchForm f.n f.d) (encI mj f.n.toNat f.d.code f.a.code (32 * op + f.c.val))) :
    decShi w c = .ok i ↔ Encodes w i ∧ ∃ f, c f = i := by
  rw [← reads_iff (P := True) (rd := ⟨flag w 25, opnd w 18, opnd w 11, fld w 0 32⟩) form fun ⟨n, d, a, x⟩ => ?_]
  · simp [decShi, need_ok]
  · have amount : bits w 0 11 = 32 * op + x.val ↔ bits w 0 5 = x.val := by unfold bits at function ⊢; omega
    rw [encI_eq_iff (i_ := by unfold bits at function; omega), amount]
    simp [← major]

theorem fM_eq_iff (f : FM) : encM mj f.x.code f.b.val f.i.code f.z.val f.o.val f.h.val = w ↔ fM w = f := by
  obtain ⟨x, b, i, z, o, h⟩ := f
  rw [encM_eq_iff]
  simp [fM, ← major]

/-- The same without a hint, where those bits hold `h`. -/
theorem fMz_eq_iff {h : Nat} (hint : bits w 0 2 = h) (f : FMz) : encM mj f.x.code f.b.val f.i.code f.z.val f.o.val h = w ↔ fMz w = f := by
  obtain ⟨x, b, i, z, o⟩ := f
  rw [encM_eq_iff (h_ := hint ▸ Nat.mod_lt _ (by decide))]
  simp [fMz, ← major, hint]

theorem decLoad_iff {c : FM → Instr} (form : ∀ f, Fits (c f) (decide (f.z.val ≤ 6) && decide (f.o.val ≠ 2))
      (encM mj f.x.code f.b.val f.i.code f.z.val f.o.val f.h.val)) : decLoad w (c (fM w)) = .ok i ↔ Encodes w i ∧ ∃ f, c f = i := by
  rw [← reads_iff (P := True) (rd := fM w) form fun f => by rw [fM_eq_iff major f, true_and]]
  simp only [decLoad, need_ok, Bool.and_eq_true, and_assoc, true_and, Except.ok.injEq]
  rfl

theorem decStore_iff {c : FM → Instr} (form : ∀ f, Fits (c f) (decide (f.z.val ≤ 4) && decide (f.o.val ≠ 1))
      (encM mj f.x.code f.b.val f.i.code f.z.val f.o.val f.h.val)) : decStore w (c (fM w)) = .ok i ↔ Encodes w i ∧ ∃ f, c f = i := by
  rw [← reads_iff (P := True) (rd := fM w) form fun f => by rw [fM_eq_iff major f, true_and]]
  simp only [decStore, need_ok, Bool.and_eq_true, and_assoc, true_and, Except.ok.injEq]
  rfl

theorem decLoad_noHint_iff {c : FMz → Instr} {h : Nat} (hint : bits w 0 2 = h)
    (form : ∀ f, Fits (c f) (decide (f.z.val ≤ 6) && decide (f.o.val ≠ 2)) (encM mj f.x.code f.b.val f.i.code f.z.val f.o.val h)) :
    decLoad w (c (fMz w)) = .ok i ↔ Encodes w i ∧ ∃ f, c f = i := by
  rw [← reads_iff (P := True) (rd := fMz w) form fun f => by rw [fMz_eq_iff major hint f, true_and]]
  simp only [decLoad, need_ok, Bool.and_eq_true, and_assoc, true_and, Except.ok.injEq]
  rfl

theorem decStore_noHint_iff {c : FMz → Instr} {h : Nat} (hint : bits w 0 2 = h)
    (form : ∀ f, Fits (c f) (decide (f.z.val ≤ 4) && decide (f.o.val ≠ 1)) (encM mj f.x.code f.b.val f.i.code f.z.val f.o.val h)) :
    decStore w (c (fMz w)) = .ok i ↔ Encodes w i ∧ ∃ f, c f = i := by
  rw [← reads_iff (P := True) (rd := fMz w) form fun f => by rw [fMz_eq_iff major hint f, true_and]]
  simp only [decStore, need_ok, Bool.and_eq_true, and_assoc, true_and, Except.ok.injEq]
  rfl

theorem decMA_iff {c : FMA → Instr} (function : bits w 3 4 = fn)
    (form : ∀ f, Fits (c f) true (encMA mj f.x.code f.b.val f.i.code fn f.o.val f.q.toNat)) :
    decMA w c = .ok i ↔ Encodes w i ∧ ∃ f, c f = i := by
  rw [← reads_iff (P := True) (rd := ⟨opnd w 19, fld w 14 32, opnd w 7, fld w 1 4, flag w 0⟩) form fun ⟨x, b, i, o, q⟩ => ?_]
  · simp [decMA]
  · rw [encMA_eq_iff (fn_ := function ▸ Nat.mod_lt _ (by decide))]
    simp [← major, ← function]

theorem decMo_iff {c : FMo → Instr} (function : bits w 3 4 = fn)
    (form : ∀ f, Fits (c f) true (encMA mj f.x.code f.b.val f.i.code fn f.o.val 0)) :
    decMo w c = .ok i ↔ Encodes w i ∧ ∃ f, c f = i := by
  rw [← reads_iff (P := flag w 0 = false) (rd := ⟨opnd w 19, fld w 14 32, opnd w 7, fld w 1 4⟩) form fun ⟨x, b, i, o⟩ => ?_]
  · simp [decMo, need_ok]
  · rw [encMA_eq_iff (fn_ := function ▸ Nat.mod_lt _ (by decide))]
    simp [← major, ← function, and_assoc, and_comm, and_left_comm]

end
end Sys2Proof
end

section
/-! What each group of R154 reads is encoded: the fields that an instruction does not use are zero, and no bit of the word is left unread. -/

namespace Sys2Proof

theorem unused_iff {w lo : Nat} {used : Bool} : (used || bits w lo 5 == 0) = true ↔ fld w lo 32 = cond used (fld w lo 32) 0 := by
  cases used <;> simp [← bits5_eq_fin32]

section
variable {w mj fn : Nat} {i : Instr} (major : w / 2 ^ 26 = mj)
include major

/-- The functions of format F-E: `c` does not depend on the registers that its function does not use. -/
theorem decE_iff {ud ua ub uc : Bool} {c : Fin 32 → Fin 32 → Fin 32 → Fin 32 → Instr} (function : w % 64 = fn)
    (form : ∀ d a b x, Fits (c d a b x) true (encE mj (cond ud d 0).val (cond ua a 0).val (cond ub b 0).val (cond uc x 0).val fn))
    (same : ∀ d a b x, c (cond ud d 0) (cond ua a 0) (cond ub b 0) (cond uc x 0) = c d a b x) :
    decE w ud ua ub uc c = .ok i ↔ Encodes w i ∧ ∃ d a b x, c d a b x = i := by
  have law : ∀ d a b x, encE mj (cond ud d 0).val (cond ua a 0).val (cond ub b 0).val (cond uc x 0).val fn = w ↔
      fld w 21 32 = cond ud d 0 ∧ fld w 16 32 = cond ua a 0 ∧ fld w 11 32 = cond ub b 0 ∧ fld w 6 32 = cond uc x 0 := by
    intro d a b x
    rw [encE_eq_iff (fn_ := function ▸ Nat.mod_lt _ (by decide))]
    simp [← major, ← function]
  simp only [decE, need_ok, Bool.and_eq_true, unused_iff, Except.ok.injEq]
  constructor
  · rintro ⟨⟨⟨⟨d, a⟩, b⟩, x⟩, rfl⟩
    obtain ⟨wf, word⟩ := form (fld w 21 32) (fld w 16 32) (fld w 11 32) (fld w 6 32)
    exact ⟨⟨wf, word.trans (congrArg some ((law ..).2 ⟨d, a, b, x⟩))⟩, _, _, _, _, rfl⟩
  · rintro ⟨⟨-, here⟩, d, a, b, x, rfl⟩
    obtain ⟨-, word⟩ := form d a b x
    obtain ⟨d', a', b', x'⟩ := (law ..).1 (Option.some.inj (word.symm.trans here))
    rw [d', a', b', x', same]
    cases ud <;> cases ua <;> cases ub <;> cases uc <;> simp

theorem decE_encodes {ud ua ub uc : Bool} {c : Fin 32 → Fin 32 → Fin 32 → Fin 32 → Instr} (function : w % 64 = fn)
    (form : ∀ d a b x, Fits (c d a b x) true (encE mj (cond ud d 0).val (cond ua a 0).val (cond ub b 0).val (cond uc x 0).val fn))
    (same : ∀ d a b x, c (cond ud d 0) (cond ua a 0) (cond ub b 0) (cond uc x 0) = c d a b x)
    (h : decE w ud ua ub uc c = .ok i) : Encodes w i := ((decE_iff major function form same).1 h).1
end

theorem decU_ok {w : Nat} {ud ua ub : Bool} {i j : Instr} : decU w ud ua ub i = .ok j ↔
    (flag w 25 = false ∧ (ud = true ∨ bits w 18 7 = 0) ∧ (ua = true ∨ bits w 11 7 = 0) ∧ (ub = true ∨ bits w 4 7 = 0)) ∧ i = j := by
  simp [decU, need_ok, and_assoc]

theorem decT_ok {w : Nat} {ud uj urc ux un : Bool} {i j : Instr} : decT w ud uj urc ux un i = .ok j ↔
    (flag w 25 = false ∧ (ud = true ∨ bits w 18 7 = 0) ∧ (uj = true ∨ bits w 16 2 = 0) ∧ (urc = true ∨ flag w 13 = false) ∧
      (ux = true ∨ bits w 8 5 = 0) ∧ (un = true ∨ bits w 4 4 = 0)) ∧ i = j := by
  simp [decT, need_ok, and_assoc]

section
variable {w : Nat} {i : Instr}

theorem decSys_encodes (major : w / 2 ^ 26 = 0) (h : decSys w = .ok i) : Encodes w i := by
  unfold decSys at h
  split at h
  case h_12 => contradiction
  all_goals
    obtain ⟨fields, rfl⟩ := decU_ok.1 h
    exact ⟨rfl, congrArg some (Iff.mpr encR_eq_iff ⟨major, ‹_›, by simpa using fields⟩)⟩

theorem decMode_encodes (major : w / 2 ^ 26 = 1) (h : decMode w = .ok i) : Encodes w i := by
  unfold decMode at h
  split at h
  all_goals
    obtain ⟨unused, h⟩ := need_ok.1 h
    obtain rfl := Except.ok.inj h
    have unused := eq_of_beq unused
  case h_1 =>
    have := (flag w 3).toNat_lt
    exact ⟨rfl, congrArg some (Iff.mpr (modeWord_eq_iff (by omega)) ⟨major, ‹_›, bits_eq_guard.2 ⟨unused, rfl, rfl⟩⟩)⟩
  case h_4 =>
    have := (flag w 1).toNat_lt
    have := (flag w 0).toNat_lt
    exact ⟨rfl, congrArg some (Iff.mpr (modeWord_eq_iff (by omega)) ⟨major, ‹_›, bits_eq_two_flags.2 ⟨unused, rfl, rfl⟩⟩)⟩
  case h_2 | h_6 =>
    exact ⟨rfl, congrArg some (Iff.mpr (modeWord_eq_iff (by omega)) ⟨major, ‹_›, (bits_eq_fin_low (n := 4) 19 rfl).2 ⟨unused, rfl⟩⟩)⟩
  case h_3 | h_5 =>
    exact ⟨rfl, congrArg some (Iff.mpr (modeWord_eq_iff (by omega)) ⟨major, ‹_›, (bits_eq_fin_low (n := 3) 20 rfl).2 ⟨unused, rfl⟩⟩)⟩
  case h_7 =>
    exact ⟨rfl, congrArg some (Iff.mpr (modeWord_eq_iff (by omega)) ⟨major, ‹_›, (bits_eq_fin_low (n := 2) 21 rfl).2 ⟨unused, rfl⟩⟩)⟩
  case h_8 =>
    have last : bits w 23 3 = 7 := by
      simp only [imp_false, bits] at *
      omega
    exact ⟨rfl, congrArg some (Iff.mpr (modeWord_eq_iff (by omega)) ⟨major, last, (bits_eq_fin_low (n := 5) 18 rfl).2 ⟨unused, rfl⟩⟩)⟩

theorem decCtl_encodes (major : w / 2 ^ 26 = 7) (h : decCtl w = .ok i) : Encodes w i := by
  unfold decCtl at h
  split at h
  case h_7 => contradiction
  all_goals
    obtain ⟨fields, rfl⟩ := decU_ok.1 h
    exact ⟨rfl, congrArg some (Iff.mpr encR_eq_iff ⟨major, ‹_›, by simpa using fields⟩)⟩

theorem decIalu_encodes (major : w / 2 ^ 26 = 8) (h : decIalu w = .ok i) : Encodes w i := by
  unfold decIalu at h
  split at h
  case h_15 => contradiction
  case h_5 | h_12 | h_13 => exact ((decRA_iff major ‹_› fun _ => ⟨rfl, rfl⟩).1 h).1
  case h_10 | h_11 => exact ((decR2_iff major ‹_› fun _ => ⟨rfl, rfl⟩).1 h).1
  all_goals exact ((decR3_iff major ‹_› fun _ => ⟨rfl, rfl⟩).1 h).1

theorem decIlog_encodes (major : w / 2 ^ 26 = 9) (h : decIlog w = .ok i) : Encodes w i := by
  unfold decIlog at h
  split at h
  case h_16 => contradiction
  case h_14 | h_15 => exact ((decRA_iff major ‹_› fun _ => ⟨rfl, rfl⟩).1 h).1
  case h_5 | h_10 | h_11 | h_12 => exact ((decR2_iff major ‹_› fun _ => ⟨rfl, rfl⟩).1 h).1
  all_goals exact ((decR3_iff major ‹_› fun _ => ⟨rfl, rfl⟩).1 h).1

theorem decIcmp_encodes (major : w / 2 ^ 26 = 10) (h : decIcmp w = .ok i) : Encodes w i := by
  unfold decIcmp at h
  split at h
  case h_8 => contradiction
  all_goals exact ((decCmp_iff major ‹_› fun _ => ⟨rfl, rfl⟩).1 h).1

theorem decFalu_encodes (major : w / 2 ^ 26 = 11) (h : decFalu w = .ok i) : Encodes w i := by
  unfold decFalu at h
  split at h
  case h_4 | h_5 => exact ((decRA_iff major ‹_› fun _ => ⟨rfl, rfl⟩).1 h).1
  case h_8 | h_9 | h_10 | h_11 | h_12 | h_14 | h_15 => exact ((decR2_iff major ‹_› fun _ => ⟨rfl, rfl⟩).1 h).1
  case h_16 =>
    have last : w % 16 = 15 := by
      simp only [imp_false] at *
      omega
    exact ((decR3_iff major last fun _ => ⟨rfl, rfl⟩).1 h).1
  all_goals exact ((decR3_iff major ‹_› fun _ => ⟨rfl, rfl⟩).1 h).1

theorem decFcmp_encodes (major : w / 2 ^ 26 = 12) (h : decFcmp w = .ok i) : Encodes w i := by
  unfold decFcmp at h
  split at h
  case h_8 => contradiction
  all_goals exact ((decCmp_iff major ‹_› fun _ => ⟨rfl, rfl⟩).1 h).1

theorem decCvtGroup_encodes (major : w / 2 ^ 26 = 13) (h : decCvtGroup w = .ok i) : Encodes w i := by
  unfold decCvtGroup at h
  split at h
  case h_7 => contradiction
  case h_1 | h_4 | h_5 => exact ((decCvt_iff major ‹_› fun _ => ⟨rfl, rfl⟩).1 h).1
  all_goals exact ((decSlot_iff major ‹_› fun _ => ⟨rfl, rfl⟩).1 h).1

theorem decXlane_encodes (major : w / 2 ^ 26 = 14) (h : decXlane w = .ok i) : Encodes w i := by
  unfold decXlane at h
  split at h
  case h_14 => contradiction
  case h_1 | h_6 | h_7 | h_8 | h_9 => exact ((decR2_iff major ‹_› fun _ => ⟨rfl, rfl⟩).1 h).1
  case h_2 | h_3 | h_4 | h_5 => exact ((decR3_iff major ‹_› fun _ => ⟨rfl, rfl⟩).1 h).1
  case h_13 =>
    obtain ⟨fields, rfl⟩ := decU_ok.1 h
    exact ⟨rfl, congrArg some (Iff.mpr encR_eq_iff ⟨major, ‹_›, by simpa using fields⟩)⟩
  all_goals
    simp only [need_ok, Except.ok.injEq] at h
    obtain ⟨latch, unused, rfl⟩ := h
    exact ⟨rfl, congrArg some (Iff.mpr encR_eq_iff ⟨major, ‹_›, by simpa using And.intro latch unused⟩)⟩

theorem decPred_encodes (major : w / 2 ^ 26 = 15) (h : decPred w = .ok i) : Encodes w i := by
  unfold decPred at h
  split at h
  case isTrue sel =>
    have function : w % 16 = 8 + (fld w 0 8).val := by
      rw [← bits3_eq_fin8.2 rfl]
      have := bits_eq_toNat.2 sel
      unfold bits at *
      simp only [Bool.toNat_true] at this
      omega
    exact ((decR3_iff major function fun _ => ⟨rfl, rfl⟩).1 h).1
  case isFalse low =>
    have below : w % 16 = w % 8 := by
      have := bits_eq_zero.2 (Bool.eq_false_iff.2 low)
      unfold bits at this
      omega
    rw [← below] at h
    split at h
    case h_7 => contradiction
    all_goals
      simp only [need_ok, Except.ok.injEq] at h
      obtain ⟨latch, unused, rfl⟩ := h
      exact ⟨rfl, congrArg some (Iff.mpr encR_eq_iff ⟨major, ‹_›, by simpa [and_assoc] using And.intro latch unused⟩)⟩

theorem decUalu_encodes (major : w / 2 ^ 26 = 19) (h : decUalu w = .ok i) : Encodes w i := by
  unfold decUalu at h
  split at h
  case h_16 => contradiction
  all_goals exact decE_encodes major ‹_› (fun _ _ _ _ => ⟨rfl, rfl⟩) (fun _ _ _ _ => rfl) h

theorem decIshi_encodes (major : w / 2 ^ 26 = 21) (h : decIshi w = .ok i) : Encodes w i := by
  obtain ⟨unused, h⟩ := need_ok.1 h
  have unused : bits w 7 4 = 0 := by simpa using unused
  split at h
  case h_1 op => exact ((decShi_iff major ⟨unused, op⟩ fun _ => ⟨rfl, rfl⟩).1 h).1
  case h_2 op => exact ((decShi_iff major ⟨unused, op⟩ fun _ => ⟨rfl, rfl⟩).1 h).1
  case h_3 op => exact ((decShi_iff major ⟨unused, op⟩ fun _ => ⟨rfl, rfl⟩).1 h).1
  case h_4 =>
    have last : bits w 5 2 = 3 := by
      simp only [imp_false, bits] at *
      omega
    exact ((decShi_iff major ⟨unused, last⟩ fun _ => ⟨rfl, rfl⟩).1 h).1

theorem decAtom_encodes (major : w / 2 ^ 26 = 27) (h : decAtom w = .ok i) : Encodes w i := by
  unfold decAtom at h
  split at h
  case h_16 => contradiction
  all_goals exact ((decMA_iff major ‹_› fun _ => ⟨rfl, rfl⟩).1 h).1

theorem decAtomw_encodes (major : w / 2 ^ 26 = 28) (h : decAtomw w = .ok i) : Encodes w i := by
  unfold decAtomw at h
  split at h
  case h_9 => contradiction
  all_goals exact ((decMA_iff major ‹_› fun _ => ⟨rfl, rfl⟩).1 h).1

theorem decAtoma_encodes (major : w / 2 ^ 26 = 31) (h : decAtoma w = .ok i) : Encodes w i := by
  unfold decAtoma at h
  split at h
  case h_12 => contradiction
  all_goals exact ((decMo_iff major ‹_› fun _ => ⟨rfl, rfl⟩).1 h).1

theorem decMhint_encodes (major : w / 2 ^ 26 = 35) (h : decMhint w = .ok i) : Encodes w i := by
  obtain ⟨unused, h⟩ := need_ok.1 h
  have low : bits w 2 2 = 0 ∧ bits w 0 2 = 0 := by
    simp only [bits, beq_iff_eq] at unused ⊢
    omega
  split at h
  case h_4 => contradiction
  case h_2 =>
    obtain rfl := Except.ok.inj h
    exact ⟨rfl, congrArg some (Iff.mpr encM_eq_iff ⟨major, by simp, by simp, by simp, ‹_›, low⟩)⟩
  all_goals
    obtain ⟨data, h⟩ := need_ok.1 h
    obtain rfl := Except.ok.inj h
    exact ⟨rfl, congrArg some (Iff.mpr encM_eq_iff ⟨major, eq_of_beq data, by simp, by simp, ‹_›, low⟩)⟩

theorem decFence_encodes (major : w / 2 ^ 26 = 36) (h : decFence w = .ok i) : Encodes w i := by
  simp only [decFence, need_ok] at h
  obtain ⟨latch, unused, h⟩ := h
  have fields : flag w 25 = false ∧ bits w 21 4 = 0 ∧ bits w 11 7 = 0 ∧ bits w 4 7 = 0 := by
    refine ⟨by simpa using latch, ?_⟩
    simp [bits] at unused ⊢
    omega
  split at h
  case h_6 => contradiction
  all_goals
    obtain ⟨scope, h⟩ := need_ok.1 h
    obtain rfl := Except.ok.inj h
    exact ⟨scope, congrArg some (Iff.mpr encR_eq_iff ⟨major, ‹_›, by simpa using fields⟩)⟩

/-- PUTA's hint field holds whether it is PUTA.ONCE (R147). -/
theorem once_hint {h : Bool} : bits w 0 2 = h.toNat ↔ flag w 1 = false ∧ flag w 0 = h := by
  have := h.toNat_lt
  rw [← bits_eq_zero, ← bits_eq_toNat]
  unfold bits; omega

theorem decWeir_encodes (major : w / 2 ^ 26 = 37) (h : decWeir w = .ok i) : Encodes w i := by
  unfold decWeir at h
  split at h
  case h_8 => contradiction
  all_goals exact decE_encodes major ‹_› (fun _ _ _ _ => ⟨rfl, rfl⟩) (fun _ _ _ _ => rfl) h

theorem decFut_encodes (major : w / 2 ^ 26 = 38) (h : decFut w = .ok i) : Encodes w i := by
  unfold decFut at h
  split at h
  case h_7 => contradiction
  all_goals exact decE_encodes major ‹_› (fun _ _ _ _ => ⟨rfl, rfl⟩) (fun _ _ _ _ => rfl) h

theorem decCpy_encodes (major : w / 2 ^ 26 = 39) (h : decCpy w = .ok i) : Encodes w i := by
  unfold decCpy at h
  split at h
  case h_7 => contradiction
  all_goals exact decE_encodes major ‹_› (fun _ _ _ _ => ⟨rfl, rfl⟩) (fun _ _ _ _ => rfl) h

theorem decMma_encodes (major : w / 2 ^ 26 = 40) (h : decMma w = .ok i) : Encodes w i := by
  obtain ⟨low, h⟩ := need_ok.1 h
  obtain rfl := Except.ok.inj h
  exact ⟨rfl, congrArg some (mmaWord_eq_iff.2 ⟨⟨major, by simp⟩, by simpa using low⟩)⟩

theorem decAcc_encodes (major : w / 2 ^ 26 = 41) (h : decAcc w = .ok i) : Encodes w i := by
  unfold decAcc at h
  split at h
  case h_10 => contradiction
  all_goals
    obtain ⟨fields, rfl⟩ := decT_ok.1 h
    exact ⟨rfl, congrArg some (Iff.mpr encT_eq_iff ⟨major, ‹_›, by simpa using fields⟩)⟩

theorem decTile_encodes (major : w / 2 ^ 26 = 42) (h : decTile w = .ok i) : Encodes w i := by
  unfold decTile at h
  split at h
  case h_7 => contradiction
  all_goals
    obtain ⟨fields, rfl⟩ := decT_ok.1 h
    exact ⟨rfl, congrArg some (Iff.mpr encT_eq_iff ⟨major, ‹_›, by simpa using fields⟩)⟩

theorem decColl_encodes (major : w / 2 ^ 26 = 43) (h : decColl w = .ok i) : Encodes w i := by
  unfold decColl at h
  split at h
  case h_3 => contradiction
  all_goals exact decE_encodes major ‹_› (fun _ _ _ _ => ⟨rfl, rfl⟩) (fun _ _ _ _ => rfl) h

theorem decLnch_encodes (major : w / 2 ^ 26 = 44) (h : decLnch w = .ok i) : Encodes w i := by
  unfold decLnch at h
  split at h
  case h_3 => contradiction
  all_goals exact decE_encodes major ‹_› (fun _ _ _ _ => ⟨rfl, rfl⟩) (fun _ _ _ _ => rfl) h

theorem decPsys_encodes (major : w / 2 ^ 26 = 48) (h : decPsys w = .ok i) : Encodes w i := by
  unfold decPsys at h
  split at h
  case h_9 => contradiction
  case h_4 =>
    obtain ⟨small, h⟩ := need_ok.1 h
    obtain ⟨fields, rfl⟩ := decU_ok.1 h
    exact ⟨small, congrArg some (Iff.mpr encR_eq_iff ⟨major, ‹_›, by simpa using fields⟩)⟩
  all_goals
    obtain ⟨fields, rfl⟩ := decU_ok.1 h
    exact ⟨rfl, congrArg some (Iff.mpr encR_eq_iff ⟨major, ‹_›, by simpa using fields⟩)⟩

/-- No bit of a word that decodes is left unread. -/
theorem encodes_of_decodeNat (h : decodeNat w = .ok i) : Encodes w i := by
  unfold decodeNat at h
  split at h
  case h_1 major => exact decSys_encodes major h
  case h_2 major => exact decMode_encodes major h
  case h_3 major =>
    split at h
    case isTrue sense =>
      obtain rfl := Except.ok.inj h
      exact ⟨rfl, congrArg some (Iff.mpr (branchWord_eq_iff (BitVec.isLt _)) ⟨major, bits_eq_toNat.2 sense, by simp, by simp,
        bits_eq_bitVec.2 rfl⟩)⟩
    case isFalse sense =>
      obtain rfl := Except.ok.inj h
      exact ⟨rfl, congrArg some (Iff.mpr (branchWord_eq_iff (BitVec.isLt _)) ⟨major, bits_eq_zero.2 (Bool.eq_false_iff.2 sense), by simp, by simp,
        bits_eq_bitVec.2 rfl⟩)⟩
  case h_4 major =>
    obtain ⟨unused, h⟩ := need_ok.1 h
    obtain rfl := Except.ok.inj h
    exact ⟨rfl, congrArg some (Iff.mpr (bruWord_eq_iff (BitVec.isLt _)) ⟨major, by simpa using unused, by simp, by simp,
      bits_eq_bitVec.2 rfl⟩)⟩
  case h_5 major | h_6 major =>
    obtain rfl := Except.ok.inj h
    exact ⟨rfl, congrArg some ((jumpWord_eq_iff (BitVec.isLt _)).2 ⟨major, bits_eq_bitVec.2 rfl⟩)⟩
  case h_7 major =>
    obtain ⟨unused, h⟩ := need_ok.1 h
    obtain ⟨length, h⟩ := need_ok.1 h
    obtain rfl := Except.ok.inj h
    exact ⟨length, congrArg some (Iff.mpr loopWord_eq_iff ⟨major, by simpa using unused⟩)⟩
  case h_8 major => exact decCtl_encodes major h
  case h_9 major => exact decIalu_encodes major h
  case h_10 major => exact decIlog_encodes major h
  case h_11 major => exact decIcmp_encodes major h
  case h_12 major => exact decFalu_encodes major h
  case h_13 major => exact decFcmp_encodes major h
  case h_14 major => exact decCvtGroup_encodes major h
  case h_15 major => exact decXlane_encodes major h
  case h_16 major => exact decPred_encodes major h
  case h_17 major => exact ((decImm_iff major fun _ => ⟨rfl, rfl⟩).1 h).1
  case h_18 major =>
    obtain ⟨latch, h⟩ := need_ok.1 h
    obtain rfl := Except.ok.inj h
    exact ⟨latch, congrArg some (Iff.mpr (moviWord_eq_iff (BitVec.isLt _)) ⟨major, by simp, by simp, bits_eq_bitVec.2 rfl⟩)⟩
  case h_19 major =>
    obtain ⟨latch, h⟩ := need_ok.1 h
    obtain ⟨half, h⟩ := need_ok.1 h
    obtain rfl := Except.ok.inj h
    exact ⟨half, congrArg some (Iff.mpr (movhWord_eq_iff (BitVec.isLt _)) ⟨major, by simpa using latch, by simp, by simp,
      bits_eq_bitVec.2 rfl⟩)⟩
  case h_20 major => exact decUalu_encodes major h
  case h_21 major =>
    obtain ⟨latch, h⟩ := need_ok.1 h
    obtain rfl := Except.ok.inj h
    exact ⟨rfl, congrArg some (Iff.mpr (encI_eq_iff (i_ := BitVec.isLt _)) ⟨major, by simpa using latch, by simp, by simp,
      bits_eq_bitVec.2 rfl⟩)⟩
  case h_22 major => exact decIshi_encodes major h
  case h_23 major => exact ((decImm_iff major fun _ => ⟨rfl, rfl⟩).1 h).1
  case h_24 major => exact ((decLoad_iff major fun _ => ⟨rfl, rfl⟩).1 h).1
  case h_25 major | h_26 major => exact ((decStore_iff major fun _ => ⟨rfl, rfl⟩).1 h).1
  case h_27 major => exact decAtom_encodes major h
  case h_28 major => exact decAtomw_encodes major h
  case h_29 major =>
    obtain ⟨hint, h⟩ := need_ok.1 h
    exact ((decLoad_noHint_iff major (eq_of_beq hint) fun _ => ⟨rfl, rfl⟩).1 h).1
  case h_30 major | h_32 major | h_34 major =>
    obtain ⟨hint, h⟩ := need_ok.1 h
    exact ((decStore_noHint_iff major (eq_of_beq hint) fun _ => ⟨rfl, rfl⟩).1 h).1
  case h_31 major => exact decAtoma_encodes major h
  case h_33 major =>
    obtain ⟨unused, h⟩ := need_ok.1 h
    have hint := once_hint.2 ⟨by simpa using unused, rfl⟩
    exact ((decStore_noHint_iff (c := fun f => .puta f (flag w 0)) major hint fun _ => ⟨rfl, rfl⟩).1 h).1
  case h_35 major => exact decMhint_encodes major h
  case h_36 major => exact decFence_encodes major h
  case h_37 major => exact decWeir_encodes major h
  case h_38 major => exact decFut_encodes major h
  case h_39 major => exact decCpy_encodes major h
  case h_40 major => exact decMma_encodes major h
  case h_41 major => exact decAcc_encodes major h
  case h_42 major => exact decTile_encodes major h
  case h_43 major => exact decColl_encodes major h
  case h_44 major => exact decLnch_encodes major h
  case h_45 major => exact decPsys_encodes major h
  case h_46 => contradiction

end
end Sys2Proof
end

section
/-! The word of a well-formed instruction decodes to it: its number gives the major opcode and the function, and the arm that they select reads
each operand back. -/

namespace Sys2Proof

section
variable {w : Nat} {i : Instr}

/-! The group that a major opcode selects (R153). -/

theorem decodeNat_sys (major : w / 2 ^ 26 = 0) : decodeNat w = decSys w := by rw [decodeNat, major]; rfl
theorem decodeNat_mode (major : w / 2 ^ 26 = 1) : decodeNat w = decMode w := by rw [decodeNat, major]; rfl
theorem decodeNat_ctl (major : w / 2 ^ 26 = 7) : decodeNat w = decCtl w := by rw [decodeNat, major]; rfl
theorem decodeNat_ialu (major : w / 2 ^ 26 = 8) : decodeNat w = decIalu w := by rw [decodeNat, major]; rfl
theorem decodeNat_ilog (major : w / 2 ^ 26 = 9) : decodeNat w = decIlog w := by rw [decodeNat, major]; rfl
theorem decodeNat_icmp (major : w / 2 ^ 26 = 10) : decodeNat w = decIcmp w := by rw [decodeNat, major]; rfl
theorem decodeNat_falu (major : w / 2 ^ 26 = 11) : decodeNat w = decFalu w := by rw [decodeNat, major]; rfl
theorem decodeNat_fcmp (major : w / 2 ^ 26 = 12) : decodeNat w = decFcmp w := by rw [decodeNat, major]; rfl
theorem decodeNat_cvtGroup (major : w / 2 ^ 26 = 13) : decodeNat w = decCvtGroup w := by rw [decodeNat, major]; rfl
theorem decodeNat_xlane (major : w / 2 ^ 26 = 14) : decodeNat w = decXlane w := by rw [decodeNat, major]; rfl
theorem decodeNat_pred (major : w / 2 ^ 26 = 15) : decodeNat w = decPred w := by rw [decodeNat, major]; rfl
theorem decodeNat_ualu (major : w / 2 ^ 26 = 19) : decodeNat w = decUalu w := by rw [decodeNat, major]; rfl
theorem decodeNat_ishi (major : w / 2 ^ 26 = 21) : decodeNat w = decIshi w := by rw [decodeNat, major]; rfl
theorem decodeNat_atom (major : w / 2 ^ 26 = 27) : decodeNat w = decAtom w := by rw [decodeNat, major]; rfl
theorem decodeNat_atomw (major : w / 2 ^ 26 = 28) : decodeNat w = decAtomw w := by rw [decodeNat, major]; rfl
theorem decodeNat_atoma (major : w / 2 ^ 26 = 31) : decodeNat w = decAtoma w := by rw [decodeNat, major]; rfl
theorem decodeNat_mhint (major : w / 2 ^ 26 = 35) : decodeNat w = decMhint w := by rw [decodeNat, major]; rfl
theorem decodeNat_fence (major : w / 2 ^ 26 = 36) : decodeNat w = decFence w := by rw [decodeNat, major]; rfl
theorem decodeNat_weir (major : w / 2 ^ 26 = 37) : decodeNat w = decWeir w := by rw [decodeNat, major]; rfl
theorem decodeNat_fut (major : w / 2 ^ 26 = 38) : decodeNat w = decFut w := by rw [decodeNat, major]; rfl
theorem decodeNat_cpy (major : w / 2 ^ 26 = 39) : decodeNat w = decCpy w := by rw [decodeNat, major]; rfl
theorem decodeNat_mma (major : w / 2 ^ 26 = 40) : decodeNat w = decMma w := by rw [decodeNat, major]; rfl
theorem decodeNat_acc (major : w / 2 ^ 26 = 41) : decodeNat w = decAcc w := by rw [decodeNat, major]; rfl
theorem decodeNat_tile (major : w / 2 ^ 26 = 42) : decodeNat w = decTile w := by rw [decodeNat, major]; rfl
theorem decodeNat_coll (major : w / 2 ^ 26 = 43) : decodeNat w = decColl w := by rw [decodeNat, major]; rfl
theorem decodeNat_lnch (major : w / 2 ^ 26 = 44) : decodeNat w = decLnch w := by rw [decodeNat, major]; rfl
theorem decodeNat_psys (major : w / 2 ^ 26 = 48) : decodeNat w = decPsys w := by rw [decodeNat, major]; rfl

theorem decodeNat_of_encodes (h : Encodes w i) : decodeNat w = .ok i := by
  cases i
  case add f | sub f | mul f | mulhi f | div f | rem f | min f | max f | avg f =>
    obtain ⟨major, function, -⟩ := Iff.mp encR_eq_iff (Option.some.inj h.2)
    rw [decodeNat_ialu major, decIalu, function]
    exact (decR3_iff major function fun _ => ⟨rfl, rfl⟩).2 ⟨h, f, rfl⟩
  case mad f | dot4 f | dot2 f =>
    obtain ⟨major, function, -⟩ := Iff.mp encR_eq_iff (Option.some.inj h.2)
    rw [decodeNat_ialu major, decIalu, function]
    exact (decRA_iff major function fun _ => ⟨rfl, rfl⟩).2 ⟨h, f, rfl⟩
  case abs f | neg f =>
    obtain ⟨major, function, -⟩ := Iff.mp encR_eq_iff (Option.some.inj h.2)
    rw [decodeNat_ialu major, decIalu, function]
    exact (decR2_iff major function fun _ => ⟨rfl, rfl⟩).2 ⟨h, f, rfl⟩
  case and f | or f | xor f | andn f | shl f | shr f | sar f | rol f | bfx f =>
    obtain ⟨major, function, -⟩ := Iff.mp encR_eq_iff (Option.some.inj h.2)
    rw [decodeNat_ilog major, decIlog, function]
    exact (decR3_iff major function fun _ => ⟨rfl, rfl⟩).2 ⟨h, f, rfl⟩
  case bfi f | crc f =>
    obtain ⟨major, function, -⟩ := Iff.mp encR_eq_iff (Option.some.inj h.2)
    rw [decodeNat_ilog major, decIlog, function]
    exact (decRA_iff major function fun _ => ⟨rfl, rfl⟩).2 ⟨h, f, rfl⟩
  case not f | popc f | clz f | brev f =>
    obtain ⟨major, function, -⟩ := Iff.mp encR_eq_iff (Option.some.inj h.2)
    rw [decodeNat_ilog major, decIlog, function]
    exact (decR2_iff major function fun _ => ⟨rfl, rfl⟩).2 ⟨h, f, rfl⟩
  case icmpEq f | icmpNe f | icmpLt f | icmpLe f | icmpGt f | icmpGe f | icmpTst f =>
    obtain ⟨major, function, -⟩ := Iff.mp encR_eq_iff (Option.some.inj h.2)
    rw [decodeNat_icmp major, decIcmp, function]
    exact (decCmp_iff major function fun _ => ⟨rfl, rfl⟩).2 ⟨h, f, rfl⟩
  case fadd f | fsub f | fmul f | fmin f | fmax f | fdiv f | fscl f =>
    obtain ⟨major, function, -⟩ := Iff.mp encR_eq_iff (Option.some.inj h.2)
    rw [decodeNat_falu major, decFalu, function]
    exact (decR3_iff major function fun _ => ⟨rfl, rfl⟩).2 ⟨h, f, rfl⟩
  case fma f | fms f =>
    obtain ⟨major, function, -⟩ := Iff.mp encR_eq_iff (Option.some.inj h.2)
    rw [decodeNat_falu major, decFalu, function]
    exact (decRA_iff major function fun _ => ⟨rfl, rfl⟩).2 ⟨h, f, rfl⟩
  case fabs f | fneg f | frcp f | frsq f | fsqrt f | fex2 f | flg2 f =>
    obtain ⟨major, function, -⟩ := Iff.mp encR_eq_iff (Option.some.inj h.2)
    rw [decodeNat_falu major, decFalu, function]
    exact (decR2_iff major function fun _ => ⟨rfl, rfl⟩).2 ⟨h, f, rfl⟩
  case fcmpEq f | fcmpNe f | fcmpLt f | fcmpLe f | fcmpGt f | fcmpGe f | fcmpUn f =>
    obtain ⟨major, function, -⟩ := Iff.mp encR_eq_iff (Option.some.inj h.2)
    rw [decodeNat_fcmp major, decFcmp, function]
    exact (decCmp_iff major function fun _ => ⟨rfl, rfl⟩).2 ⟨h, f, rfl⟩
  case cvt f | pack f | unpk f =>
    obtain ⟨major, function, -⟩ := Iff.mp encR_eq_iff (Option.some.inj h.2)
    rw [decodeNat_cvtGroup major, decCvtGroup, function]
    exact (decCvt_iff major function fun _ => ⟨rfl, rfl⟩).2 ⟨h, f, rfl⟩
  case qnt f | dqnt f | nest f =>
    obtain ⟨major, function, -⟩ := Iff.mp encR_eq_iff (Option.some.inj h.2)
    rw [decodeNat_cvtGroup major, decCvtGroup, function]
    exact (decSlot_iff major function fun _ => ⟨rfl, rfl⟩).2 ⟨h, f, rfl⟩
  case shfi f | shup f | shdn f | shxr f =>
    obtain ⟨major, function, -⟩ := Iff.mp encR_eq_iff (Option.some.inj h.2)
    rw [decodeNat_xlane major, decXlane, function]
    exact (decR3_iff major function fun _ => ⟨rfl, rfl⟩).2 ⟨h, f, rfl⟩
  case mov f | rds f | rdmin f | rdmax f | scan f =>
    obtain ⟨major, function, -⟩ := Iff.mp encR_eq_iff (Option.some.inj h.2)
    rw [decodeNat_xlane major, decXlane, function]
    exact (decR2_iff major function fun _ => ⟨rfl, rfl⟩).2 ⟨h, f, rfl⟩
  case atomAdd f | atomMin f | atomMax f | atomMinu f | atomMaxu f | atomAnd f | atomOr f | atomXor f | atomXchg f | atomCas f | atomIncb f
      | atomFadd f | atomFaddbf f | atomFmax f | atomDecz f =>
    obtain ⟨major, function, -⟩ := Iff.mp encMA_eq_iff (Option.some.inj h.2)
    rw [decodeNat_atom major, decAtom, function]
    exact (decMA_iff major function fun _ => ⟨rfl, rfl⟩).2 ⟨h, f, rfl⟩
  case atomwAdd f | atomwMin f | atomwMax f | atomwXchg f | atomwCas f | atomwCas128 f | atomwMaxp f | atomwIncb f =>
    obtain ⟨major, function, -⟩ := Iff.mp encMA_eq_iff (Option.some.inj h.2)
    rw [decodeNat_atomw major, decAtomw, function]
    exact (decMA_iff major function fun _ => ⟨rfl, rfl⟩).2 ⟨h, f, rfl⟩
  case atomaAdd f | atomaMin f | atomaMax f | atomaAnd f | atomaOr f | atomaXor f | atomaXchg f | atomaCas f | atomaIncb f | atomaFadd f
      | atomaMaxp f =>
    obtain ⟨major, function, -⟩ := Iff.mp encMA_eq_iff (Option.some.inj h.2)
    rw [decodeNat_atoma major, decAtoma, function]
    exact (decMo_iff major function fun _ => ⟨rfl, rfl⟩).2 ⟨h, f, rfl⟩
  case uadd d a b | usub d a b | umul d a b | umulhi d a b | uand d a b | uor d a b | uxor d a b | ushl d a b | ushr d a b | usar d a b
      | umin d a b | umax d a b | ucmplt d a b | ucmpeq d a b | ucmpltn d a b =>
    obtain ⟨major, function, -⟩ := Iff.mp encE_eq_iff (Option.some.inj h.2)
    rw [decodeNat_ualu major, decUalu, function]
    exact (decE_iff major function (fun _ _ _ _ => ⟨rfl, rfl⟩) fun _ _ _ _ => rfl).2 ⟨h, by simp⟩
  case winit a b c | warr d a b | wwait a b | wtest d a b | cbar | xswap a | wdrop a =>
    obtain ⟨major, function, -⟩ := Iff.mp encE_eq_iff (Option.some.inj h.2)
    rw [decodeNat_weir major, decWeir, function]
    exact (decE_iff major function (fun _ _ _ _ => ⟨rfl, rfl⟩) fun _ _ _ _ => rfl).2 ⟨h, by simp⟩
  case fwait d a | ftest d a | fcancel a | tlread d a | tlwait a b | fjoin d a b =>
    obtain ⟨major, function, -⟩ := Iff.mp encE_eq_iff (Option.some.inj h.2)
    rw [decodeNat_fut major, decFut, function]
    exact (decE_iff major function (fun _ _ _ _ => ⟨rfl, rfl⟩) fun _ _ _ _ => rfl).2 ⟨h, by simp⟩
  case cpyG2a d a b c | cpyA2g d a b c | cpyG2c d a b c | cpyTcpy d a b c | cpyGath d a b c | cpyC2g d a b c =>
    obtain ⟨major, function, -⟩ := Iff.mp encE_eq_iff (Option.some.inj h.2)
    rw [decodeNat_cpy major, decCpy, function]
    exact (decE_iff major function (fun _ _ _ _ => ⟨rfl, rfl⟩) fun _ _ _ _ => rfl).2 ⟨h, by simp⟩
  case clrun d a b | clsig a b =>
    obtain ⟨major, function, -⟩ := Iff.mp encE_eq_iff (Option.some.inj h.2)
    rw [decodeNat_coll major, decColl, function]
    exact (decE_iff major function (fun _ _ _ _ => ⟨rfl, rfl⟩) fun _ _ _ _ => rfl).2 ⟨h, by simp⟩
  case launch d a | lqtry d =>
    obtain ⟨major, function, -⟩ := Iff.mp encE_eq_iff (Option.some.inj h.2)
    rw [decodeNat_lnch major, decLnch, function]
    exact (decE_iff major function (fun _ _ _ _ => ⟨rfl, rfl⟩) fun _ _ _ _ => rfl).2 ⟨h, by simp⟩
  case nop | spr d a | brk a | trap a | tfence | drain | yield | seed a | clock d | exit | wait a =>
    obtain ⟨major, function, fields⟩ := Iff.mp encR_eq_iff (Option.some.inj h.2)
    simp only [bits_eq_zero, bits_eq_code, bits7_eq_fin128] at fields
    rw [decodeNat_sys major, decSys, function]
    exact decU_ok.2 (by simp [fields])
  case ret | jr a | callr a | join | wconv | lbrk =>
    obtain ⟨major, function, fields⟩ := Iff.mp encR_eq_iff (Option.some.inj h.2)
    simp only [bits_eq_zero, bits_eq_code] at fields
    rw [decodeNat_ctl major, decCtl, function]
    exact decU_ok.2 (by simp [fields])
  case wrds d a =>
    obtain ⟨major, function, fields⟩ := Iff.mp encR_eq_iff (Option.some.inj h.2)
    simp only [bits_eq_zero, bits_eq_code] at fields
    rw [decodeNat_xlane major, decXlane, function]
    exact decU_ok.2 (by simp [fields])
  case eret | spw d a | sprp d a | tlbinv a b | sfrqpop d | wspill d a b | wfill d a =>
    obtain ⟨major, function, fields⟩ := Iff.mp encR_eq_iff (Option.some.inj h.2)
    simp only [bits_eq_zero, bits7_eq_fin128, bits_eq_code] at fields
    rw [decodeNat_psys major, decPsys, function]
    exact decU_ok.2 (by simp [fields])
  case azero k | acommit d k x | arank k x | arfold j k | amov f | amovw f | athr d k | arread d k x | aload d k x =>
    obtain ⟨major, function, fields⟩ := Iff.mp encT_eq_iff (Option.some.inj h.2)
    simp only [bits_eq_zero, bits4_eq_fin4, Nat.reduceAdd, bits_eq_code, bits5_eq_fin32, bits4_eq_pair,
      bits_eq_toNat, bits4_eq_fin16] at fields
    rw [decodeNat_acc major, decAcc, function]
    exact decT_ok.2 (by simp [fields])
  case tzero k | tld k x | tst k x | tmov f | tmovw f | tscl d k x n =>
    obtain ⟨major, function, fields⟩ := Iff.mp encT_eq_iff (Option.some.inj h.2)
    simp only [bits_eq_zero, bits4_eq_fin16, bits5_eq_fin32, bits_eq_code, bits_eq_toNat] at fields
    rw [decodeNat_tile major, decTile, function]
    exact decT_ok.2 (by simp [fields])
  case sel k f =>
    obtain ⟨major, function, -⟩ := Iff.mp (encR_eq_iff (fn_ := by omega)) (Option.some.inj h.2)
    have high : flag w 3 = true := bits_eq_toNat.1 (by simp only [bits, Bool.toNat_true]; omega)
    have guard : fld w 0 8 = k := bits3_eq_fin8.1 (by unfold bits; omega)
    rw [decodeNat_pred major, decPred, if_pos high, guard]
    exact (decR3_iff major function fun _ => ⟨rfl, rfl⟩).2 ⟨h, f, rfl⟩
  case pand d a b | por d a b | pxor d a b | pnot d a | p2s d a | s2p d a =>
    obtain ⟨major, function, fields⟩ := Iff.mp encR_eq_iff (Option.some.inj h.2)
    have low : ¬flag w 3 = true := Bool.eq_false_iff.1 (bits_eq_zero.1 (by unfold bits; omega))
    have below : w % 8 = w % 16 := by omega
    simp only [bits_eq_zero, bits7_eq_fin8, Nat.reduceAdd, bits_eq_code] at fields
    rw [decodeNat_pred major, decPred, if_neg low, below, function]
    simp [need_ok, fields]
  case ballot d p | any d p | all d p =>
    obtain ⟨major, function, fields⟩ := Iff.mp encR_eq_iff (Option.some.inj h.2)
    simp only [bits_eq_zero, bits_eq_code, bits7_eq_fin8, Nat.reduceAdd] at fields
    rw [decodeNat_xlane major, decXlane, function]
    simp [need_ok, fields]
  case term d a =>
    have small : decide (d.val ≤ 2) = true := h.1
    obtain ⟨major, function, fields⟩ := Iff.mp encR_eq_iff (Option.some.inj h.2)
    simp only [bits_eq_zero, bits7_eq_fin128] at fields
    rw [decodeNat_psys major, decPsys, function]
    exact need_ok.2 ⟨by rwa [fields.2.1], decU_ok.2 (by simp [fields])⟩
  case fenceAcq c | fenceRel c | fenceAr c | fenceSc c | fenceAcks c =>
    have scope : decide (c.val ≠ 7) = true := h.1
    obtain ⟨major, function, fields⟩ := Iff.mp encR_eq_iff (Option.some.inj h.2)
    have unused : bits w 4 14 = 0 := by unfold bits at *; omega
    simp only [bits_eq_zero, bits7_eq_fin8, Nat.reduceAdd] at fields
    rw [decodeNat_fence major, decFence, function]
    exact need_ok.2 ⟨by simp [fields], need_ok.2 ⟨by simp [fields, unused], need_ok.2 ⟨by simpa [fields] using scope, by simp [fields]⟩⟩⟩
  case modeGp g p =>
    have := g.toNat_lt
    obtain ⟨major, selector, value⟩ := Iff.mp (modeWord_eq_iff (by omega)) (Option.some.inj h.2)
    obtain ⟨unused, fields⟩ := bits_eq_guard.1 value
    rw [decodeNat_mode major, decMode, selector]
    exact need_ok.2 ⟨by simp [unused], by simp [fields]⟩
  case modeSatfz z a =>
    have := z.toNat_lt
    have := a.toNat_lt
    obtain ⟨major, selector, value⟩ := Iff.mp (modeWord_eq_iff (by omega)) (Option.some.inj h.2)
    obtain ⟨unused, fields⟩ := bits_eq_two_flags.1 value
    rw [decodeNat_mode major, decMode, selector]
    exact need_ok.2 ⟨by simp [unused], by simp [fields]⟩
  case modeEt v | modeTe v =>
    obtain ⟨major, selector, value⟩ := Iff.mp (modeWord_eq_iff (by omega)) (Option.some.inj h.2)
    obtain ⟨unused, field⟩ := (bits_eq_fin_low (k := 16) 19 rfl).1 value
    rw [decodeNat_mode major, decMode, selector]
    exact need_ok.2 ⟨by simp [unused], by rw [field]⟩
  case modeRm v | modeScope v =>
    obtain ⟨major, selector, value⟩ := Iff.mp (modeWord_eq_iff (by omega)) (Option.some.inj h.2)
    obtain ⟨unused, field⟩ := (bits_eq_fin_low (k := 8) 20 rfl).1 value
    rw [decodeNat_mode major, decMode, selector]
    exact need_ok.2 ⟨by simp [unused], by rw [field]⟩
  case modeDh v =>
    obtain ⟨major, selector, value⟩ := Iff.mp (modeWord_eq_iff (by omega)) (Option.some.inj h.2)
    obtain ⟨unused, field⟩ := (bits_eq_fin_low (k := 4) 21 rfl).1 value
    rw [decodeNat_mode major, decMode, selector]
    exact need_ok.2 ⟨by simp [unused], by rw [field]⟩
  case modeAll r =>
    obtain ⟨major, selector, value⟩ := Iff.mp (modeWord_eq_iff (by omega)) (Option.some.inj h.2)
    obtain ⟨unused, field⟩ := (bits_eq_fin_low (k := 32) 18 rfl).1 value
    rw [decodeNat_mode major, decMode, selector]
    exact need_ok.2 ⟨by simp [unused], by rw [field]⟩
  case br s p o =>
    obtain ⟨major, sense, fields⟩ := Iff.mp (branchWord_eq_iff o.isLt) (Option.some.inj h.2)
    simp only [bits_eq_toNat, bits3_eq_fin8, bits_eq_bitVec] at fields
    rw [decodeNat, major]
    exact (if_pos ((bits_eq_toNat (b := true)).1 sense)).trans (by simp [fields])
  case brn s p o =>
    obtain ⟨major, sense, fields⟩ := Iff.mp (branchWord_eq_iff o.isLt) (Option.some.inj h.2)
    simp only [bits_eq_toNat, bits3_eq_fin8, bits_eq_bitVec] at fields
    rw [decodeNat, major]
    exact (if_neg (Bool.eq_false_iff.1 (bits_eq_zero.1 sense))).trans (by simp [fields])
  case bru r c o =>
    obtain ⟨major, fields⟩ := Iff.mp (bruWord_eq_iff o.isLt) (Option.some.inj h.2)
    simp only [bits_eq_zero, bits5_eq_fin32, bits2_eq_fin4, bits_eq_bitVec] at fields
    rw [decodeNat, major]
    exact need_ok.2 ⟨by simp [fields], by simp [fields]⟩
  case jmp o | call o =>
    obtain ⟨major, offset⟩ := Iff.mp (jumpWord_eq_iff o.isLt) (Option.some.inj h.2)
    rw [decodeNat, major, bits_eq_bitVec.1 offset]
    rfl
  case loop len c =>
    have length : decide (len.val ≠ 0) = true := h.1
    obtain ⟨major, fields⟩ := Iff.mp loopWord_eq_iff (Option.some.inj h.2)
    simp only [bits8_eq_fin256, bits_eq_code] at fields
    rw [decodeNat, major]
    exact need_ok.2 ⟨by simp [fields], need_ok.2 ⟨by simpa [fields] using length, by simp [fields]⟩⟩
  case addi f | andi f =>
    obtain ⟨major, -⟩ := Iff.mp (encI_eq_iff (i_ := f.i.isLt)) (Option.some.inj h.2)
    rw [decodeNat, major]
    exact (decImm_iff major fun _ => ⟨rfl, rfl⟩).2 ⟨h, f, rfl⟩
  case movi n d v =>
    have latch : latchForm n d = true := h.1
    obtain ⟨major, fields⟩ := Iff.mp (moviWord_eq_iff v.isLt) (Option.some.inj h.2)
    simp only [bits_eq_toNat, bits_eq_code, bits_eq_bitVec] at fields
    rw [decodeNat, major]
    exact need_ok.2 ⟨by simpa [fields] using latch, by simp [fields]⟩
  case movh d j v =>
    have half : movhForm d j = true := h.1
    obtain ⟨major, fields⟩ := Iff.mp (movhWord_eq_iff v.isLt) (Option.some.inj h.2)
    simp only [bits_eq_zero, bits_eq_code, bits2_eq_fin4, bits_eq_bitVec] at fields
    rw [decodeNat, major]
    exact need_ok.2 ⟨by simp [fields], need_ok.2 ⟨by simpa [fields] using half, by simp [fields]⟩⟩
  case uaddi d a v =>
    obtain ⟨major, fields⟩ := Iff.mp (encI_eq_iff (i_ := v.isLt)) (Option.some.inj h.2)
    simp only [bits_eq_zero, bits_eq_code, bits_eq_bitVec] at fields
    rw [decodeNat, major]
    exact need_ok.2 ⟨by simp [fields], by simp [fields]⟩
  case ishiShl f =>
    obtain ⟨major, -, -, -, amount⟩ := Iff.mp (encI_eq_iff (i_ := by omega)) (Option.some.inj h.2)
    have fields : bits w 7 4 = 0 ∧ bits w 5 2 = 0 := by unfold bits at *; omega
    rw [decodeNat_ishi major, decIshi, fields.2]
    exact need_ok.2 ⟨by simp [fields.1], (decShi_iff major fields fun _ => ⟨rfl, rfl⟩).2 ⟨h, f, rfl⟩⟩
  case ishiShr f =>
    obtain ⟨major, -, -, -, amount⟩ := Iff.mp (encI_eq_iff (i_ := by omega)) (Option.some.inj h.2)
    have fields : bits w 7 4 = 0 ∧ bits w 5 2 = 1 := by unfold bits at *; omega
    rw [decodeNat_ishi major, decIshi, fields.2]
    exact need_ok.2 ⟨by simp [fields.1], (decShi_iff major fields fun _ => ⟨rfl, rfl⟩).2 ⟨h, f, rfl⟩⟩
  case ishiSar f =>
    obtain ⟨major, -, -, -, amount⟩ := Iff.mp (encI_eq_iff (i_ := by omega)) (Option.some.inj h.2)
    have fields : bits w 7 4 = 0 ∧ bits w 5 2 = 2 := by unfold bits at *; omega
    rw [decodeNat_ishi major, decIshi, fields.2]
    exact need_ok.2 ⟨by simp [fields.1], (decShi_iff major fields fun _ => ⟨rfl, rfl⟩).2 ⟨h, f, rfl⟩⟩
  case ishiRol f =>
    obtain ⟨major, -, -, -, amount⟩ := Iff.mp (encI_eq_iff (i_ := by omega)) (Option.some.inj h.2)
    have fields : bits w 7 4 = 0 ∧ bits w 5 2 = 3 := by unfold bits at *; omega
    rw [decodeNat_ishi major, decIshi, fields.2]
    exact need_ok.2 ⟨by simp [fields.1], (decShi_iff major fields fun _ => ⟨rfl, rfl⟩).2 ⟨h, f, rfl⟩⟩
  case ld f =>
    obtain ⟨major, -⟩ := Iff.mp encM_eq_iff (Option.some.inj h.2)
    rw [decodeNat, major]
    exact (decLoad_iff major fun _ => ⟨rfl, rfl⟩).2 ⟨h, f, rfl⟩
  case st f | stp f =>
    obtain ⟨major, -⟩ := Iff.mp encM_eq_iff (Option.some.inj h.2)
    rw [decodeNat, major]
    exact (decStore_iff major fun _ => ⟨rfl, rfl⟩).2 ⟨h, f, rfl⟩
  case lda f =>
    obtain ⟨major, -, -, -, -, -, hint⟩ := Iff.mp encM_eq_iff (Option.some.inj h.2)
    rw [decodeNat, major]
    exact need_ok.2 ⟨by simp [hint], (decLoad_noHint_iff major hint fun _ => ⟨rfl, rfl⟩).2 ⟨h, f, rfl⟩⟩
  case sta f | stx f | mst f =>
    obtain ⟨major, -, -, -, -, -, hint⟩ := Iff.mp encM_eq_iff (Option.some.inj h.2)
    rw [decodeNat, major]
    exact need_ok.2 ⟨by simp [hint], (decStore_noHint_iff major hint fun _ => ⟨rfl, rfl⟩).2 ⟨h, f, rfl⟩⟩
  case puta f once =>
    have := once.toNat_lt
    obtain ⟨major, -, -, -, -, -, hint⟩ := Iff.mp (encM_eq_iff (h_ := by omega)) (Option.some.inj h.2)
    obtain ⟨unused, once⟩ := once_hint.1 hint
    rw [decodeNat, major, once]
    exact need_ok.2 ⟨by simp [unused], (decStore_noHint_iff (c := fun f => .puta f _) major hint fun _ => ⟨rfl, rfl⟩).2 ⟨h, f, rfl⟩⟩
  case pref b i | ldrop b i =>
    obtain ⟨major, data, base, index, function, low⟩ := Iff.mp encM_eq_iff (Option.some.inj h.2)
    have unused : bits w 0 4 = 0 := by unfold bits at *; omega
    simp only [bits5_eq_fin32, bits_eq_code] at base index
    rw [decodeNat_mhint major, decMhint, function]
    exact need_ok.2 ⟨by simp [unused], need_ok.2 ⟨by simp [data], by simp [base, index]⟩⟩
  case phint x b i =>
    obtain ⟨major, data, base, index, function, low⟩ := Iff.mp encM_eq_iff (Option.some.inj h.2)
    have unused : bits w 0 4 = 0 := by unfold bits at *; omega
    simp only [bits_eq_code, bits5_eq_fin32] at data base index
    rw [decodeNat_mhint major, decMhint, function]
    exact need_ok.2 ⟨by simp [unused], by simp [data, base, index]⟩
  case mma f =>
    obtain ⟨⟨major, high⟩, unused, low⟩ := mmaWord_eq_iff.1 (Option.some.inj h.2)
    simp only [bits2_eq_fin4, bits4_eq_fin16, bits5_eq_fin32, bits3_eq_fin8, bits_eq_zero,
      bits_eq_toNat] at high unused low
    rw [decodeNat_mma major, decMma]
    exact need_ok.2 ⟨by simp [unused], by simp [high, low]⟩
  all_goals exact nomatch h.2

end
end Sys2Proof
end

section
/-! Encoding and decoding undo each other (R141, R142, R143, R156). -/

open Sys2Proof

/-- A number that decodes is that of a 32-bit word: beyond, the major opcode would be one that R153 reserves. -/
theorem lt_of_decodeNat_ok {n : Nat} {i : Instr} (h : decodeNat n = .ok i) : n < 2 ^ 32 := by
  by_contra large
  have beyond : 2 ^ 6 ≤ n / 2 ^ 26 := by omega
  unfold decodeNat at h
  split at h
  case h_46 => contradiction
  all_goals omega

/-- Settles O59: the arm that the word of each instruction selects reads it back (`decodeNat_of_encodes`). -/
theorem decodingOfEncodings : Obligations.DecodingOfEncodings := by
  unfold Obligations.DecodingOfEncodings
  intro i w good word
  obtain ⟨n, number, rfl⟩ := Option.map_eq_some_iff.1 word
  have read := decodeNat_of_encodes ⟨good, number⟩
  rw [decode, BitVec.toNat_ofNat, Nat.mod_eq_of_lt (lt_of_decodeNat_ok read), read]

/-- Settles O60: every arm of the decoder leaves no bit of its word unread (`encodes_of_decodeNat`). -/
theorem encodingOfDecodings : Obligations.EncodingOfDecodings := by
  unfold Obligations.EncodingOfDecodings
  intro w i read
  obtain ⟨good, number⟩ := encodes_of_decodeNat read
  exact ⟨good, by rw [encode, number, Option.map_some, BitVec.ofNat_toNat, BitVec.setWidth_eq]⟩

/-- Settles O54: each word by evaluating the decoder on it. -/
theorem decodingSampleWords : Obligations.DecodingSampleWords := by
  unfold Obligations.DecodingSampleWords
  decide
end

section
/-! Global atomics as they leave a sub-gang (R113, R147, R233, R235). -/

namespace Sys2Proof.Machine

section
variable (f : FMA) (kind : ReqKind) (z : Nat) (data cmp : Strand → Nat → BitVec 128) (a : Site)

/-- The requests of a global atomic, its threads that fail, and the strand as its access begins. -/
def atomReqs : List Req :=
  (lineReqs a kind z f.x.code 0 (data a.st) (cmp a.st) (threadAddr a.st f.b.val f.i)
    (okThreads a (threadAddr a.st f.b.val f.i) (loadXl a (domOf a.c.core) (permR + permW)))).map (fun r => { r with tag := f.q })
@[inherit_doc atomReqs] def atomFaults : Faults :=
  faultsOf a (threadAddr a.st f.b.val f.i) (loadXl a (domOf a.c.core) (permR + permW))
@[inherit_doc atomReqs] def atomWaits : Strand :=
  awaitReplies { a.st with fence := 0 } f.x.code z (atomReqs f kind z data cmp a).length (atomFaults f a)

theorem atomAct_sends :
    let t := atomAct f kind z (fun a => data a.st) (fun a => cmp a.st) a
    StrandSends a.u a.k (atomReqs f kind z data cmp a) a.s t ∧ t.strand a.u a.k = atomWaits f kind z data cmp a := by
  exact ⟨((sends_dropLines ..).trans (sends_foldl (fun t r => sends_send t a.u a.k r) (atomReqs f kind z data cmp a) _)).then_nothing
    (sends_setStrand ..), (State.strand_setStrand ..).trans (if_pos ⟨rfl, rfl⟩)⟩

theorem atomReqs_strand : ∀ r ∈ atomReqs f kind z data cmp a, r.strand = a.k := by
  intro r sent
  obtain ⟨q, line, rfl⟩ := List.mem_map.1 sent
  exact lineReqs_strand _ _ _ _ _ _ _ _ _ q line

variable {f kind z data cmp a}

theorem atomReqs_carry {th pa : Nat} (low : th < 32) (active : a.st.active.getLsbD th = true)
    (ok : strandXl a (domOf a.c.core) (permR + permW) (threadAddr a.st f.b.val f.i th) = .ok pa) (near : devOf pa = a.s.dev) :
    ∃ r ∈ atomReqs f kind z data cmp a, r.carries a th kind pa (zBytes z) (data a.st th) (cmp a.st th) := by
  obtain ⟨r, line, carries⟩ := lineReqs_carry a kind z f.x.code 0 (data a.st) (cmp a.st) (threadAddr a.st f.b.val f.i) _
    (mem_okThreads.2 ⟨⟨low, active⟩, loadXl_here ok near⟩)
  exact ⟨_, List.mem_map_of_mem line, carries⟩

/-- A strand with a request on its way waits for the old value. -/
theorem atomWaits_reply {r : Req} (sent : r ∈ atomReqs f kind z data cmp a) : (atomWaits f kind z data cmp a).wait = .reply := by
  unfold atomWaits awaitReplies
  dsimp only
  rw [if_pos (List.length_pos_of_mem sent)]

theorem atomWaits_leaves (some : ∃ th < 32, a.st.active.getLsbD th = true)
    (all : a.allHere (domOf a.c.core) (permR + permW) (threadAddr a.st f.b.val f.i)) (free : Prop) :
    a.leaves true free (atomWaits f kind z data cmp a) := by
  obtain ⟨th, low, active⟩ := some
  obtain ⟨pa, ok, near⟩ := all th low active
  obtain ⟨r, sent, _⟩ := atomReqs_carry (kind := kind) (z := z) (data := data) (cmp := cmp) low active ok near
  have none : (atomFaults f a).mask = 0 := faultsOf_none fun th low active => by
    obtain ⟨pa, ok, near⟩ := all th low active
    exact ⟨pa, loadXl_here ok near⟩
  exact awaitReplies_waits (a := { a with st := { a.st with fence := 0 } }) (List.length_pos_of_mem sent) none free

end

section
variable {s : State} {i : Instr} {f : FMA} {x : Use} {kind : ReqKind} {z : Nat} {data cmp : Strand → Nat → BitVec 128}

/-- A global atomic that neither traps nor waits acts in each strand in turn. -/
theorem atomOp_acts (ready : s.atomReady f x z) : atomOp i f x kind z (fun a => data a.st) (fun a => cmp a.st) s =
    .next (eachStrand x (atomAct f kind z (fun a => data a.st) (fun a => cmp a.st)) s s.cur.crew s.cur.strands) := by
  obtain ⟨clear, fences, _, access⟩ := ready
  rw [atomOp, runNext, runInstr_acts clear rfl rfl (fun k here => alignTrap_none (access k here).1) (fun k here => ?_)]
  obtain ⟨_, order, walk, row⟩ := access k here
  have fence := fences k here
  unfold State.at at order walk row fence
  dsimp only at order walk row ⊢
  rw [order, fence, walk, row]
  rfl

theorem atomAct_each {k : Nat} {t : State} {a : Site} (at_ : a = ⟨t, s.cur.crew, k, t.crew s.cur.crew, s.reading x k⟩)
    (same : a.bare = (s.at x k).bare) :
    let v := atomAct f kind z (fun a => data a.st) (fun a => cmp a.st) a
    StrandSends s.cur.crew k (atomReqs f kind z data cmp (s.at x k)) t v ∧ v.strand s.cur.crew k = atomWaits f kind z data cmp (s.at x k) := by
  rw [← bare_congr (atomReqs f kind z data cmp) (fun _ => rfl) same, ← bare_congr (atomWaits f kind z data cmp) (fun _ => rfl) same]
  subst at_
  exact atomAct_sends f kind z data cmp ⟨t, s.cur.crew, k, t.crew s.cur.crew, s.reading x k⟩

/-- A global atomic is an access that waits for the replies. -/
theorem atomOp_accesses (ready : s.atomReady f x z) :
    Accesses s x (atomOp i f x kind z (fun a => data a.st) (fun a => cmp a.st) s) kind z (permR + permW) (fun a => domOf a.c.core)
      (fun st => threadAddr st f.b.val f.i) data cmp true := by
  rw [atomOp_acts ready]
  refine accesses_eachStrand (rs := fun k => atomReqs f kind z data cmp (s.at x k)) ready.1 (fun k n => n = atomWaits f kind z data cmp (s.at x k))
    (fun k _ => atomReqs_strand f kind z data cmp (s.at x k)) (fun k _ t a at_ same _ => atomAct_each at_ same) (fun k _ n is => ?_)
    (fun k _ th low active pa ok near => atomReqs_carry low active ok near)
  subst is
  exact ⟨awaitReplies_registers .., fun some all => atomWaits_leaves some all _⟩

/-- One operand of 32 bits. -/
theorem atom32_accesses {aop : Nat} (ready : s.atomReady f (atomUse f false) 2) : atom32Done s f (atom32 i f aop s) aop :=
  atomOp_accesses (data := fun st t => (st.src f.x t).setWidth 128) (cmp := fun _ _ => 0) ready

/-- One operand of 64 bits. -/
theorem atom64_accesses {aop : Nat} (ready : s.atomReady f (atomwUse f 2) 3) : atom64Done s f (atom64 i f aop s) aop :=
  atomOp_accesses (data := fun st t => (pairAt st f.x 0 t).setWidth 128) (cmp := fun _ _ => 0) ready

/-- The strands after a global atomic. -/
theorem atomOp_strands {t : State} (ready : s.atomReady f x z)
    (next : atomOp i f x kind z (fun a => data a.st) (fun a => cmp a.st) s = .next t) :
    ∀ k ∈ s.cur.strands, t.strand s.cur.crew k = atomWaits f kind z data cmp (s.at x k) := by
  cases (atomOp_acts ready).symm.trans next
  exact (gangSends_eachStrand (rs := fun k => atomReqs f kind z data cmp (s.at x k)) ready.1 (fun k n => n = atomWaits f kind z data cmp (s.at x k))
    (fun k _ => atomReqs_strand f kind z data cmp (s.at x k)) (fun k _ t a at_ same _ => atomAct_each at_ same) _ [] s rfl (.refl ..)
    (by simp)).2

end

end Sys2Proof.Machine

open Sys2Proof Sys2Proof.Machine

/-- Settles O23: every function is an access by `atomOp_accesses`; a strand of ATOMW.CAS128 waits as soon as one of its threads has a request. -/
theorem atomicsIssue : Obligations.AtomicsIssue := by
  unfold Obligations.AtomicsIssue
  refine fun s f => ⟨fun ready => ?_, fun ready => ?_, fun ready => ?_, fun ready => ?_, fun ready => ?_⟩
  · refine ⟨?_, ?_, ?_, ?_, ?_, ?_, ?_, ?_, ?_, ?_, ?_, ?_, ?_, ?_⟩ <;> exact atom32_accesses ready
  · exact atomOp_accesses (data := fun st t => (st.srcAt f.x 0 t).setWidth 128) (cmp := fun st t => (st.srcAt f.x 1 t).setWidth 128) ready
  · refine ⟨?_, ?_, ?_, ?_, ?_, ?_⟩ <;> exact atom64_accesses ready
  · exact atomOp_accesses (data := fun st t => (pairAt st f.x 0 t).setWidth 128) (cmp := fun st t => (pairAt st f.x 2 t).setWidth 128) ready
  · obtain ⟨t, next, mem, _, each⟩ := atomOp_accesses (i := .atomwCas128 f) (kind := .atomicW 5) (data := fun st t => quadAt st f.x 0 t)
      (cmp := fun st t => quadAt st f.x 4 t) ready
    refine ⟨t, next, mem, fun k here => ?_⟩
    obtain ⟨regs, carries, _⟩ := each k here
    refine ⟨regs, fun th low active pa ok near => ⟨carries th low active pa ok near, ?_⟩⟩
    obtain ⟨r, sent, _⟩ := atomReqs_carry (a := s.at (atomwUse f 8) k) low active ok near
    rw [atomOp_strands (data := fun st t => quadAt st f.x 0 t) (cmp := fun st t => quadAt st f.x 4 t) ready next k here]
    exact atomWaits_reply sent
end

section
/-! The system instructions: MODE, NOP, SPR, SEED and CLOCK (R56, R58, R69, R177, R178, R179, R185, R186). -/

namespace Sys2Proof.Machine

/-! Writing a field of a word. -/

/-- A number whose field of `n` bits at `lo` holds `v`: below it `low`, above it `high`. -/
theorem testBit_parts {low lo v n high b : Nat} (low_lt : low < 2 ^ lo) (v_lt : v < 2 ^ n) :
    (2 ^ lo * (2 ^ n * high + v) + low).testBit b =
      if b < lo then low.testBit b else if b < lo + n then v.testBit (b - lo) else high.testBit (b - lo - n) := by
  rw [Nat.testBit_two_pow_mul_add _ low_lt]
  split
  · rfl
  · rw [Nat.testBit_two_pow_mul_add _ v_lt]
    congr 1
    exact propext (by omega)

theorem setField_getLsbD {w : Word} {lo n v b : Nat} (v_lt : v < 2 ^ n) (b_lt : b < 32) :
    (setField w lo n v).getLsbD b = if lo ≤ b ∧ b < lo + n then v.testBit (b - lo) else w.getLsbD b := by
  have parts : w.toNat = 2 ^ lo * (2 ^ n * (w.toNat / 2 ^ lo / 2 ^ n) + nbits w.toNat lo n) + w.toNat % 2 ^ lo := by
    rw [nbits, Nat.div_add_mod, Nat.div_add_mod]
  have written : w.toNat - nbits w.toNat lo n * 2 ^ lo + v % 2 ^ n * 2 ^ lo =
      2 ^ lo * (2 ^ n * (w.toNat / 2 ^ lo / 2 ^ n) + v) + w.toNat % 2 ^ lo := by
    rw [Nat.mod_eq_of_lt v_lt]
    simp only [Nat.mul_add, Nat.mul_comm _ (2 ^ lo)] at parts ⊢
    omega
  have low_lt : w.toNat % 2 ^ lo < 2 ^ lo := Nat.mod_lt _ (Nat.two_pow_pos lo)
  have field_lt : nbits w.toNat lo n < 2 ^ n := Nat.mod_lt _ (Nat.two_pow_pos n)
  rw [setField, BitVec.getLsbD_ofNat, written, testBit_parts low_lt v_lt]
  have old : w.getLsbD b = w.toNat.testBit b := rfl
  rw [old, parts, testBit_parts low_lt field_lt]
  simp only [b_lt, decide_true, Bool.true_and]
  grind

/-! MODE. -/

/-- A MODE instruction writes its field in every strand and leaves the other bits of MR. -/
theorem modeOp_sets {i : Instr} {lo n v u : Nat} {s : State} (clear : s.clear {}) (v_lt : v < 2 ^ n) (value : v = u) :
    ∃ m : Nat → Word, Completes s (modeOp i lo n v s) (fun k => { (s.reading {} k) with mr := m k }.seq) ∧
      ∀ k b, b < 32 → (m k).getLsbD b = if lo ≤ b ∧ b < lo + n then u.testBit (b - lo) else (s.reading {} k).mr.getLsbD b := by
  subst value
  exact ⟨fun k => setField (s.reading {} k).mr lo n v,
    completes_strandOp i {} _ (fun a => { a.st with mr := setField a.st.mr lo n v }) clear (fun _ _ => rfl) fun _ _ _ => rfl,
    fun k b low => setField_getLsbD v_lt low⟩

/-! SPR. -/

/-- A special register does not depend on the strands of any crew but the one that reads it. -/
theorem sprValue_alike {s t : State} (alike : Alike s t) (u k : Nat) (st : Strand) (n th : Nat) :
    sprValue ⟨t, u, k, t.crew u, st⟩ n th = sprValue ⟨s, u, k, s.crew u, st⟩ n th := by
  have core : (t.crew u).core = (s.crew u).core := alike.crewField u Crew.core
  have launch : (t.crew u).launch = (s.crew u).launch := alike.crewField u Crew.launch
  have index : (t.crew u).index = (s.crew u).index := alike.crewField u Crew.index
  have stage : (t.crew u).stage = (s.crew u).stage := alike.crewField u Crew.stage
  have record : t.crewLaunch (t.crew u) = s.crewLaunch (s.crew u) := by
    unfold State.crewLaunch
    rw [launch]
    exact alike.field (fun r : State => r.launchOf (s.crew u).launch)
  have dev : t.dev = s.dev := alike.field State.dev
  have ndev (p : Nat) : t.ndev p = s.ndev p := alike.field (State.ndev · p)
  have clock : t.clock = s.clock := alike.field State.clock
  have ltime : t.ltime = s.ltime := alike.field State.ltime
  simp only [sprValue, record, core, launch, index, stage, dev, ndev, clock, ltime]

section
variable {s : State} {n : Fin 128}

/-- SPR into a V or O register writes the value of each active thread. -/
theorem execSpr_vector {d : Opnd} (vector : isS d = false) (clear : s.clear { out := [d], bad := fun _ _ => decide (24 ≤ n.val) }) :
    Completes s (execSpr d n s) (fun k =>
      let a : Site := ⟨s, s.cur.crew, k, s.crew s.cur.crew, s.reading { out := [d], bad := fun _ _ => decide (24 ≤ n.val) } k⟩
      (a.st.writeReg d a.st.active (fun t => BitVec.ofNat 32 (sprValue a n.val t))).seq) := by
  have runs : execSpr d n s = runNext (.spr d n) (strandOp { out := [d], bad := fun _ _ => decide (24 ≤ n.val) }
      (fun a => a.st.writeReg d a.st.active (fun t => BitVec.ofNat 32 (sprValue a n.val t)))) s := by
    cases d <;> simp_all [execSpr, isS]
  rw [runs]
  exact completes_strandOp (.spr d n) { out := [d], bad := fun _ _ => decide (24 ≤ n.val) } (fun _ => none)
    (fun a => a.st.writeReg d a.st.active (fun t => BitVec.ofNat 32 (sprValue a n.val t))) clear (fun _ _ => rfl)
    fun t k alike => by simp only [sprValue_alike alike]

/-- SPR into an S register. -/
theorem execSpr_scalar {d : Fin 32} (clear : s.clear { sout := [.s d], bad := fun _ _ => decide (24 ≤ n.val ∨ n.val = 0) }) :
    Completes s (execSpr (.s d) n s) (fun k =>
      let a : Site := ⟨s, s.cur.crew, k, s.crew s.cur.crew, s.reading { sout := [.s d], bad := fun _ _ => decide (24 ≤ n.val ∨ n.val = 0) } k⟩
      (a.st.setS d.val (BitVec.ofNat 64 (sprValue a n.val 0))).seq) := by
  have runs : execSpr (.s d) n s = runNext (.spr (.s d) n) (strandOp { sout := [.s d], bad := fun _ _ => decide (24 ≤ n.val ∨ n.val = 0) }
      (fun a => a.st.setS d.val (BitVec.ofNat 64 (sprValue a n.val 0)))) s := by
    simp [execSpr, isS, Bool.decide_or]
  rw [runs]
  exact completes_strandOp (.spr (.s d) n) { sout := [.s d], bad := fun _ _ => decide (24 ≤ n.val ∨ n.val = 0) } (fun _ => none)
    (fun a => a.st.setS d.val (BitVec.ofNat 64 (sprValue a n.val 0))) clear (fun _ _ => rfl) fun t k alike => by simp only [sprValue_alike alike]

end

/-! CLOCK. -/

/-- Nothing that CLOCK waits for is to come (R186). -/
theorem clockHold_free {a : Site} (late : ∀ e ∈ a.st.late, e.2 ≤ a.s.period) (locks : a.c.runningLocks (weaveOf a.k) = []) :
    clockHold a = none := by
  have none : a.st.late.filter (fun e => decide (a.s.period < e.2)) = [] :=
    List.filter_eq_nil_iff.2 fun e here => by simpa using late e here
  simp [clockHold, none, locks]

theorem execClock_completes {s : State} {d : Fin 32} (clear : s.clear { sout := [.s d] })
    (settled : ∀ k ∈ s.cur.strands, (∀ e ∈ (s.strand s.cur.crew k).late, e.2 ≤ s.period) ∧
      (s.crew s.cur.crew).runningLocks (weaveOf k) = []) :
    Completes s (execClock (.s d) s) (fun k => ((s.reading { sout := [.s d] } k).setS d.val (BitVec.ofNat 64 (s.time / 2))).seq) := by
  refine completes_onStrand (.clock (.s d))
    { strandOp { sout := [.s d] } (fun a => a.st.setS d.val (BitVec.ofNat 64 a.s.clock)) with hold := clockHold }
    (fun a => (a.st.setS d.val (BitVec.ofNat 64 a.s.clock)).seq) s _ rfl rfl clear (fun _ _ => rfl)
    (fun k here => ?_) fun t k alike _ _ => ?_
  · obtain ⟨late, locks⟩ := settled k here
    exact clockHold_free late locks
  · have time : t.time = s.time := alike.field State.time
    simp only [State.clock, time]
    rfl

end Sys2Proof.Machine

open Sys2Proof Sys2Proof.Machine

/-- Settles O12: each instruction completes by the runner, as none traps or waits; MODE changes its field alone by `setField_getLsbD`, and what SPR
reads does not depend on the strands that issued before. -/
theorem systemRegisters : Obligations.SystemRegisters := by
  unfold Obligations.SystemRegisters
  refine ⟨fun s => ⟨fun clear => ?_, fun r clear small => ?_⟩, fun s => ⟨fun clear => ?_,
    fun d n vector => execSpr_vector vector, fun d n => execSpr_scalar, fun a clear => ?_, fun d => execClock_completes⟩⟩
  · refine ⟨fun g p => modeOp_sets clear ?_ ?_, fun e => modeOp_sets clear e.isLt rfl,
      fun m => modeOp_sets clear m.isLt rfl, fun z a => modeOp_sets clear ?_ ?_,
      fun c => modeOp_sets clear c.isLt rfl, fun t => modeOp_sets clear t.isLt rfl,
      fun h => modeOp_sets clear h.isLt rfl⟩
    · cases g <;> simp <;> omega
    · cases g <;> rfl
    · cases z <;> cases a <;> decide
    · cases z <;> cases a <;> rfl
  · exact completes_strandOp (.modeAll r) { sr := [r.val] } _ (fun a => { a.st with mr := (a.st.sreg r.val).setWidth 32 }) clear
      (fun k here => if_pos (small k here)) fun _ _ _ => rfl
  · exact completes_strandOp .nop {} _ Site.st clear (fun _ _ => rfl) fun _ _ _ => rfl
  · exact completes_strandOp (.seed a) { src := [a] } _
      (fun x => { x.st with sto := writeThreads x.st.sto 0 0xFFFFFFFF (fun t => seedSto (x.st.src a t) t (sidOf x.k) (weaveOf x.k)) 32 }) clear
      (fun _ _ => rfl) fun _ _ _ => rfl
end
